-- ==== Sys2Proof/Word.lean ====
section
/-! DEFINITION. The word types of the FZ4096 model and the sparse table that holds arrays. Numbers are little-endian and
bits count from 0 at the least significant end (R8, R9). -/

namespace Sys2Proof

/-- One byte. -/
abbrev Byte := BitVec 8
/-- One 32-bit register word (R15). -/
abbrev Dword := BitVec 32
/-- One 64-bit register (R15). -/
abbrev Qword := BitVec 64
/-- One 64-byte line of an on-chip memory or of DRAM (R384, R404). -/
abbrev Line := BitVec 512
/-- One 64-byte Sibor command packet (R54). -/
abbrev Packet := BitVec 512
/-- One 32-byte ring packet, event record or capture record (R61, R432, R436). -/
abbrev Rec256 := BitVec 256
/-- One 4 KiB logical block (R160). -/
abbrev Block := BitVec 32768
/-- The 64 KiB of a granule, or of an ingress slot (R160, R67). -/
abbrev GranuleBits := BitVec 524288
/-- One 256-byte code-flash line (R363). -/
abbrev FlashLine := BitVec 2048

/-- A sparse array: index and value pairs. The operations of Machine/Table.lean keep the indices strictly rising. -/
abbrev Tbl (α : Type) := List (Nat × α)

/-- A register field: the register's internal address, the field's lowest bit and its width. -/
structure Fld where
  addr : Nat
  lsb : Nat
  width : Nat
deriving DecidableEq, Repr

/-- The same field `n` bytes further: another port, channel or element of an array. -/
def Fld.at (f : Fld) (n : Nat) : Fld := { f with addr := f.addr + n }

/-- What a write does to a field that is not ro (R11). -/
inductive FieldKind where
  | rw | w1c | wo | rc
deriving DecidableEq, Repr

/-- A field that is not ro, with the range of its legal encodings (R13). -/
structure FieldDef where
  lsb : Nat
  width : Nat
  kind : FieldKind
  lo : Nat
  hi : Nat
deriving DecidableEq, Repr

/-- A register as the spec's register tables describe it: base address, element stride and count, distance of the second
port's copy (0: none), whether it is 64 bits wide, and its fields that are not ro. -/
structure RegDef where
  base : Nat
  stride : Nat
  count : Nat
  per : Nat
  wide : Bool
  fields : List FieldDef
deriving DecidableEq, Repr

end Sys2Proof
end

