-- ==== Sys2Proof/Syntax.lean ====
section
/-! DEFINITION. The commands of the FZ4096 block: one constructor for each row of spec/opcode_table.json, in the table's
order, with the row's operands. An operand is what the outside world settles: which port, queue, LUN or timer the event is
about, the bits that arrive, and the physical outcome of a flash operation, a decode or a training (log 1, 10).
`acc` is the acceptance number of an outstanding command (R84). -/

namespace Sys2Proof

/-- Who makes an internal access or a register write (R40, R416). -/
inductive Who where
  | warden
  | bolt (n : Nat)
  | host (port : Nat)
deriving DecidableEq, Repr

/-- The atomic memory operations of RV64GC's A extension (R345; log 46). -/
inductive AmoOp where
  | swap | add | and | or | xor | minSigned | maxSigned | minUnsigned | maxUnsigned
deriving DecidableEq, Repr

/-- The kind of an internal access (R344, R345). -/
inductive AccessKind where
  | fetch
  | read
  | write
  | atomic (op : AmoOp)
  | loadReserved
  | storeConditional
deriving DecidableEq, Repr

/-- The completion status of a PCIe completion (R72). -/
inductive CplStatus where
  | successful
  | unsupportedRequest
  | completerAbort
  | retry
deriving DecidableEq, Repr

/-- The form of a host memory write: its length in bytes, and whether the TLP is poisoned (R319, R320). -/
structure WriteForm where
  len : Nat
  poisoned : Bool
deriving DecidableEq, Repr

/-- The fields to which R309, R313 and R315 give a fixed value. -/
inductive FixedField where
  | capabilityVersion | devicePortType | flitModeSupported | maxPayloadSupported | phantomFunctions | extendedTagSupported
  | roleBasedErrorReporting | flrCapable | supportedLinkSpeeds | maxLinkSpeed | maxLinkWidth | aspmSupport
  | ctoRangesSupported | ctoDisableSupported | tag10CompleterSupported | tag10RequesterSupported
  | atomicOpCompleterSupported | ltrSupported | obffSupported | tphCompleterSupported
  | tag14CompleterSupported | tag14RequesterSupported | l0pSupported
  | noSoftReset | d1Supported | d2Supported | pmeSupport
  | msixTableSize | msixTableBir | msixTableOffset | msixPbaBir | msixPbaOffset
  | ecrcGenerationCapable | ecrcCheckCapable
deriving DecidableEq, Repr

/-- The functions whose capability structures are absent (R314). -/
inductive AbsentCap where
  | msi | sriov | ats | pri | pasid | resizableBar | tph | l1PmSubstates | ltr
deriving DecidableEq, Repr

/-- A configuration register the spec names, one of a structure it says is absent, or another one by its offset (R309, R312 to
R316, R329). -/
inductive CfgReg where
  | fixed (f : FixedField)
  | absent (c : AbsentCap)
  | busMasterEnable
  | vendorId | deviceId | subsystemVendorId | subsystemId | revisionId | classCode
  | memorySpaceEnable | maxPayloadSize | maxReadRequestSize
  | relaxedOrderingEnable | idoRequestEnable
  | completionTimeoutValue | completionTimeoutDisable
  | tag10Enable | tag14Enable | aspmControl | powerState
  | bar0 | bar2 | bar4
  | msixEnable | msixFunctionMask | deviceSerial
  | slotClock
  | other (offset : Nat)
deriving DecidableEq, Repr

/-- What the loader's SFDP reads found (R470): the signature, the density, the highest clock of each mode in the order
1-1-1, 1-1-2, 1-2-2, 1-1-4, 1-4-4 (0 where the table does not advertise it), whether a quad read needs no write, and the
4-Byte Address Instruction Table. -/
structure NorInfo where
  sfdp : Bool
  densityMib : Nat
  clocks : List Nat
  quadNoWrite : Bool
  table4 : Bool
deriving DecidableEq, Repr

/-- What the wake audit reads on one LUN (R245): the witness sequences of the lines whose footers do not decode within L2, and at
each of the sixteen steps the wrong cells of each threshold of sweep_level. -/
structure Measure where
  lun : Nat
  bad : List Nat
  counts : List (List Nat)
deriving DecidableEq, Repr

/-- What the wake finds unreadable in flash at CHECKPOINT_LOAD and the replay after it: the program sequences of the sets that were
being programmed at the loss, or that replay reads, whose footers do not decode (R189); the places of copies of a record that do not
decode or fail their crc (R188); the map pages of which replay can read neither replica (R168). -/
structure Unreadable where
  torn : List Nat
  copies : List Nat
  pages : List Nat
deriving DecidableEq, Repr

/-- What a decoder finds in a codeword (R227): whether its syndrome is zero, whether its crc is right, and the address its metadata
carries. -/
structure Check where
  syndromeZero : Bool
  crcOk : Bool
  address : Nat
deriving DecidableEq, Repr

/-- A debug access through the private TAP instructions (R464). -/
inductive DebugOp where
  | halt (core : Nat)
  | step (core : Nat)
  | resume (core : Nat)
  | readReg (core : Nat) (r : Nat)
  | writeReg (core : Nat) (r : Nat) (value : Qword)
  | readMem (core : Nat) (addr : Nat)
  | writeMem (core : Nat) (addr : Nat) (value : Qword)
deriving DecidableEq, Repr

/-- The commands. -/
inductive Instr where
  | ingressPacket (port queue off len : Nat) (be poisoned : Bool) (pkt : Packet)
  | ringRelease (port queue : Nat) (pkt : Packet)
  | commandStart
  | promotionAge (acc : Nat)
  | hardAge (acc : Nat)
  | write (acc : Nat)
  | read (acc : Nat)
  | flush (acc : Nat)
  | deallocate (acc : Nat)
  | verify (acc : Nat)
  | writeZeroes (acc : Nat)
  | peerCopyOut (acc : Nat)
  | refresh (acc : Nat)
  | identify (acc : Nat)
  | getLog (acc : Nat)
  | setFeature (acc : Nat)
  | getFeature (acc : Nat)
  | queueCreate (acc : Nat)
  | queueDelete (acc : Nat)
  | queueRestartResume (acc : Nat)
  | queueRestartDiscard (acc : Nat)
  | abort (acc : Nat)
  | firmwareDownloadPiece (acc : Nat)
  | firmwareDownloadCommit (acc : Nat) (readBackOk : Bool)
  | firmwareActivateBolt (acc : Nat)
  | firmwareActivateWarden (acc : Nat)
  | stop (acc : Nat)
  | eventLogClear (acc : Nat)
  | namespaceCreate (acc : Nat) (blob : BitVec 1536)
  | namespaceDelete (acc : Nat)
  | generate (acc : Nat)
  | wrapIn (acc : Nat) (blob : BitVec 1536)
  | enrolOperatorKey (acc : Nat) (blob : BitVec 2560)
  | revokeOperatorKey (acc : Nat) (blob : BitVec 2560)
  | enrolMaintenanceKey (acc : Nat) (blob : BitVec 2560)
  | setWallTime (acc : Nat)
  | seal (acc : Nat)
  | domainJoin (acc : Nat)
  | domainLeave (acc : Nat)
  | bufferReservation (acc : Nat)
  | slotWrite (port bar off len : Nat) (be poisoned : Bool) (lines : List Line)
  | dataTimeout (port gid : Nat)
  | slotQuarantineExpiry (port bar slot : Nat)
  | pullReadRequest (acc : Nat)
  | completionTlp (port tag : Nat) (status : CplStatus) (poisoned malformed : Bool) (data : List Dword)
  | completionTimeout (port tag : Nat)
  | tagQuarantineExpiry (port tag : Nat)
  | commitPoint (acc : Nat)
  | ringPacketPost (port queue : Nat)
  | coalesceTimeout (port queue : Nat)
  | adminQueueEnable (port : Nat) (value : Dword)
  | adminQueueDisable (port : Nat) (value : Dword)
  | registerWrite (who : Who) (addr : Nat) (wide : Bool) (value : Qword)
  | configurationRequest (port : Nat) (isWrite : Bool) (reg : CfgReg) (value : Qword)
  | unsupportedRequest (port : Nat)
  | busMasterEnableCleared (port : Nat)
  | busMasterEnableSet (port : Nat)
  | flr (port : Nat)
  | flrComplete (port : Nat)
  | msixUnmask (port vector : Nat)
  | linkStateChange (port state speed width : Nat) (flit : Bool)
  | peerWriteRequest (port window off len : Nat) (be : Bool) (pkt : Packet)
  | peerTransferReady (port window : Nat) (pkt : Rec256)
  | peerCompletion (port window : Nat) (pkt : Rec256)
  | peerWaitTimeout (acc : Nat)
  | powerOn (straps : BitVec 8)
  | wakeN (us : Nat)
  | pwrGood
  | clkReady
  | memReady
  | sequencingFault
  | perstNAssert (us : Nat)
  | perstNRelease
  | vddAonLoss
  | pwrFailNAssert (ns : Nat)
  | pwrFailNRelease
  | pwrFailResume
  | configurationLoad (nor : NorInfo) (image : List Byte)
  | imageAuthentication (katFail marchFail : Option Nat) (entropyOk : Bool)
  | ddr5Training (failed : Option Nat) (readEye writeEye : Nat)
  | flashBringUp (channel : Nat) (failedLuns : BitVec 32) (trained : Bool) (readEye writeEye : Nat)
  | wakeAuditMeasurement (results : List Measure)
  | checkpointLoad (bad : Unreadable)
  | replay
  | verdictPhase (remeasured : List Measure)
  | bankSampling (bank : Nat) (failed : List Nat)
  | format (badWitness : List Nat)
  | portsRunning
  | haspReadyAnswer (unit : Nat) (badWitness : List Nat) (recordOk : Bool)
  | haspPrepareTimeout
  | haspCommitOverrun
  | pwCmdReleaseFphy
  | pwCmdBeginPrepare
  | pwCmdRelease
  | pwCmdCommitStep7
  | prepare (reason : Nat)
  | mailboxRelease
  | prepareAnswer (core : Nat) (refuse : Bool)
  | haltNotice
  | imageReady (core : Nat) (revision : BitVec 64)
  | eventRequest (core : Nat) (code : Byte) (p0 p1 p2 : Dword)
  | activationPrepareTimeout
  | haltWaitExpiry
  | imageReadyTimeout
  | activationHoldEnd
  | timebaseTick
  | optTick
  | witnessInterval (channel lun valley : Nat)
  | checkpointTrigger
  | checkpointDurable (seq place : Nat)
  | idlePad (stream : Nat)
  | progAge (set : Nat)
  | nextOperation (channel lun : Nat)
  | tokenClaim (op : Nat)
  | tailReturn
  | rampDelay
  | rampTick
  | lunReady (channel lun : Nat) (pass footerOk : Bool)
  | opLimitExpiry (channel lun op : Nat)
  | eraseSuspend (channel lun : Nat) (complete : Bool)
  | eraseResume (channel lun : Nat)
  | zqShortCalibration (channel : Nat)
  | decodeResult (req : Nat) (found : Check) (unsat : Nat)
  | ladderFallback (req : Nat)
  | ladderStep
  | witnessSweep (counts : List Dword)
  | referenceQuery
  | sample (place limit : Nat)
  | lookup
  | validateSet
  | hold
  | release
  | writeBack
  | checkpoint
  | lunQuery
  | rawRead (wrong : List Line)
  | retireBlock
  | stripeQuery
  | reclaim
  | refreshLun
  | markSuspect
  | descriptorDone (unit index : Nat)
  | fallbackVictim
  | reclaimUnitOffer
  | reclaimUnitDone (unit : Nat)
  | victimErase (stripe : Nat)
  | patrolScrub
  | dramTemperaturePoll (channel : Nat) (hot : Bool)
  | temperatureUpdate (sensor : Nat) (reading : BitVec 16)
  | thermalTrip (sensor : Nat)
  | temperatureBin
  | tcMonitorUpdate
  | faultMessage (msg : BitVec 78)
  | privilegedFault (source kind : Nat) (addr : BitVec 48)
  | ftAck (who : Who) (value : Dword)
  | ftInject (who : Who) (value : Dword)
  | wardenWatchdogKick (value : Dword)
  | wardenWatchdogExpiry
  | boltWatchdogKick (who : Who) (core : Nat) (value : Dword)
  | boltWatchdogExpiry (core : Nat)
  | machineTimerInterrupt (core : Nat)
  | icClaim (who : Who) (target : Nat)
  | icComplete (who : Who) (target source : Nat)
  | icRaise (who : Who) (source : Nat)
  | icRoute (who : Who) (source : Nat) (value : Dword)
  | internalAccess (who : Who) (kind : AccessKind) (addr size : Nat) (data : Line) (meets : Option (Bool × Dword))
  | cxKeyLoad (slot : Nat)
  | cxKeyClear (slot : Nat)
  | keyBusyCleared (slot : Nat)
  | codeflashScan (calibrationOk : Bool)
  | programLine (off : Nat) (words : List Dword)
  | sectorErase (off : Nat)
  | cfEraseSuspend (off : Nat)
  | cfEraseResume (off : Nat)
  | cfReset (off : Nat)
  | cfSequenceTimeout
  | cfOperationDone (us : Nat)
  | spClear (value : Dword)
  | march (value : Dword)
  | marchDone (failLine : Option Nat)
  | rawWrite
  | rawReadTest
  | dcTestMask (value : Dword)
  | trngDataRead
  | eventRecord (code source cls : Nat) (p0 p1 p2 : Dword)
  | evFlush
  | healthSnapshot
  | logClear (origin : Nat)
  | id
  | fault
  | log
  | clear
  | chal
  | resp (sig : BitVec 768)
  | pass (text : List Byte)
  | lock
  | mtLock (value : Dword)
  | nonceExpiry
  | unlockDelayExpiry
  | bypass
  | idcode
  | samplePreload (preload : BitVec 3169)
  | extest
  | debugAccess (op : DebugOp)
  | dataTransferEnd (channel lun : Nat)
  | barRead (port bar off len : Nat) (allEnables : Bool)
  | unmappedBarWrite (port bar off : Nat) (form : WriteForm)
  | unknownCommand (line : List Byte)
  | tapReset
deriving DecidableEq, Repr

end Sys2Proof
end

