-- ==== Sys2Proof/Config.lean ====
section
/-! DEFINITION. What an implementation fixes, and the free values: constants without a body, so that nothing can be proved
of what they give. Each is named in the assumption log (6, 8, 9). -/

namespace Sys2Proof.Config

/-! ### Free values drawn by number (log 6). The number is State.freeCtr, which the step that draws advances. -/

/-- A free choice between two outcomes the spec allows (R32, R495). -/
opaque freeBool : Nat → Bool
/-- A free word. -/
opaque freeWord : Nat → BitVec 64
/-- A free 256-byte line: what a torn or half-programmed code-flash line, or an on-chip line without its valid bit, holds
(R366, R383, R384). -/
opaque freeLine : Nat → BitVec 2048
/-- DRBG output (R462). -/
opaque drbg : Nat → BitVec 512

/-- The subchannel that the fixed hash of R403 gives a line of DRAM (modulo 12). -/
opaque dramSubchannel : Nat → Nat

/-- The granules that namespaces may hold in total, for a count of raw bytes (log 24). -/
opaque userGranules : Nat → Nat

/-! ### Fuses (R449) -/

/-- The fused device_id (R449). -/
opaque deviceId : BitVec 64
/-- The fused serial, 16 ASCII bytes (R142). -/
opaque serial : BitVec 128
/-- PCIe Revision ID, from fuses (R312). -/
opaque revisionId : BitVec 8
/-- SHA-384 of the vendor's public key (R449). -/
opaque vendorKeyHash : BitVec 384
/-- The public half of the device agreement key, derived from the device secret (R449). -/
opaque agreementKey : BitVec 768

/-! ### Algorithms that published standards define, as free functions of their inputs (log 8) -/

/-- SHA-384 over a byte string (R450). -/
opaque sha384 : List (BitVec 8) → BitVec 384
/-- ECDSA P-384 verification of a digest under a public key (R451, R458, R466). -/
opaque ecdsaVerify : (key : BitVec 768) → (digest : BitVec 384) → (sig : BitVec 768) → Bool
/-- Whether 96 bytes are a point of P-384 (R458, R459, R478). -/
opaque isPoint : BitVec 768 → Bool
/-- The unwrap of a host-wrapped namespace key: ECDH, HKDF and AES-256-KW (R459); none where the integrity check fails. -/
opaque unwrapHostKey : (ephemeral : BitVec 768) → (nsid : Nat) → (wrapped : BitVec 576) → Option (BitVec 512)
/-- AES-256-KW of a namespace key under the storage key (R454). -/
opaque wrapStorage : BitVec 512 → BitVec 576
/-- Its unwrap at a wake; none where it fails (R456). -/
opaque unwrapStorage : BitVec 576 → Option (BitVec 512)
/-- PBKDF2-HMAC-SHA-384 of a password text (R467). -/
opaque pbkdf2 : (text : List (BitVec 8)) → (salt : BitVec 128) → (iterations : Nat) → BitVec 384
/-- AES-256 of one 16-byte block under a 256-bit key, and its inverse (R256). -/
opaque aesEncrypt : BitVec 256 → BitVec 128 → BitVec 128
opaque aesDecrypt : BitVec 256 → BitVec 128 → BitVec 128
/-- The parity of a word whose only 1 is bit i, for the LDPC code of a cell mode: a row of its generator (R224). -/
opaque ldpcRow : (bits i : Nat) → BitVec 5888

/-! ### Fields of published standards that the spec does not give (log 16, 20) -/

/-- What a PCIe configuration register of which the spec gives no field reads as after reset, and what a host's write leaves in it,
by its offset, the old value and the value written (R312, R313). -/
opaque pcieStandard : Nat → BitVec 32
opaque pcieWrite : Nat → BitVec 32 → BitVec 32 → BitVec 32
/-- What the TAP shifts out where IEEE 1149.1 or the board decides it (R463): the sampled balls. -/
opaque boundarySample : Nat → BitVec 3169
/-- Word k of Warden's boot ROM (R40, R343). -/
opaque bootRom : Nat → BitVec 32
/-- The die's calibration row (R363), word k. -/
opaque calibration : Nat → BitVec 32

end Sys2Proof.Config
end

