-- ==== Sys2Proof/Machine/State.lean ====
section
/-! DEFINITION. The state of the FZ4096 block as plain data. Registers live in one table by internal address (`regs`, whose
reset values Machine/Regs.lean gives); everything the registers do not hold has a field of its own. Arrays are `Tbl`s. -/

namespace Sys2Proof.Machine

/-! ### Why a step can stop -/

/-- The reasons the machine stops with a fault. -/
inductive Fault where
  /-- Raised by execPowerOn when STRAP4 to STRAP7 are not all 0: such a board is outside specification and the device's
  behaviour there is not defined (R490, R2). Safe: the model stops where the part may do anything. -/
  | outsideSpecification
deriving DecidableEq, Repr

/-- The reasons a command is refused. -/
inductive Refusal where
  /-- Raised by exec for a command that has no meaning yet. Safe: nothing is claimed of it. -/
  | notModelled (mnemonic : String)
deriving DecidableEq, Repr

/-! ### Data units -/

/-- What a 4 KiB block of a granule version holds in the write buffer (R161, R175). -/
inductive BlockData where
  | data (b : Block)
  | zero
  | poisoned
deriving DecidableEq, Repr

/-- What a user block's codeword holds on flash: ciphertext, named by the key it was written under and its plain content
(R22, R225; log 9), a zero block or a poisoned block. -/
inductive Stored where
  | cipher (key : BitVec 512) (plain : Block)
  | zero
  | poisoned
deriving DecidableEq, Repr

/-! ### Host ports (10, 02) -/

/-- QE_PORT_STATUS.state (R82, R124). -/
inductive PortState where
  | booting | holding | running | deadbolt
deriving DecidableEq, Repr

/-- One MSI-X table entry (R313, R336). -/
structure Msix where
  addr : Qword
  data : Dword
  masked : Bool
deriving DecidableEq, Repr

/-- What AER has recorded at a port (R320, R330, R331, R337). -/
inductive AerError where
  | poisonedTlp | completionTimeout | unexpectedCompletion | malformedTlp | uncorrectableInternal | unsupportedRequest
deriving DecidableEq, Repr

/-- A notice waiting to be posted (R78, R80). -/
structure Notice where
  code : Nat
  p0 : Dword
  p1 : Dword
  p2 : Dword
  opt : BitVec 48
deriving DecidableEq, Repr

/-- An Error Log entry (R113). -/
structure ErrEntry where
  errorSeq : Nat
  queue : Nat
  port : Nat
  tagValid : Bool
  lba : Option Qword
  opcode : Byte
  tag : BitVec 16
  status : BitVec 16
  source : Nat
  held : Nat
  slba : Qword
  nlb : Dword
  detail : Dword
  opt : BitVec 48
  dropped : Nat
  acceptance : Nat
deriving DecidableEq, Repr

/-- A host port: what its endpoint and QE keep for it outside the register table. -/
structure Port where
  state : PortState := .booting
  stray : Nat := 0
  mse : Bool := false
  bme : Bool := false
  mps : Nat := 128
  mrrs : Nat := 512
  roEnable : Bool := true
  idoEnable : Bool := false
  ctoValue : Nat := 0
  ctoDisable : Bool := false
  tag10 : Bool := false
  tag14 : Bool := false
  aspm : Nat := 0
  /-- Registers of the standards' structures that the host has written, by offset (R312, R313). -/
  standard : Tbl Dword := []
  d3hot : Bool := false
  bar0 : Qword := 0
  bar2 : Qword := 0
  bar4 : Qword := 0
  flrStart : Option Nat := none
  msixEnable : Bool := false
  msixFnMask : Bool := false
  msixTable : Tbl Msix := []
  msixPending : BitVec 513 := 0
  errSeq : Nat := 1
  errLog : List ErrEntry := []
  notices : List Notice := []
  lost : Nat := 0
  noticeMask : BitVec 8 := 0
  aer : List AerError := []
  deadSignalled : Bool := false
deriving DecidableEq, Repr

/-! ### Queues and commands (02, 03) -/

/-- A queue's class (R90). -/
inductive QClass where
  | urgent | w0 | w1 | w2 | w3
deriving DecidableEq, Repr

/-- QE_Q_STATUS.state of a queue that exists (R62's table in 02). -/
inductive QState where
  | active | frozen | deleting
deriving DecidableEq, Repr

/-- A ring packet waiting in QE: its 32 bytes with phase 0, the push grant whose data timer its posting starts (R76), the
command its posting completes (R85), and whether its posting signals the vector at once (R63). -/
structure RingPkt where
  bits : Rec256
  grant : Option Nat := none
  /-- The command whose grant that is. -/
  owner : Nat := 0
  cmd : Option Nat := none
  atOnce : Bool := false
  /-- Commands whose Completion packets go first (R115, R117). -/
  after : List Nat := []
  /-- A peer reply's destination: the source's BAR4 (R341). -/
  dest : Option Qword := none
deriving DecidableEq, Repr

/-- A queue pair (R46 to R63). -/
structure Queue where
  state : QState := .active
  depth : Nat
  ring : Nat
  base : Qword
  cls : QClass
  relaxed : Bool
  pcheck : Bool
  vector : Nat
  irqCount : Nat
  irqTime : Nat
  posted : Nat := 0
  released : Nat := 0
  waiting : List RingPkt := []
  dropped : Nat := 0
  sinceFreeze : Nat := 0
  newestErr : Option Nat := none
  unsignalled : Nat := 0
  oldest : Nat := 0
  deleter : Option Nat := none
deriving DecidableEq, Repr

/-- Where a command stands (R84 to R86): in the FIFO; started, its own row not yet run; at work; past its commit point;
or past it with a completion that still waits (FUA, R131). -/
inductive Phase where
  | held | started | running | durable | committed
deriving DecidableEq, Repr

/-- A command's standing by age (R95). -/
inductive Rank where
  | normal | urgent | master
deriving DecidableEq, Repr

/-- How far one granule of a command's range has come. -/
inductive PartState where
  /-- Write: no buffer space reserved yet. Read: not yet taken (R108). -/
  | waiting
  /-- Write: reserved, data arriving. Read: flash reads out. -/
  | busy
  /-- Write: every line arrived and in the DRAM buffer. Read: every block in read staging. -/
  | ready
deriving DecidableEq, Repr

/-- The part of one granule that a command covers (R64). -/
structure Part where
  granule : Nat
  first : Nat
  count : Nat
  st : PartState := .waiting
  reserved : Bool := false
  grant : Option Nat := none
  /-- Read: the blocks taken so far, one entry per block of the part. -/
  blocks : List (Option BlockData) := []
  /-- The first block, counted in the part, that failed beyond L4 or whose map entry is lost. -/
  fail : Option (Nat × BitVec 16) := none
  /-- The highest ladder tier a block of the part needed. -/
  tier : Nat := 0
deriving DecidableEq, Repr

/-- A fixed completion (R62, R86). -/
structure Done where
  status : BitVec 16
  lba : Option Qword := none
  result : Qword := 0
  result2 : Dword := 0
deriving DecidableEq, Repr

/-- The host memory a command's data moves through: extents in list order, and the next gather segment (R73, R74). -/
structure Fetch where
  need : Nat
  extents : List (Nat × Nat) := []
  seg : Option (Nat × Nat) := none
  segs : Nat := 0
  listed : Nat := 0
  asked : Bool := false
  /-- Data words: a firmware piece that arrives, or a log snapshot that goes out. -/
  buf : Tbl Dword := []
  /-- Words of the gather segment that arrives. -/
  segBuf : Tbl Dword := []
  /-- Bytes of the transfer that read requests have been issued for, or that have been written. -/
  issued : Nat := 0
deriving DecidableEq, Repr

/-- The source of a peer write (R139, R341). -/
structure PeerSrc where
  node : Nat
  request : BitVec 16
  bar4 : Qword
deriving DecidableEq, Repr

/-- A Peer Copy Out at its current granule (R138). -/
inductive PeerStep where
  | idle
  | waitReady (request : BitVec 16) (start : Nat)
  /-- Granted a slot; the data goes out when the port may issue. -/
  | granted (request : BitVec 16) (slot offset : Nat)
  | waitDone (request : BitVec 16) (start : Nat)
deriving DecidableEq, Repr

/-- An outstanding command (R48). -/
structure Command where
  acc : Nat
  port : Nat
  queue : Nat
  pkt : Packet
  phase : Phase := .held
  /-- Age origin in ticks (R95). -/
  origin : Nat
  /-- Its place in the cross-queue order (R84, R110). -/
  order : Nat
  startNo : Nat := 0
  rank : Rank := .normal
  /-- Set while it uses a reserved start-window entry (R87). -/
  reservedEntry : Bool := false
  parts : List Part := []
  fetch : Option Fetch := none
  /-- The buffer versions whose durability it waits for (R105, R131, R134, R155, R157). -/
  cover : List Nat := []
  padded : Nat := 0
  closed : Nat := 0
  done : Option Done := none
  peer : Option PeerSrc := none
  peerStep : PeerStep := .idle
  peerCount : Nat := 0
  /-- The checkpoint sequence, key number, event sequence or slot an admin command waits on or chose. -/
  waitOn : Nat := 0
  waitOn2 : Nat := 0
  /-- The key a Key Manage or Namespace Manage will put into its slot (R459, R460). -/
  newKey : Option (BitVec 512) := none
  /-- Block ranges of it that a later-accepted write-class command has already committed (R108). -/
  overtaken : List (Nat × Nat) := []
  /-- The next acceptance number as it started: a Queue Restart acts on what was accepted before it (R115). -/
  seen : Nat := 0
  /-- A Queue Restart's Discarded commands whose completions are not all posted; its queue then becomes active (R115). -/
  discards : Option (List Nat) := none
  /-- Its place in commit order, 0 before its commit point (R124). -/
  commitNo : Nat := 0
deriving DecidableEq, Repr

/-- A live grant (R64 to R71). bar is 2 or 4 for a push grant's slot, 0 for an internal pull grant. -/
structure Grant where
  gid : Nat
  port : Nat
  bar : Nat
  slot : Nat
  acc : Nat
  granule : Nat
  first : Nat
  count : Nat
  pos : Nat
  data : GranuleBits := 0
  /-- One bit for each 4-byte word of the range that has arrived. -/
  have_ : BitVec 16384 := 0
  timer : Option Nat := none
  limitMs : Nat
  complete : Bool := false
deriving DecidableEq, Repr

/-- A quarantined ingress slot (R70). -/
structure SlotQuarantine where
  port : Nat
  bar : Nat
  slot : Nat
  start : Nat
deriving DecidableEq, Repr

/-- An outstanding non-posted request (R325 to R330). -/
structure Request where
  port : Nat
  tag : Nat
  acc : Nat
  grant : Option Nat
  pos : Nat
  addr : Nat
  len : Nat
  got : Nat := 0
  start : Nat
  tries : Nat := 0
  /-- It fetches a gather segment. -/
  seg : Bool := false
deriving DecidableEq, Repr

/-- A quarantined tag (R330, R335). limitUs is its length; flr marks one that an FLR quarantined. -/
structure TagQuarantine where
  port : Nat
  tag : Nat
  start : Nat
  limitUs : Nat
  flr : Bool
deriving DecidableEq, Repr

/-- The deficits and turn positions of the three arbitration levels (R91 to R93). Keys: port × 8 + class × ... as
Machine/Arbiter.lean computes them. -/
structure Arbiter where
  queueDeficit : Tbl Nat := []
  queueTurn : Tbl Nat := []
  classDeficit : Tbl Nat := []
  classTurn : Tbl Nat := []
  portDeficit : Tbl Nat := []
  portTurn : Nat := 0
deriving DecidableEq, Repr

/-- QE (R46 to R125). Queues by port × 1024 + number; 512 is the port's peer queue. -/
structure Qe where
  nextAcc : Nat := 1
  nextOrder : Nat := 1
  nextStart : Nat := 1
  nextCommit : Nat := 1
  queues : Tbl Queue := []
  cmds : List Command := []
  grants : List Grant := []
  slotQ : List SlotQuarantine := []
  reqs : List Request := []
  /-- Timed-out requests that wait to be issued again under a new tag (R72). -/
  reissue : List Request := []
  tagQ : List TagQuarantine := []
  arb : Arbiter := {}
  /-- Bolt activation hold (R123): the tick it started. -/
  hold : Option Nat := none
  /-- R151: packets dropped while Hasp is past QE's ready answer. -/
  haspDrop : Bool := false
  /-- R124: Deadbolt has been entered. -/
  dead : Bool := false
deriving DecidableEq, Repr

/-! ### The write buffer and the map (05) -/

/-- The open version of a granule: for each of its 16 blocks, the writer's place in the order and its acceptance number,
and the data (R170). placed: a slot of its stream's unsealed set is its own. leadAcc and leadStart are its earliest-started
writer's acceptance and start numbers, which its pre-reads rank with (R210). -/
structure OpenVer where
  key : Nat
  vid : Nat
  blocks : List (Option (Nat × Nat × BlockData))
  stream : Nat
  leadAcc : Nat := 0
  leadStart : Nat := 0
  placed : Bool := false
  /-- The blocks that zero_block codewords fill (R174): sub_granule_valid. -/
  sub : Bool := false
deriving DecidableEq, Repr

/-- A sealed version: it waits to be programmed and recorded (R170 to R172). -/
structure SealedVer where
  key : Nat
  vid : Nat
  stamp : BitVec 16
  blocks : List BlockData
  sub : Bool
  set : Nat
deriving DecidableEq, Repr

/-- A version that is not yet durable in the sense of R131: its set and whether MP has recorded it. -/
structure Undurable where
  vid : Nat
  key : Nat
  set : Nat := 0
  stripe : Nat := 0
  recorded : Bool := false
  /-- A trimmed or zero-filled mark: durable once its map page is written back. -/
  trim : Bool := false
  /-- A recorded copy that a Refresh waits for: its map entry must be committed, and no more (R141). -/
  copy : Bool := false
deriving DecidableEq, Repr

/-- BM's write buffer (R24, R170). used counts 64 KiB buffer granules reserved. -/
structure Bm where
  gib : Nat := 0
  used : Nat := 0
  nextVid : Nat := 1
  opens : List OpenVer := []
  sealeds : List SealedVer := []
  undurable : List Undurable := []
  stamps : Tbl (BitVec 16) := []
  /-- Whole-granule marks that wait for their map page: true zero_filled, with the stamp taken (R173). -/
  marks : Tbl (Bool × BitVec 16) := []
  pressured : Bool := false
deriving DecidableEq, Repr

/-- A namespace (R142, R153, R167, R454). -/
structure Namespace where
  size : Nat
  epoch : BitVec 8
  keySource : Nat
  keyChanges : Nat
  keyOpt : BitVec 48
  /-- Its extents of consecutive directory entries: first entry and count (R167, R185). -/
  extents : List (Nat × Nat) := []
deriving DecidableEq, Repr

/-- A directory entry (R166). A page without one is absent (R167). -/
structure DirEntry where
  addrA : Nat
  addrB : Nat
  lost : Bool
  pageSeq : Nat
deriving DecidableEq, Repr

/-- An entry of a checkpoint's replay list (R185). -/
structure ReplayEntry where
  stripe : Nat
  stream : Nat
  from_ : Nat
deriving DecidableEq, Repr

/-- RC's states of a block group (R263). -/
inductive BgState where
  | free | erased | open_ | closed | victim | retired | witness | system
deriving DecidableEq, Repr

/-- A block table entry (R263). -/
structure BlockEntry where
  erases : Nat := 0
  driftStamp : Nat := 0
  state : BgState := .free
  suspect : Bool := false
  stream : Nat := 15
  valid : Nat := 0
  l3Hits : Nat := 0
  pinned : Nat := 0
  born : Nat := 0
deriving DecidableEq, Repr

/-- A checkpoint record (R185, R282, R304): the root table names the root pages, and through them the directory. -/
structure CkptRec where
  seq : Nat
  stop : Bool
  bits : Nat
  wall : Option Nat
  cutSeq : Nat
  opt : BitVec 48
  pcc : Nat
  roots : Tbl DirEntry
  ns : Tbl Namespace
  epochs : Tbl (BitVec 8)
  replay : List ReplayEntry
  sealed : Bool
  failed : List Nat
  rebuilt : List Nat
  /-- The directory entries of the block-table pages: first and count. -/
  tableExtent : Nat × Nat
  q : Nat
  spareFormat : Nat
  sealedOpt : BitVec 48
  moved : Nat
  /-- The rest of a stop record's body (R304): the Stop's port, and Prepare. -/
  witnessFailed : List Nat
  prepareMs : Nat
  stopPort : Option Nat := none
  prepareOpt : BitVec 48 := 0
  prepareCkpt : Nat := 0
  witnessOk : Nat := 0
  maxTemp : BitVec 8 := 0
  /-- The ring word-line sets that hold a copy of it. -/
  places : List Nat := []
deriving DecidableEq, Repr

/-- A checkpoint that is being written (R183). -/
structure CkptRun where
  seq : Nat
  cutSeq : Nat
  replay : List ReplayEntry
  stop : Bool := false
  /-- Pages whose write-back step 2 waits for. -/
  pages : List Nat := []
  /-- OPT and wall time as of the cut (R185). -/
  opt : BitVec 48 := 0
  wall : Option Nat := none
  /-- Step 4 has begun, and the program sequences of the ring sets that still carry the record to flash. -/
  writing : Bool := false
  copies : List Nat := []
deriving DecidableEq, Repr

/-- A slot of a word-line set with its footer entry (R181): kind 0 filler, 1 host version, 2 reclaim copy. -/
structure SlotEntry where
  kind : Nat := 0
  key : Nat := 0
  vid : Nat := 0
  stamp : BitVec 16 := 0
  epoch : BitVec 8 := 0
  sub : Bool := false
  source : Nat := 0
  blocks : List Stored := []
deriving DecidableEq, Repr

/-- MP (R160 to R192). Map entries by nsid × 2^36 + granule; pages by nsid × 2^27 + page index, where nsid 30 names the
block-table pages, 0 the directory pages and 31 the root pages (R181, R264). -/
structure Mp where
  map : Tbl Qword := []
  dir : Tbl DirEntry := []
  /-- The root pages' entries by number of the directory page, and the root table by number of the root page (R165, R185). -/
  roots : Tbl DirEntry := []
  rootTable : Tbl DirEntry := []
  /-- Slots of verified sets that wait for their map page to be recorded: set, slot and entry (R168, R172). -/
  records : List (Nat × Nat × SlotEntry) := []
  /-- Map pages of which this wake's replay can read neither replica (R168), as CHECKPOINT_LOAD has found. -/
  unread : List Nat := []
  cached : List Nat := []
  dirty : List Nat := []
  ns : Tbl Namespace := []
  epochs : Tbl (BitVec 8) := []
  ckpt : Option CkptRun := none
  again : Bool := false
  cutTick : Nat := 0
  prevCut : Nat := 0
  hostBlocks : Nat := 0
  mediaBytes : Nat := 0
deriving DecidableEq, Repr

/-! ### Word-line sets, stripes, flash operations (05, 06, 07) -/

/-- A witness line on flash (R243). stamp in 1/16 hour; which is its block group; ok: its footer decodes. -/
structure Witness where
  seq : Nat
  reason : Nat
  stamp : Nat
  opt : BitVec 48
  pcc : Nat
  wear : Nat
  wl : Nat
  which : Nat
  ok : Bool
  /-- The fresh valley of each threshold (R243). -/
  valley : Tbl Int := []
deriving DecidableEq, Repr

/-- An event record (R436). -/
structure Event where
  code : BitVec 16
  source : Nat
  cls : Nat
  requested : Bool
  seq : Nat
  pcc : Nat
  opt : BitVec 48
  p0 : Dword
  p1 : Dword
  p2 : Dword
deriving DecidableEq, Repr

/-- Health accumulators (R446). -/
structure Health where
  l0 : Nat := 0
  l1 : Nat := 0
  l2 : Nat := 0
  l3 : Nat := 0
  l4 : Nat := 0
  uncorrectable : Nat := 0
  bins : Tbl Nat := []
deriving DecidableEq, Repr

/-- A written copy of a page (R165, R264): its entries that are not those of an empty page, and its write-back count. -/
structure PageCopy where
  page : Nat
  epoch : BitVec 8
  pageSeq : Nat
  progSeq : Nat
  entries : Tbl Qword := []
  /-- The 256 entries of a directory or root page, and of a block-table page. -/
  dirs : Tbl DirEntry := []
  blocks : Tbl BlockEntry := []
  addrA : Nat := 0
  addrB : Nat := 0
deriving DecidableEq, Repr

/-- What a word-line set holds (R180, R233, R243, R441, R446). -/
inductive SetKind where
  | data | map | checkpoint | parity | witness | log | health
deriving DecidableEq, Repr

/-- Where a sealed set stands (R206). -/
inductive SetState where
  | sealed | programming | programmed | verified | failed
deriving DecidableEq, Repr

/-- A sealed word-line set (R178 to R181). place is its pga with slot 0; seq its program sequence number. -/
structure WlSet where
  seq : Nat
  kind : SetKind
  stream : Nat
  place : Nat
  stripe : Nat
  slots : List SlotEntry
  padded : Bool
  /-- A parity set of a row that was closed early (R234). -/
  early : Bool := false
  st : SetState := .sealed
  sealedAt : Nat
  /-- A Flush, FUA write, Stop, Seal or Key Manage waits on it (R210). -/
  needed : Bool := false
  aged : Bool := false
  successor : Nat := 0
  ckptSeq : Nat := 0
  opt : BitVec 48 := 0
  /-- Map pages the set carries, the replica it is (0 A, 1 B), and the program sequence of the set with the other one. -/
  copies : List PageCopy := []
  replica : Nat := 0
  twin : Nat := 0
  /-- The program sequences a parity set covers (R233). -/
  covered : List Nat := []
  /-- The witness line a witness set carries, and the record a checkpoint set carries. -/
  line : Option Witness := none
  record : Option CkptRec := none
  /-- Log records a log set carries, and the snapshot a health set carries. -/
  count : Nat := 0
  snap : Option Health := none
  /-- A log set's records, the clears since format and EV_DROPPED when it was formed (R441); PCC of a health snapshot (R446). -/
  events : List Event := []
  clears : Nat := 0
  dropped : Nat := 0
  pcc : Nat := 0
deriving DecidableEq, Repr

/-- The row a stripe is filling (R232, R234): its word line and the program sequences of its data sets. -/
structure Row where
  wl : Nat
  sets : List Nat := []
  /-- The positions taken (R232). -/
  used : List Nat := []
  /-- The parity set's program sequence once CD has built it. -/
  parity : Option Nat := none
  /-- Its running XOR has been lost, until the members have been read again (R235, R406). -/
  xorLost : Bool := false
deriving DecidableEq, Repr

/-- An open block stripe (R179, R262). -/
structure Stripe where
  id : Nat
  stream : Nat
  members : List Nat
  block : Nat
  row : Row
  successor : Option Nat
  /-- Rows closed whose parity has not verified. -/
  unverified : List Row := []
deriving DecidableEq, Repr

/-- A stream's unsealed word-line set: the versions placed in it and when the last entered (R178). -/
structure OpenSet where
  stream : Nat
  vids : List Nat
  copies : List SlotEntry := []
  last : Nat
  /-- Asked to seal: full, or needed, or idle. -/
  sealing : Bool := false
  needed : Bool := false
deriving DecidableEq, Repr

/-- What a LUN operation is (R204 to R207, R215). -/
inductive OpKind where
  /-- A read of one level of one set, of the planes of a mask, for these codeword requests. -/
  | read (place level planes : Nat) (reqs : List Nat)
  | program (set : Nat)
  | erase (block : Nat)
  | verify (set : Nat)
  /-- A Raw Read of a codeword for the MS descriptor of this index (R223). -/
  | raw (addr desc : Nat)
  /-- ZQ short calibration (R195). -/
  | zq
deriving DecidableEq, Repr

/-- Where an operation stands. -/
inductive OpState where
  /-- Queued on its LUN. -/
  | queued
  /-- Chosen by R210 and waiting for tokens since this tick (R217). -/
  | waiting (since : Nat)
  /-- Set Features before a read whose references the LUN does not hold (R205). -/
  | setting
  /-- Program data crossing the channel. -/
  | loading
  /-- In array operation. -/
  | array
  /-- Erase suspended (R212). -/
  | suspended
  /-- Read data crossing the channel. -/
  | unloading
deriving DecidableEq, Repr

/-- A flash operation (R204 to R217). -/
structure FlashOp where
  id : Nat
  lun : Nat
  kind : OpKind
  st : OpState := .queued
  cost : Nat := 0
  start : Nat := 0
  /-- Array time run before the last suspend, and the suspends counted (R209, R212). -/
  ran : Nat := 0
  suspends : Nat := 0
  /-- The reads to run inside the current suspend that have not run yet (R212). -/
  readsLeft : List Nat := []
  retried : Bool := false
  /-- The references a read is to be made at, by threshold (R205). -/
  refs : Tbl Int := []
  /-- Reset LUN has been issued, or waits for tokens, because the operation overran (R208). -/
  resetting : Bool := false
  /-- KiB of the data transfer still to move, whether one holds its tokens, and whether the transfer has begun (R204, R215). -/
  kib : Nat := 0
  moving : Bool := false
  begun : Bool := false
  /-- The tick since which the next KiB of its transfer has waited for tokens (R215, R217). -/
  held : Option Nat := none
  /-- A footer verify read's outcome (R206). -/
  footer : Bool := false
  /-- The R210 owner: start number and acceptance of the command, 0 for the device's own work. -/
  acc : Nat := 0
  startNo : Nat := 0
deriving DecidableEq, Repr

/-- MS (R193 to R223). -/
structure Ms where
  ops : List FlashOp := []
  nextOp : Nat := 1
  sets : List WlSet := []
  openSets : List OpenSet := []
  stripes : List Stripe := []
  progSeq : Nat := 0
  /-- Tails whose tokens are still held: the tick each began (R215). -/
  tails : List Nat := []
  claims : List Nat := []
  /-- FPHY release tick, and the tick the ramp's delay ended (R219). -/
  fphyAt : Option Nat := none
  rampAt : Option Nat := none
  /-- Successor stripes a replay named, to be erased again before use (R207). -/
  reErase : List Nat := []
  /-- Channels whose ZQ timer started at this tick (R195). -/
  zq : Tbl Nat := []
  /-- Channels on which FC drives WP_N high, and those on which it drives every CE_N high: from the release of the FPHY domains to
  the first operation on them, and from the end of Run (R202, R222). -/
  wpHigh : List Nat := []
  ceHigh : List Nat := []
  /-- The offset each LUN holds for each threshold set by Set Features (R205), and the volume last selected behind each chip
  enable, by channel × 2 + CE (R195). -/
  refs : Tbl (Tbl Int) := []
  volume : Tbl Nat := []
deriving DecidableEq, Repr

/-! ### Codec and crypto (07) -/

/-- Who asked for a codeword (R254). -/
inductive Requester where
  | host (acc granule block : Nat)
  | preRead (vid block : Nat)
  | mapPage (page replica : Nat)
  | reclaim (unit granule block : Nat)
  | member (parent : Nat)
  /-- A codeword of the set that a CD Sample descriptor names, with its highest tier (R260). -/
  | sample (desc limit : Nat)
  /-- Sweeps of a witness line: for a Witness Sweep descriptor (R260), for the interval event of a LUN, and for the verify of a
  line that has been programmed (R244). -/
  | sweep (desc : Nat)
  | interval (lun : Nat)
  | fresh (set : Nat)
  /-- A member read that rebuilds the running XOR of a row of a stripe (R406). -/
  | xorRow (stripe wl : Nat)
deriving DecidableEq, Repr

/-- Where a codeword request stands. -/
inductive ReqState where
  | reading | decoding | waitingStep | rebuilding
deriving DecidableEq, Repr

/-- A codeword request climbing the ladder (R250 to R254). addr is a codeword address (pga × 16 + codeword in slot). -/
structure CwReq where
  id : Nat
  addr : Nat
  who : Requester
  tier : Nat := 0
  reread : Nat := 0
  st : ReqState := .reading
  /-- Members still to decode in an L3 rebuild. -/
  members : Nat := 0
  /-- Its tier is impossible or has lost a member: the next result of it is a failure (R252, R253). -/
  dead : Bool := false
  /-- Reads of its tier still to issue: of the codeword, and of the witness line (R250). -/
  left : Nat := 0
  sweep : Nat := 0
  /-- The level a witness sweep reads (R244, R250, R260), and the valley step the sweep of an interval event finds. -/
  level : Nat := 0
  valley : Nat := 0
  /-- The L0 or L1 read (0, or the retry entry) whose decode ended with the fewest unsatisfied checks, and that count (R250). -/
  best : Nat := 0
  bestUnsat : Option Nat := none
  /-- The centre c4 of an L4: the valleys its sweep found (R250, R253). -/
  centre : Tbl Int := []
  /-- The fallback timer's start, and what an activation hold has taken from it (R251). -/
  timer : Nat := 0
  paused : Nat := 0
  unsat : Nat := 0
  ageBin : Nat := 0
  posted : Bool := false
  /-- OPT when L2 failed (R261). -/
  failOpt : BitVec 48 := 0
  port : Nat := 0
  queue : Nat := 0
  tag : BitVec 16 := 0
  opt : BitVec 48 := 0
  acc : Nat := 0
  startNo : Nat := 0
deriving DecidableEq, Repr

/-- A LUN's drift clock and what this wake measured (R240, R245). D and ages in 1/16 hour. -/
structure Drift where
  d : Nat := 0
  stamp : Nat := 0
  age : Nat := 0
  line : Option Nat := none
  tier : Nat := 2
  measured : Bool := false
  /-- Marked "no witness" or "beyond curve" (R245). -/
  marked : Bool := false
  /-- Milliseconds of OPT not yet turned into 1/16 hours (R240). -/
  rest : Nat := 0
  /-- OPT, in ticks, of the last witness line (R244). -/
  lastWitness : Nat := 0
deriving DecidableEq, Repr

/-- The adjustment an L4 success leaves: the valleys it found for a LUN, level and age bin (R253). -/
structure Adjust where
  lun : Nat
  level : Nat
  bin : Nat
  valleys : Tbl Int
deriving DecidableEq, Repr

/-- CD's own state. -/
structure Cd where
  reqs : List CwReq := []
  nextReq : Nat := 1
  drift : Tbl Drift := []
  table : List Byte := []
  adjust : List Adjust := []
  measureStart : Nat := 0
  toSample : List Nat := []
  refresh : List Nat := []
  /-- Rows whose parity is missing, for RC to copy (R236). -/
  noParity : List (Nat × Nat) := []
deriving DecidableEq, Repr

/-- CX: the keys by slot number, and the key commands that wait, at most one of a slot: whether it loads, and the slot (R257, R258). -/
structure Cx where
  slots : Tbl (BitVec 512) := []
  waiting : List (Bool × Nat) := []
deriving DecidableEq, Repr

/-! ### Reclaim (08) -/

/-- Why a Reclaim unit runs (R268, R275, R277). -/
inductive UnitWhy where
  | reclaim (stripe : Nat) | refreshCommand (acc : Nat) | refreshLun (lun : Nat) | bankRefresh (bank : Nat) | rebuild (lun : Nat)
  | retire (block : Nat) | row (stripe wl : Nat)
deriving DecidableEq, Repr

/-- One granule of a Reclaim unit. -/
structure Copy where
  key : Nat
  pga : Nat
  stamp : BitVec 16
  blocks : List (Option Stored) := []
  /-- In a set of its stream. -/
  placed : Bool := false
  settled : Bool := false
  recorded : Bool := false
  /-- A write-class command has committed the granule since the copy was taken (R272). -/
  stale : Bool := false
deriving DecidableEq, Repr

/-- A Reclaim unit (R268). -/
structure Unit_ where
  id : Nat
  why : UnitWhy
  stripe : Nat
  copies : List Copy
  urgent : Bool
  /-- The pass it belongs to. -/
  pass : Nat := 0
  started : Bool := false
  startNo : Nat := 0
  desc : Option Nat := none
deriving DecidableEq, Repr

/-- Work RC still has to offer in units (R236, R271, R274, R275, R277, R283): the word-line sets whose valid granules are to
be copied, in ascending order, and what has been done. -/
structure Pass where
  id : Nat := 0
  why : UnitWhy
  left : List Nat
  urgent : Bool
  desc : Option Nat := none
  rewritten : Nat := 0
  copied : Nat := 0
deriving DecidableEq, Repr

/-- RC (R262 to R283). Block table by (channel × 32 + lun) × 32768 + block. -/
structure Rc where
  table : Tbl BlockEntry := []
  failed : List Nat := []
  rebuilt : List Nat := []
  q : Nat := 0
  sealedOpt : BitVec 48 := 0
  /-- The checkpoint that records the Sealed state and whose durability posts Notice Sealed (R280). -/
  sealSeq : Option Nat := none
  units : List Unit_ := []
  nextUnit : Nat := 1
  passes : List Pass := []
  nextPass : Nat := 1
  /-- The directory entries of the block-table pages: first and count (R264, R282). -/
  tableExtent : Nat × Nat := (0, 0)
  victims : List Nat := []
  /-- When the free count fell below target with no Reclaim descriptor waiting (R274). -/
  belowSince : Option Nat := none
  /-- Blocks that may be erased once two more checkpoints are durable: (stripe, checkpoint sequence then) (R187). -/
  emptied : List (Nat × Nat) := []
deriving DecidableEq, Repr

/-! ### Descriptor rings, mailbox, cores (11) -/

/-- The units with a command ring (R348). -/
inductive Unit4 where
  | mp | ms | cd | rc
deriving DecidableEq, Repr

/-- A descriptor in progress (R350): its index, the copy of its entry, and its result once known. -/
structure Desc where
  unit : Unit4
  index : Nat
  entry : Line
  /-- Status and result words, once known. -/
  result : Option (Nat × Dword × Dword) := none
  /-- Map pages it waits for, each with the write-back count it must reach (R191). -/
  wait : List (Nat × Nat) := []
  /-- The checkpoint it waits for (R191), or the LUN it waits on. -/
  goal : Nat := 0
  /-- Map pages that must be in the cache before it can be done (R168, R191). -/
  needs : List Nat := []
  /-- What its reads find: a Witness Sweep's counts, or the bits of a Raw Read that the cells read wrong (R223, R260). -/
  counts : List Dword := []
  wrong : List Line := []
  /-- A Sample's highest tier so far, and whether a codeword has failed (R260). -/
  highest : Nat := 0
  failed : Bool := false
deriving DecidableEq, Repr

/-- The rings' next indices and entries in progress (R350). -/
structure Rings where
  mp : Nat := 0
  ms : Nat := 0
  cd : Nat := 0
  rc : Nat := 0
  req : Nat := 0
  /-- Units that have begun taking entries at this wake, and whether CD has posted a record (the status registers). -/
  ran : List Unit4 := []
  reqRan : Bool := false
  /-- Ladder Request records waiting for room in the CD request ring. -/
  reqWait : List Line := []
  desc : List Desc := []
deriving DecidableEq, Repr

/-- A Bolt core (R344 to R346, R359, R464). -/
structure Core where
  run : Bool := false
  halted : Bool := false
  /-- Ticks its watchdog has run since its restart, as of tick dogSince. -/
  dogRan : Nat := 0
  dogSince : Nat := 0
  debug : Bool := false
  timerIrq : Bool := false
  lr : Option Nat := none
  /-- Core registers that a debugger has written while the core is halted (R464). -/
  gpr : Tbl Qword := []
deriving DecidableEq, Repr

/-- The steps of a Bolt activation or restart (R362). -/
inductive ActStep where
  | waitAnswer | sendHalt | haltWait (since : Nat) | waitReady | oldImage (since : Nat)
deriving DecidableEq, Repr

/-- A Bolt activation (acc of its command) or a restart (R359, R362). -/
structure Activation where
  acc : Option Nat
  step : ActStep
  start : Nat
  slot : Nat
  old : Nat
deriving DecidableEq, Repr

/-- Warden, the Bolt cluster and IC state outside the registers. -/
structure Cores where
  bolt : Tbl Core := []
  wdogStart : Nat := 0
  wdogLimit : Nat := 2000
  act : Option Activation := none
  /-- Messages Warden owes the Bolt cores: their type codes, and a Prepare's reason (R353). -/
  toSend : List (Nat × Nat) := []
  seqDown : Nat := 0
  seqUp : Tbl Nat := []
  icPending : BitVec 320 := 0
  /-- Sources in service with the target that claimed them (R355). -/
  service : List (Nat × Nat) := []
  wardenLoop : Bool := false
  wardenHeld : Bool := false
  wardenRunning : Bool := false
  /-- DRBG requests since its last reseed (R462). -/
  drbgReqs : Nat := 0
deriving DecidableEq, Repr

/-! ### On-chip memories and DRAM (13) -/

/-- A line of an on-chip memory whose valid bit is 1 (R384, R392). -/
structure MemLine where
  data : Line
  crc : Dword
  poisoned : Bool := false
deriving DecidableEq, Repr

/-- A DRAM line that is not as it was at power-on: its data, the check symbols stored inverted (R397), poison (R404). -/
structure DramLine where
  data : Line := 0
  bad : BitVec 16 := 0
  poisoned : Bool := false
deriving DecidableEq, Repr

/-- On-chip memory lines by internal address ÷ 64, and DRAM lines likewise. -/
structure Mem where
  lines : Tbl MemLine := []
  dram : Tbl DramLine := []
  march : Option (Nat × Bool) := none
  hotChannels : List Nat := []
  scrubOpt : Nat := 0
  /-- 64-bit register reads whose high word is latched: (requester, register address, high word) (R15). -/
  latch : List (Who × Nat × Dword) := []
deriving DecidableEq, Repr

/-! ### Code flash and configuration (12, 17) -/

/-- A physical sector (R363 to R366): its 256 lines (an unlisted line is erased), whether its seal is present, its count. -/
structure Sector where
  lines : Tbl FlashLine := []
  sealed : Bool := true
  erases : Nat := 0
deriving DecidableEq, Repr

/-- The operation running in the array (R372 to R376). -/
inductive CfOp where
  | none
  | program (sector line : Nat) (data : FlashLine)
  /-- count: the erase count the sector will carry (R366). -/
  | erase (sector count : Nat)
  | mark (sector line : Nat) (data : FlashLine)
deriving DecidableEq, Repr

/-- CF: the array (persistent), the logical-to-physical map, and the command sequence. -/
structure Cf where
  sectors : Tbl Sector := []
  map : Tbl Nat := []
  seq : List (Nat × Dword) := []
  seqTick : Nat := 0
  op : CfOp := .none
  suspended : Bool := false
  /-- The tick of the last resume, and a suspend that waits until the erase has run 1 ms since (R375). -/
  resumedAt : Option Nat := none
  suspendAsked : Bool := false
  /-- A Deadbolt mark that waits for a running program to end (R380). -/
  markWaits : Option FlashLine := none
  /-- Window reads that stall until the array can be read (R376): the requester, whether it fetches, address and size. -/
  stalled : List (Who × Bool × Nat × Nat) := []
deriving DecidableEq, Repr

/-- What the configuration image gives that no register holds (R475). -/
structure Image where
  loaded : Bool := false
  vendorId : Nat := 0
  deviceIdPci : Nat := 0
  subVendor : Nat := 0
  subId : Nat := 0
  bar2Log2 : Nat := 30
  bar4 : Bool := false
  wte : List (BitVec 128) := []
  dataPage : Nat := 0
  rawPage : Nat := 0
  marchMask : BitVec 128 := 0
  maintKey : BitVec 768 := 0
  salt : BitVec 128 := 0
  hash : BitVec 384 := 0
  domain : Option (Qword × Nat) := none
  permit : Option Nat := none
  flashCmds : List Dword := []
  seeds : List (BitVec 128) := []
  /-- The image's values of the ports' queue registers, which an FLR restores (R334): address and value. -/
  queueRegs : List (Nat × Nat) := []
deriving DecidableEq, Repr

/-- The running domain, wall time, peer accept mask and download buffer (R144, R148, R156, R158). -/
structure Host_ where
  domain : Option (Qword × Nat) := none
  wall : Option (Nat × Nat) := none
  /-- The Set Wall Time that gave the value in force. -/
  wallAcc : Nat := 0
  /-- The wall time and prepare_ms of the stop record that this wake loaded (R142, R304). -/
  stopWall : Option Nat := none
  stopPrepare : Nat := 0
  /-- The OPT, PCC and failed witnesses of that stop record (R247, R304). -/
  stopMark : Option (BitVec 48 × Nat × List Nat) := none
  peerAccept : BitVec 16 := 0
  /-- The download buffer in 4 KiB blocks (R148). -/
  download : Tbl Block := []
  /-- Peer copy requests this device has sent: (acc, request, target node). -/
  nextRequest : Nat := 0
deriving DecidableEq, Repr

/-! ### Faults, events, maintenance (14, 15, 16) -/

/-- A capture record (R432). -/
structure Capture where
  valid : Bool := false
  source : Nat := 0
  kind : Nat := 0
  cls : Nat := 0
  injected : Bool := false
  escalated : Bool := false
  sent : Nat := 0
  privileged : Bool := false
  master : Nat := 0
  access : Nat := 0
  addr : BitVec 48 := 0
  opt : BitVec 48 := 0
  pcc : Nat := 0
  followers : Nat := 0
deriving DecidableEq, Repr

/-- FT (R411 to R432). -/
structure Ft where
  corrected : Capture := {}
  contained : Capture := {}
  fatal : Capture := {}
  deadOpt : BitVec 48 := 0
deriving DecidableEq, Repr

/-- A clear that has been granted (R445): who asked (0 port 0, 1 port 1, 2 UART), the command, the records held at its
grant, and its record. The first of the list has taken effect. -/
structure Clear where
  origin : Nat
  acc : Option Nat
  held : Nat
  record : Event
deriving DecidableEq, Repr

/-- EV: the staging ring, clears in grant order, lifetime health (R439 to R447). -/
structure Ev where
  ring : List Event := []
  clears : List Clear := []
  /-- Clears asked for and not yet granted: who asked, and the command. -/
  asked : List (Nat × Option Nat) := []
  health : Health := {}
  lastWrite : Nat := 0
  lastSnapshot : Nat := 0
  binSecond : Nat := 0
  fullNoticed : Bool := false
  snapshotDone : Bool := false
deriving DecidableEq, Repr

/-- The maintenance port and the TAP (R463 to R468). -/
structure Mt where
  unlocked : Bool := false
  mode : Nat := 0
  nonce : Option (BitVec 256 × Nat) := none
  failures : Nat := 0
  attempts : Nat := 0
  /-- Refusal delay: its start tick and length in seconds. -/
  delay : Option (Nat × Nat) := none
  tapInstr : Nat := 1
  boundary : BitVec 3169 := 0
deriving DecidableEq, Repr

/-! ### Power (09) -/

/-- PW_STATE.phase and the states outside Run (R284 to R304, R479). -/
inductive PwPhase where
  | waking | booting | running | preparing | committing | deadbolt | stopped | unpowered | loadFailed
deriving DecidableEq, Repr

/-- A domain's flags in PW_DOMAIN (R288). -/
structure Domain where
  pwrGood : Bool := false
  clkReady : Bool := false
  memReady : Bool := false
  released : Bool := false
deriving DecidableEq, Repr

/-- Hasp (R299 to R302). acc is the Stop command's, if a command began it. -/
structure Hasp where
  acc : Option Nat
  start : Nat
  commitStart : Option Nat := none
  /-- Commit steps done, 0 to 7 (R301). -/
  commitStep : Nat := 0
  stopOpt : BitVec 48 := 0
  stopPcc : Nat := 0
  prepareOpt : BitVec 48 := 0
  prepareMs : Nat := 0
  prepareCkpt : Nat := 0
  maxTemp : BitVec 8 := 0
  /-- A LUN entered Reset LUN handling during Prepare (R221). -/
  resetSeen : Bool := false
  /-- BC's answer through the mailbox: ready or refused (R299 bit 7). -/
  boltAnswer : Option Bool := none
deriving DecidableEq, Repr

/-- PW outside its registers. -/
structure Pw where
  phase : PwPhase := .waking
  /-- 1 to 3 while that step of R288 runs, 4 once logic is released; 0 in an off state, and after a PERST_N reset until
  PERST_N's release begins step 3 again (R290). -/
  wakeStep : Nat := 1
  /-- The flags of domains 1 to 24; AON's own come up with the arrival. -/
  domains : Tbl Domain := [(1, ⟨true, true, true, true⟩)]
  /-- STRAP0 to STRAP7 as the board holds them (R490). -/
  straps : BitVec 8 := 0
  fphy : Bool := false
  perstLow : Bool := true
  pwrFailLow : Bool := false
  failSince : Nat := 0
  highSince : Option Nat := none
  latchPower : Bool := true
  latchWake : Bool := false
  bootStep : Nat := 0
  stepStart : Nat := 0
  /-- The tick of step 4, which the ready time counts from (R292). -/
  step4 : Nat := 0
  cause : Nat := 0
  perstReset : Bool := false
  formatted : Bool := false
  faultN : Bool := false
  thermTrip : Bool := false
  optSub : Nat := 0
  hasp : Option Hasp := none
  /-- The mark found at boot (R294): source, kind, opt, pcc. -/
  mark : Option (Nat × Nat × BitVec 48 × Nat) := none
  detectorArmed : Bool := false
  /-- The tick up to which the board holds WAKE_N low, where it was asserted in Commit (R302). -/
  wakeUntil : Nat := 0
deriving DecidableEq, Repr

/-! ### What persists on the NAND (05, 07, 15) -/

/-- A programmed word-line set on flash: its footer's fields and its slots (R180, R181). -/
structure OnFlash where
  kind : SetKind
  stream : Nat
  seq : Nat
  stripe : Nat
  successor : Nat
  ckptSeq : Nat
  opt : BitVec 48
  slots : List SlotEntry
  covered : List Nat := []
  padded : Bool := false
  early : Bool := false
  /-- The pages of a map set, and the replica it is (R165). -/
  copies : List PageCopy := []
  replica : Nat := 0
  /-- What a log or health set carries (R441, R446). -/
  events : List Event := []
  clears : Nat := 0
  dropped : Nat := 0
  snap : Option Health := none
  pcc : Nat := 0
deriving DecidableEq, Repr

/-- What the flash parts hold (log 10). -/
structure Nand where
  formatted : Bool := false
  bits : Nat := 0
  slots : Nat := 0
  /-- The channels of checkpoint rings A and B (R184). -/
  ringA : Nat := 0
  ringB : Nat := 64
  /-- The channels of replicas A and B of the event log, as the newest log and health footers give them (R440). -/
  evA : Nat := 0
  evB : Nat := 64
  recs : List CkptRec := []
  sets : Tbl OnFlash := []
  pages : List PageCopy := []
  witness : Tbl (List Witness) := []
  log : List Event := []
  logDropped : Nat := 0
  /-- The sequence after the last record of the newest log footer (R441). -/
  logSeq : Nat := 0
  /-- The current half, and the next unused word-line set of it on replicas A and B (R440, R441). -/
  logHalf : Bool := false
  logA : Nat := 0
  logB : Nat := 0
  /-- The next word-line set of the health ring on replicas A and B (R446). -/
  healthA : Nat := 0
  healthB : Nat := 0
  logClears : Nat := 0
  health : Health := {}
  /-- The program sequences of the sets that were being programmed when power was last cut (R189). -/
  cut : List Nat := []
  /-- Places of sets that were found torn, until their block group is erased (R189). -/
  torn : List Nat := []
deriving DecidableEq, Repr

/-! ### Internal address space (R40, R389, R390) -/

/-- What an internal address reaches. -/
inductive Region where
  | rom | window | shared | boltScratch (n : Nat) | wardenScratch | mailbox | registers | dram | nothing
deriving DecidableEq, Repr

/-! ### What the device puts on its interfaces (log 5) -/

/-- The purpose of a memory write TLP (R325's list). -/
inductive WriteWhat where
  | ring (queue : Nat) | readData (acc : Nat) | peerRequest | peerReply | peerData
deriving DecidableEq, Repr

/-- One emission. -/
inductive Emit where
  | memWrite (port : Nat) (addr : Qword) (len : Nat) (data : BitVec 4096) (ro ido : Bool) (what : WriteWhat)
  | memRead (port tag : Nat) (addr : Qword) (len : Nat) (ro ido : Bool)
  | msix (port vector : Nat)
  | cfgReply (port : Nat) (status : CplStatus) (value : Qword)
  | readReply (port : Nat) (status : CplStatus) (bytes : List Byte)
  | requestReply (port : Nat) (status : CplStatus)
  | busReply (who : Who) (ok : Bool) (data : Line)
  | collided (core : Nat)
  /-- FC issues an operation on a LUN with an entry of the flash command table (R476). -/
  | flash (lun entry : Nat) (bytes : Dword)
  /-- FC sets a LUN's read offset of one threshold by Set Features (R205). -/
  | setFeature (lun threshold : Nat) (offset : Int)
  | uart (line : List Byte)
  | tdo (bits : Nat) (value : BitVec 3169)
  | debugReply (value : Qword)
  | mail (who : Who) (kind : Nat)
deriving DecidableEq, Repr

/-- The device: everything the spec gives the block. -/
structure Dev where
  regs : Tbl Qword := []
  pw : Pw := {}
  port0 : Port := {}
  port1 : Port := {}
  qe : Qe := {}
  bm : Bm := {}
  mp : Mp := {}
  ms : Ms := {}
  cd : Cd := {}
  cx : Cx := {}
  rc : Rc := {}
  rings : Rings := {}
  cores : Cores := {}
  mem : Mem := {}
  cf : Cf := {}
  image : Image := {}
  host : Host_ := {}
  ft : Ft := {}
  ev : Ev := {}
  mt : Mt := {}
  nand : Nand := {}
  out : List Emit := []
  freeCtr : Nat := 0
deriving DecidableEq, Repr

/-- The state: the device and the commands that wait, first in first out. -/
structure State where
  dev : Dev := {}
  pending : List Instr := []
deriving DecidableEq, Repr

/-- The machine right after reset: AON has just been released at a power-on arrival (R291), every register holds its reset
value (R14: an unlisted register of `regs` reads as Machine/Regs.lean's reset value), the cause latch holds the power-on
bit the arrival has set, the straps were sampled 0, PERST_N is low, and step 1 of the wake order begins (log 3). -/
def State.reset : State := {}

end Sys2Proof.Machine
end

