-- ==== Sys2Proof/Machine/Operands.lean ====
section
/-! DEFINITION. The fields of the packets, descriptors and records that cross the device's interfaces, and their builders.
Offsets are bit offsets; a field at byte b of the spec's tables lies at bit 8 × b (R8, R9). -/

namespace Sys2Proof.Machine

/-- Bits [lo + n - 1 : lo] of a number. -/
def bitsOf (v lo n : Nat) : Nat := (v >>> lo) % 2 ^ n

/-- A field of a packet or record. -/
def fld {w : Nat} (v : BitVec w) (lo n : Nat) : Nat := bitsOf v.toNat lo n

/-- Fields (offset, width, value) put together into one number. -/
def pack (l : List (Nat × Nat × Nat)) : Nat := l.foldl (fun a f => a + (f.2.2 % 2 ^ f.2.1) <<< f.1) 0

/-- The n low bytes of a number, lowest first. -/
def bytesOf (v n : Nat) : List Nat := (List.range n).map (fun i => bitsOf v (8 * i) 8)

/-- The number whose bytes are given, lowest first. -/
def ofBytes (l : List Nat) : Nat := l.foldr (fun b a => b % 256 + 256 * a) 0

/-- The ASCII bytes of a text as a number. -/
def ascii (t : String) : Nat := ofBytes (t.toList.map Char.toNat)

/-! ### CRC-32C (R51; Castagnoli, reflected) -/

/-- One bit of the CRC. -/
def crcBit (c : Nat) : Nat := if c % 2 = 1 then (c / 2) ^^^ 0x82f63b78 else c / 2

/-- One byte of the CRC. -/
def crcByte (c b : Nat) : Nat :=
  crcBit (crcBit (crcBit (crcBit (crcBit (crcBit (crcBit (crcBit (c ^^^ b))))))))

/-- CRC-32C of a byte string. -/
def crc32c (l : List Nat) : Nat := (l.foldl crcByte 0xffffffff) ^^^ 0xffffffff

/-- CRC-32C of an on-chip line: its 64 bytes, then its line address as six bytes (R386; log 21). -/
def lineCrc (d : Line) (line : Nat) : Dword :=
  BitVec.ofNat 32 (crc32c (bytesOf d.toNat 64 ++ bytesOf (line * 64) 6))

/-! ### The command packet (R54) -/

namespace Pkt
def opcode (p : Packet) : Nat := fld p 0 8
def pull (p : Packet) : Bool := fld p 8 1 = 1
def gather (p : Packet) : Bool := fld p 9 1 = 1
def fua (p : Packet) : Bool := fld p 10 1 = 1
def ordered (p : Packet) : Bool := fld p 11 1 = 1
def hint (p : Packet) : Nat := fld p 12 2
def hintValid (p : Packet) : Bool := fld p 14 1 = 1
def flags (p : Packet) : Nat := fld p 8 8
def tag (p : Packet) : Nat := fld p 16 16
def nsid (p : Packet) : Nat := fld p 32 16
def slba (p : Packet) : Nat := fld p 64 64
def nlb (p : Packet) : Nat := fld p 128 32
def cdwA (p : Packet) : Nat := fld p 160 32
def addr (p : Packet) : Nat := fld p 192 64
def gcount (p : Packet) : Nat := fld p 256 16
/-- n bits of cdw_b from the packet's byte b on (36 to 51). -/
def cdwB (p : Packet) (b n : Nat) : Nat := fld p (8 * b) n
def release (p : Packet) : Nat := fld p 448 16
def check (p : Packet) : Nat := fld p 480 32
/-- Whether bytes 60 to 63 hold the CRC-32C of bytes 0 to 59 (R51). -/
def checkOk (p : Packet) : Bool := crc32c (bytesOf p.toNat 60) = Pkt.check p
end Pkt

/-! ### Ring packets, phase bit 0 (R61, R62, R65, R78, R81) -/

/-- A Completion packet (R62). -/
def completionPkt (tag queue : Nat) (d : Done) : Rec256 :=
  BitVec.ofNat 256 (pack [(0, 8, 1), (8, 1, if d.lba.isSome then 1 else 0), (16, 16, tag), (32, 16, d.status.toNat),
    (48, 16, queue), (64, 64, d.result.toNat), (128, 64, (d.lba.getD 0).toNat), (192, 32, d.result2.toNat)])

/-- A Transfer-Ready packet (R65). -/
def readyPkt (tag gid queue slot offset length position timeoutMs : Nat) : Rec256 :=
  BitVec.ofNat 256 (pack [(0, 8, 2), (16, 16, tag), (32, 16, gid), (48, 16, queue), (64, 20, slot), (96, 16, offset),
    (128, 32, length), (160, 32, position), (192, 32, timeoutMs)])

/-- A Notice packet (R78). -/
def noticePkt (n : Notice) (lost : Nat) : Rec256 :=
  BitVec.ofNat 256 (pack [(0, 8, 3), (8, 8, min lost 255), (16, 16, n.code), (64, 32, n.p0.toNat), (96, 32, n.p1.toNat),
    (128, 32, n.p2.toNat), (160, 48, n.opt.toNat)])

/-- A Freeze packet (R81). -/
def freezePkt (tag : Option Nat) (reason queue dropped held errorSeq : Nat) : Rec256 :=
  BitVec.ofNat 256 (pack [(0, 8, 4), (8, 1, if tag.isSome then 1 else 0), (16, 16, tag.getD 0), (32, 16, reason),
    (48, 16, queue), (64, 16, min dropped 65535), (80, 16, held), (96, 32, errorSeq)])

/-- The type of a ring packet (R61). -/
def ringType (r : Rec256) : Nat := fld r 0 8

/-! ### Records -/

/-- An Error Log entry's 64 bytes (R113). -/
def errEntryBytes (e : ErrEntry) : Nat :=
  pack [(0, 32, e.errorSeq), (32, 16, e.queue), (48, 1, e.port), (49, 1, if e.tagValid then 1 else 0),
    (50, 1, if e.lba.isSome then 1 else 0), (56, 8, e.opcode.toNat), (64, 16, e.tag.toNat), (80, 16, e.status.toNat),
    (96, 10, e.source), (112, 16, e.held), (128, 64, (e.lba.getD 0).toNat), (192, 64, e.slba.toNat),
    (256, 32, e.nlb.toNat), (288, 32, e.detail.toNat), (320, 48, e.opt.toNat), (368, 16, e.dropped), (384, 64, e.acceptance)]

/-- An event record's 32 bytes (R436). -/
def eventBytes (e : Event) : Nat :=
  pack [(0, 16, e.code.toNat), (16, 10, e.source), (32, 2, e.cls), (34, 1, if e.requested then 1 else 0), (40, 24, e.seq),
    (64, 32, e.pcc), (96, 48, e.opt.toNat), (160, 32, e.p0.toNat), (192, 32, e.p1.toNat), (224, 32, e.p2.toNat)]

/-- A capture record's 32 bytes (R432). -/
def captureBytes (c : Capture) : Nat :=
  if c.valid then
    pack [(0, 10, c.source), (10, 6, c.kind), (16, 2, c.cls), (18, 1, 1), (19, 1, if c.injected then 1 else 0),
      (20, 1, if c.escalated then 1 else 0), (21, 2, c.sent), (23, 1, if c.privileged then 1 else 0), (24, 8, c.master),
      (32, 4, c.access), (40, 48, c.addr.toNat), (96, 48, c.opt.toNat), (144, 32, c.pcc), (192, 32, c.followers)]
  else 0

/-! ### The map entry and the physical granule address (R161 to R163) -/

namespace Ent
def pga (e : Qword) : Nat := fld e 0 40
def stamp (e : Qword) : Nat := fld e 40 16
def trimmed (e : Qword) : Bool := fld e 56 1 = 1
def zeroFilled (e : Qword) : Bool := fld e 57 1 = 1
def sub (e : Qword) : Bool := fld e 58 1 = 1
def pinned (e : Qword) : Bool := fld e 59 1 = 1
/-- A lost entry (R163). -/
def lost (e : Qword) : Bool := Ent.pga e = 0xffffffffff && !Ent.trimmed e && !Ent.zeroFilled e
/-- An entry that names a place on flash. -/
def mapped (e : Qword) : Bool := !Ent.trimmed e && !Ent.zeroFilled e && !Ent.lost e
def mk (pga stamp : Nat) (trimmed zero sub pinned : Bool) : Qword :=
  BitVec.ofNat 64 (pack [(0, 40, pga), (40, 16, stamp), (56, 1, if trimmed then 1 else 0), (57, 1, if zero then 1 else 0),
    (58, 1, if sub then 1 else 0), (59, 1, if pinned then 1 else 0)])
/-- What a granule of an absent page reads as (R167). -/
def absent : Qword := Ent.mk 0 0 true false false false
/-- An entry of a page made again after it was lost: R169 gives it no stamp, and it takes 0 (log 91). -/
def lostEntry : Qword := Ent.mk 0xffffffffff 0 false false false false
def withPinned (e : Qword) (b : Bool) : Qword :=
  Ent.mk (Ent.pga e) (Ent.stamp e) (Ent.trimmed e) (Ent.zeroFilled e) (Ent.sub e) b
end Ent

namespace Pga
def channel (a : Nat) : Nat := bitsOf a 33 7
def lun (a : Nat) : Nat := bitsOf a 28 5
/-- channel × 32 + LUN in channel. -/
def dieLun (a : Nat) : Nat := bitsOf a 28 12
def block (a : Nat) : Nat := bitsOf a 13 15
def wl (a : Nat) : Nat := bitsOf a 4 9
def slot (a : Nat) : Nat := bitsOf a 0 4
def mk (lun block wl slot : Nat) : Nat := lun * 2 ^ 28 + block * 2 ^ 13 + wl * 16 + slot
/-- The word-line set of an address: slot 0. -/
def set (a : Nat) : Nat := a - Pga.slot a
end Pga

/-- A granule's key in the map and in the buffer: namespace and granule index (R160). -/
def gkey (nsid granule : Nat) : Nat := nsid * 2 ^ 36 + granule
def gkeyNs (k : Nat) : Nat := k / 2 ^ 36
def gkeyGran (k : Nat) : Nat := k % 2 ^ 36
/-- The page that holds a granule's entry (R165). -/
def pageOf (k : Nat) : Nat := gkeyNs k * 2 ^ 27 + gkeyGran k / 512

/-- Stamp a is newer than stamp b (R171). -/
def stampNewer (a b : BitVec 16) : Bool := let d := (a - b).toNat; 1 ≤ d && d ≤ 32767

/-- A granule's 16 blocks out of its 64 KiB, and one block. -/
def blockAt (g : GranuleBits) (i : Nat) : Block := (g >>> (i * 32768)).setWidth 32768

end Sys2Proof.Machine
end

