-- ==== Sys2Proof/Machine/Cipher.lean ====
section
/-! DEFINITION. What CD and CX do to the bits of a data unit on its way to flash: AES-256-XTS (R256), the codec's parity (R224)
and the PRBS31 scrambler (R226). Byte strings are numbers, lowest byte first (R9). -/

namespace Sys2Proof.Machine

/-! ### AES-256-XTS (R256) -/

/-- A tweak times alpha in GF(2^128), in the little-endian order of IEEE 1619. -/
def xtsNext (t : BitVec 128) : BitVec 128 := (t <<< 1) ^^^ (if t.getLsbD 127 then 0x87 else 0)

/-- The tweaks of n consecutive 16-byte parts of a data unit, from the first one's on. -/
def xtsTweaks (t : BitVec 128) : Nat → List (BitVec 128)
  | 0 => []
  | n + 1 => t :: xtsTweaks (xtsNext t) n

/-- A 4 KiB data unit through the cipher f (encryption or decryption of 16 bytes): the first half of the key is f's, the second
half enciphers the tweak, which is the namespace block address (log 9). -/
def xts (f : BitVec 256 → BitVec 128 → BitVec 128) (key : BitVec 512) (lba : Nat) (b : Block) : Block :=
  let data := key.setWidth 256
  let first := Config.aesEncrypt (key.extractLsb' 256 256) (BitVec.ofNat 128 (lba % 2 ^ 64))
  (xtsTweaks first 256).zipIdx.foldl (fun (a : Block) p =>
    a ||| ((f data (b.extractLsb' (128 * p.2) 128 ^^^ p.1) ^^^ p.1).setWidth 32768 <<< (128 * p.2))) 0

/-- A plain block as it is stored under a key, and what a stored one reads as under a key. -/
def encryptUnit (key : BitVec 512) (lba : Nat) (b : Block) : Block := xts Config.aesEncrypt key lba b
def decryptUnit (key : BitVec 512) (lba : Nat) (b : Block) : Block := xts Config.aesDecrypt key lba b

/-! ### PRBS31 (R226, R243) -/

/-- One step of the shift register of x^31 + x^28 + 1. -/
def prbsStep (r : Nat) : Nat := (2 * r + ((r >>> 30) ^^^ (r >>> 27)) % 2) % 2 ^ 31

/-- n bits of the sequence from a register on, the first in bit 0 (log 92). -/
def prbsBits : Nat → Nat → Nat
  | _, 0 => 0
  | r, n + 1 => (r >>> 30) % 2 + 2 * prbsBits (prbsStep r) n

/-- The register that a codeword address seeds: its low 31 bits, with 1 in bit 30. -/
def prbsSeed (addr : Nat) : Nat := addr % 2 ^ 30 + 2 ^ 30

/-- A codeword of n bytes scrambled, or descrambled, by its address. -/
def scramble (addr n word : Nat) : Nat := word ^^^ prbsBits (prbsSeed addr) (8 * n)

/-! ### The codec (R224) -/

/-- Length of a codeword in bytes for a cell mode. -/
def codewordLen (b : Nat) : Nat := if b = 3 then 4480 else if b = 4 then 4640 else 4864
/-- Bytes of data and metadata in a codeword; its parity field takes the rest. -/
def wordBytes : Nat := 4128

/-- The parity of a word of data and metadata: the code is linear, so it is the sum of the parities of the word's single bits,
which the code's matrices give (log 92). -/
def ldpcParity (bits word : Nat) : Nat :=
  (List.range (8 * wordBytes)).foldl (fun a i =>
    if word.testBit i then a ^^^ ((Config.ldpcRow bits i).toNat % 2 ^ (8 * (codewordLen bits - wordBytes))) else a) 0

/-- The code is systematic: data and metadata, then the parity. -/
def encodeWord (bits word : Nat) : Nat := word % 2 ^ (8 * wordBytes) + ldpcParity bits (word % 2 ^ (8 * wordBytes)) <<< (8 * wordBytes)
/-- The syndrome of a codeword is zero. -/
def zeroSyndrome (bits cw : Nat) : Bool := encodeWord bits cw = cw

/-! ### Metadata (R225, R227) -/

/-- What a codeword is (cw_kind). -/
inductive CwKind where
  | filler | user | system
deriving DecidableEq, Repr
def CwKind.code : CwKind → Nat
  | .filler => 0
  | .user => 1
  | .system => 2

/-- Data and metadata of a codeword: 4096 bytes of data, then the 32 metadata bytes with the crc over both. `fields` are the
metadata fields of bytes 0 to 11. -/
def cwWord (kind : CwKind) (addr fields data : Nat) : Nat :=
  let meta_ := fields + pack [(56, 2, kind.code), (96, 44, addr)]
  data + (meta_ + crc32c (bytesOf data 4096 ++ bytesOf meta_ 24) <<< 192) <<< 32768

/-- The metadata fields of a user block. -/
def userFields (key block : Nat) (zero poisoned : Bool) (stamp epoch : Nat) : Nat :=
  pack [(0, 36, gkeyGran key), (40, 5, gkeyNs key), (48, 4, block), (52, 1, if zero then 1 else 0), (53, 1, if poisoned then 1 else 0),
    (64, 16, stamp), (80, 8, epoch)]

/-- The crc and the address that a codeword's metadata carries agree with its bytes and with the address read (R227). -/
def cwCrcOk (cw : Nat) : Bool :=
  bitsOf cw (32768 + 192) 32 = crc32c (bytesOf cw 4096 ++ bytesOf (cw >>> 32768) 24)
def cwAddress (cw : Nat) : Nat := bitsOf cw (32768 + 96) 44

end Sys2Proof.Machine
end

