-- ==== Sys2Proof/Machine/Flags.lean ====
section
/-! DEFINITION. The codes of the spec's tables: statuses (R128), fault kinds and source units (R414, R415), notice and
event codes (R79, R438), interrupt sources (R354). -/

namespace Sys2Proof.Machine

/-! ### Statuses (R128) -/
namespace St
def success : BitVec 16 := 0
def invalidOpcode : BitVec 16 := 0x0101
def invalidField : BitVec 16 := 0x0102
def invalidNamespace : BitVec 16 := 0x0103
def lbaOutOfRange : BitVec 16 := 0x0104
def invalidGatherList : BitVec 16 := 0x0105
def invalidQueue : BitVec 16 := 0x0106
def queueNotFrozen : BitVec 16 := 0x0107
def restartMismatch : BitVec 16 := 0x0108
def alreadyCompleted : BitVec 16 := 0x0109
def namespaceBusy : BitVec 16 := 0x010a
def namespaceLimit : BitVec 16 := 0x010b
def featureNotChangeable : BitVec 16 := 0x010c
def imageInvalid : BitVec 16 := 0x010d
def authenticationFailed : BitVec 16 := 0x010e
def activationFailed : BitVec 16 := 0x010f
def busy : BitVec 16 := 0x0110
def peerNotPermitted : BitVec 16 := 0x0111
def peerWriteFailed : BitVec 16 := 0x0112
def unrecoveredRead : BitVec 16 := 0x0201
def unrecoveredMapRead : BitVec 16 := 0x0202
def aborted : BitVec 16 := 0x0301
def discarded : BitVec 16 := 0x0302
def queueDeleted : BitVec 16 := 0x0303
def dataTimeout : BitVec 16 := 0x0304
def ingressOverflow : BitVec 16 := 0x0305
def invalidPacket : BitVec 16 := 0x0306
def packetCheckFailed : BitVec 16 := 0x0307
def duplicateTag : BitVec 16 := 0x0308
def hostAccessError : BitVec 16 := 0x0309
def hostDataPoisoned : BitVec 16 := 0x030a
def hostAccessWithdrawn : BitVec 16 := 0x030b
def deviceFault : BitVec 16 := 0x0401
def capacitySealed : BitVec 16 := 0x0402
def containedError : BitVec 16 := 0x0403

/-- The statuses that freeze an I/O queue (R111): every type but 0x00, less Aborted, Discarded, Queue Deleted and Device
Fault. -/
def freezes (s : BitVec 16) : Bool :=
  s.toNat / 256 != 0 && s != St.aborted && s != St.discarded && s != St.queueDeleted && s != St.deviceFault

/-- The media statuses (R129). -/
def media (s : BitVec 16) : Bool := s.toNat / 256 = 2
end St

/-! ### Fault kinds (R415) -/
namespace Kind
def lineCrc : Nat := 0x01
def dramCorrected : Nat := 0x02
def dramUncorrectable : Nat := 0x03
def poisonedAccess : Nat := 0x04
def registerCheck : Nat := 0x05
def unmappedAccess : Nat := 0x06
def closedAccess : Nat := 0x07
def keyLoadRefused : Nat := 0x08
def noKey : Nat := 0x09
def boltWatchdog : Nat := 0x0a
def mapPageLost : Nat := 0x0b
def lockstep : Nat := 0x20
def ftCheck : Nat := 0x21
def sequencing : Nat := 0x22
def imageAuth : Nat := 0x23
def wardenWatchdog : Nat := 0x24
def policyLost : Nat := 0x25
def thermalTrip : Nat := 0x26
def retention : Nat := 0x27
def lunMargin : Nat := 0x28
def mapStateLost : Nat := 0x29
def memoryTest : Nat := 0x2a
def channelFailed : Nat := 0x2b
def dramTraining : Nat := 0x2c
def cryptoTest : Nat := 0x2d
def calibration : Nat := 0x2e
def stopRecord : Nat := 0x2f
def formatMismatch : Nat := 0x30

/-- The kinds that take the path of R422. -/
def privileged (k : Nat) : Bool := 0x20 ≤ k && k ≤ 0x23
/-- The kinds of R415. -/
def known (k : Nat) : Bool := (1 ≤ k && k ≤ 0x0b) || (0x20 ≤ k && k ≤ 0x30)
end Kind

/-! ### Source unit IDs (R414) -/
namespace Src
def pw : Nat := 0x000
def sensor (i : Nat) : Nat := 0x002 + i
def shared : Nat := 0x020
def mailbox : Nat := 0x021
def march : Nat := 0x022
def ft : Nat := 0x040
def ev : Nat := 0x048
def lockstep : Nat := 0x080
def wdog : Nat := 0x081
def wardenScratch : Nat := 0x082
def mt : Nat := 0x083
def imageAuth : Nat := 0x084
def wardenFw : Nat := 0x085
def codeFlash : Nat := 0x0c0
def loader : Nat := 0x0c1
def port (p : Nat) : Nat := 0x100 + 16 * p
def qe : Nat := 0x140
def qeFifo : Nat := 0x141
def qeTags : Nat := 0x142
def qeDeficits : Nat := 0x143
def bm : Nat := 0x180
def ingressStaging : Nat := 0x181
def readStaging : Nat := 0x182
def dramChannel (c : Nat) : Nat := 0x188 + c
def dc : Nat := 0x18f
def mp : Nat := 0x1c0
def ms : Nat := 0x200
def channel (n : Nat) : Nat := 0x240 + n
def cd : Nat := 0x2c0
def quadrant (q : Nat) : Nat := 0x2c1 + q
def cx : Nat := 0x300
def keySlots : Nat := 0x301
def rc : Nat := 0x340
def bolt : Nat := 0x380
def boltCore (n : Nat) : Nat := 0x381 + n
def ic : Nat := 0x391

/-- The IDs that R414 lists. -/
def listed (n : Nat) : Bool :=
  n = 0 || n = 1 || (2 ≤ n && n ≤ 25) || (0x20 ≤ n && n ≤ 0x22) || n = 0x40 || n = 0x48 || (0x80 ≤ n && n ≤ 0x85)
    || n = 0xc0 || n = 0xc1 || n = 0x100 || n = 0x101 || n = 0x110 || n = 0x111 || (0x140 ≤ n && n ≤ 0x143)
    || (0x180 ≤ n && n ≤ 0x182) || (0x188 ≤ n && n ≤ 0x18d) || n = 0x18f || n = 0x1c0 || n = 0x1c1 || n = 0x200 || n = 0x201
    || (0x240 ≤ n && n ≤ 0x2bf) || (0x2c0 ≤ n && n ≤ 0x2c4) || n = 0x2c8 || (0x300 ≤ n && n ≤ 0x305) || n = 0x340
    || (0x380 ≤ n && n ≤ 0x391)
end Src

/-- The master ID of a requester (R416). -/
def masterId : Who → Nat
  | .warden => 0x00
  | .bolt n => 0x10 + n
  | .host p => 0x20 + p

/-! ### Interrupt sources (R354) -/
namespace Irq
def prepareBegun : Nat := 16
def haspReleased : Nat := 17
def pwrFail : Nat := 18
def pwrFailEnd : Nat := 19
def bootStep : Nat := 20
def corrected : Nat := 21
def contained : Nat := 22
def escalation : Nat := 23
def deadbolt : Nat := 24
def ringThreeQuarters : Nat := 25
def logFull : Nat := 26
def logCleared : Nat := 27
def cfDone : Nat := 28
def loadDone : Nat := 29
def unlock : Nat := 30
def uartByte : Nat := 31
def hp (p e : Nat) : Nat := 32 + 4 * p + e
def qe (p e : Nat) : Nat := 40 + 6 * p + e
def bufferHigh : Nat := 52
def bufferLow : Nat := 53
def stagingCrc : Nat := 54
def scrubDone : Nat := 55
def trainingDone : Nat := 56
def dramCorrected (c : Nat) : Nat := 57 + 2 * c
def dramUncorrectable (c : Nat) : Nat := 58 + 2 * c
def mp (e : Nat) : Nat := 69 + e
def ms (e : Nat) : Nat := 73 + e
def cd (e : Nat) : Nat := 79 + e
def cx (e : Nat) : Nat := 84 + e
def rc (e : Nat) : Nat := 87 + e
def marchDone : Nat := 94
def spCrc : Nat := 95
def collided : Nat := 96
def boltWdog (n : Nat) : Nat := 97 + n
def fromBolt (n : Nat) : Nat := 113 + n
def toBolt (n : Nat) : Nat := 129 + n
def boltClosed (n : Nat) : Nat := 145 + n
def warm (i : Nat) : Nat := 161 + i
def fphy (q : Nat) : Nat := 185 + q
def msRunning : Nat := 189
def imageReady : Nat := 190
def activateBegun : Nat := 191
def fc (n : Nat) : Nat := 192 + n
end Irq

end Sys2Proof.Machine
end

