-- ==== Sys2Proof/Machine/Table.lean ====
section
/-! DEFINITION. The operations of the sparse tables: find, put in rising order, erase, and the check that the indices of a
table rise strictly; and lists in order. -/

namespace Sys2Proof

/-- The value at index k. -/
def Tbl.find {α : Type} (t : Tbl α) (k : Nat) : Option α :=
  match t with
  | [] => none
  | (i, v) :: r => if i = k then some v else Tbl.find r k

/-- Whether index k is listed. -/
def Tbl.has {α : Type} (t : Tbl α) (k : Nat) : Bool := (Tbl.find t k).isSome

/-- Put v at index k; the indices keep rising. -/
def Tbl.put {α : Type} (t : Tbl α) (k : Nat) (v : α) : Tbl α :=
  match t with
  | [] => [(k, v)]
  | (i, w) :: r => if k < i then (k, v) :: (i, w) :: r else if k = i then (k, v) :: r else (i, w) :: Tbl.put r k v

/-- Remove index k. -/
def Tbl.erase {α : Type} (t : Tbl α) (k : Nat) : Tbl α := t.filter (fun p => p.1 != k)

/-- Change the value at index k, where it is listed. -/
def Tbl.modify {α : Type} (t : Tbl α) (k : Nat) (f : α → α) : Tbl α :=
  t.map (fun p => if p.1 = k then (p.1, f p.2) else p)

/-- Put an option: none removes the index. -/
def Tbl.set {α : Type} (t : Tbl α) (k : Nat) (v : Option α) : Tbl α :=
  match v with
  | some v => Tbl.put t k v
  | none => Tbl.erase t k

/-- The listed indices. -/
def Tbl.keys {α : Type} (t : Tbl α) : List Nat := t.map (·.1)

/-- The listed values in rising order of index. -/
def Tbl.vals {α : Type} (t : Tbl α) : List α := t.map (·.2)

/-- The indices rise strictly: equal tables are equal data. -/
abbrev Tbl.wf {α : Type} (t : Tbl α) : Prop := t.Pairwise (fun a b => a.1 < b.1)

/-! ### Lists in order -/

/-- Put x into a list in order, before those it is not above. -/
def insertBy {α : Type} (le : α → α → Bool) (x : α) : List α → List α
  | [] => [x]
  | y :: l => if le x y then x :: y :: l else y :: insertBy le x l

/-- A list in order; equals keep their places. -/
def sortBy {α : Type} (le : α → α → Bool) (l : List α) : List α := l.foldr (insertBy le) []

/-- Numbers in rising order. -/
def sortNat (l : List Nat) : List Nat := sortBy (fun a b => a ≤ b) l

end Sys2Proof
end

