-- ==== Sys2Proof/Machine/Regs.lean ====
section
/-! DEFINITION. The register map, written from the register tables of the spec's chapters: every field by name (reserved
fields apart), which registers exist (R40), which fields a write acts on (R11 to R13), and every reset value that is not 0
(R14). HP_ is HP0_; the second port's copy lies 0x100_0000 further, and 0x10_0000 further for QE_ (R41). -/

namespace Sys2Proof.Machine

namespace Reg
def TS_TC_MONITOR.valid : Fld := ⟨0x213000040, 31, 1⟩
def TS_TC_MONITOR.sensor : Fld := ⟨0x213000040, 16, 9⟩
def TS_TC_MONITOR.tc_ps : Fld := ⟨0x213000040, 0, 10⟩
def PW_TIMEBASE.ticks : Fld := ⟨0x200000100, 0, 64⟩
def QE_PORT_STATUS.stray : Fld := ⟨0x207000000, 16, 16⟩
def QE_PORT_STATUS.aq_live : Fld := ⟨0x207000000, 3, 1⟩
def QE_PORT_STATUS.state : Fld := ⟨0x207000000, 0, 3⟩
def QE_AQ_CFG.enable : Fld := ⟨0x207000008, 31, 1⟩
def QE_AQ_CFG.vector : Fld := ⟨0x207000008, 16, 10⟩
def QE_AQ_CFG.ring_code : Fld := ⟨0x207000008, 12, 4⟩
def QE_AQ_CFG.depth_code : Fld := ⟨0x207000008, 8, 4⟩
def QE_AQ_CFG.pcheck : Fld := ⟨0x207000008, 1, 1⟩
def QE_AQ_CFG.relaxed : Fld := ⟨0x207000008, 0, 1⟩
def QE_AQ_IRQ.irq_time : Fld := ⟨0x20700000c, 16, 10⟩
def QE_AQ_IRQ.irq_count : Fld := ⟨0x20700000c, 0, 8⟩
def QE_AQ_RING_BASE.base : Fld := ⟨0x207000010, 12, 52⟩
def QE_DATA_TIMEOUT.timeout_ms : Fld := ⟨0x207000020, 0, 17⟩
def QE_PULL_CFG.retries : Fld := ⟨0x207000024, 0, 2⟩
def QE_Q_STATUS.state : Fld := ⟨0x207001000, 30, 2⟩
def QE_Q_STATUS.outstanding : Fld := ⟨0x207001000, 17, 13⟩
def QE_Q_STATUS.dropped : Fld := ⟨0x207001000, 0, 16⟩
def QE_ARB_WEIGHT.w3 : Fld := ⟨0x207000028, 24, 8⟩
def QE_ARB_WEIGHT.w2 : Fld := ⟨0x207000028, 16, 8⟩
def QE_ARB_WEIGHT.w1 : Fld := ⟨0x207000028, 8, 8⟩
def QE_ARB_WEIGHT.w0 : Fld := ⟨0x207000028, 0, 8⟩
def QE_AGE_CFG.hard_age_ms : Fld := ⟨0x20700002c, 16, 16⟩
def QE_AGE_CFG.promotion_ms : Fld := ⟨0x20700002c, 0, 16⟩
def QE_PORT_SHARE.reclaim_urgent : Fld := ⟨0x207000030, 24, 1⟩
def QE_PORT_SHARE.reclaim_weight : Fld := ⟨0x207000030, 16, 8⟩
def QE_PORT_SHARE.share1 : Fld := ⟨0x207000030, 8, 8⟩
def QE_PORT_SHARE.share0 : Fld := ⟨0x207000030, 0, 8⟩
def MP_STATUS.clean : Fld := ⟨0x20a000000, 8, 1⟩
def MP_STATUS.state : Fld := ⟨0x20a000000, 0, 3⟩
def MP_GEOMETRY.codewords : Fld := ⟨0x20a000004, 16, 10⟩
def MP_GEOMETRY.slots : Fld := ⟨0x20a000004, 0, 5⟩
def MP_CACHE_CFG.cache_gib : Fld := ⟨0x20a000008, 0, 8⟩
def MP_CACHE_DIRTY.dirty : Fld := ⟨0x20a00000c, 0, 26⟩
def MP_CACHE_MISSES.misses : Fld := ⟨0x20a000010, 0, 64⟩
def MP_CKPT_CFG.idle_pad_s : Fld := ⟨0x20a000018, 24, 8⟩
def MP_CKPT_CFG.media_gib : Fld := ⟨0x20a000018, 16, 8⟩
def MP_CKPT_CFG.host_gib : Fld := ⟨0x20a000018, 8, 8⟩
def MP_CKPT_CFG.interval_s : Fld := ⟨0x20a000018, 0, 8⟩
def MP_CKPT_SEQ.seq : Fld := ⟨0x20a000020, 0, 64⟩
def MP_PROG_SEQ.seq : Fld := ⟨0x20a000028, 0, 64⟩
def MP_SINCE_CUT.media_mib : Fld := ⟨0x20a000030, 16, 16⟩
def MP_SINCE_CUT.host_mib : Fld := ⟨0x20a000030, 0, 16⟩
def MP_REPLAY_FOOTERS.footers : Fld := ⟨0x20a000034, 0, 32⟩
def MP_REPLAY_APPLIED.applied : Fld := ⟨0x20a000038, 0, 32⟩
def MP_LOST_PAGES.lost : Fld := ⟨0x20a00003c, 0, 32⟩
def MS_STATUS.pressure : Fld := ⟨0x20b000000, 10, 1⟩
def MS_STATUS.claim : Fld := ⟨0x20b000000, 9, 1⟩
def MS_STATUS.ramp : Fld := ⟨0x20b000000, 8, 1⟩
def MS_STATUS.state : Fld := ⟨0x20b000000, 0, 3⟩
def MS_BUDGET.rail_mv : Fld := ⟨0x20b000004, 16, 16⟩
def MS_BUDGET.budget_ma : Fld := ⟨0x20b000004, 0, 16⟩
def MS_RAMP_CFG.start_pct : Fld := ⟨0x20b000008, 24, 8⟩
def MS_RAMP_CFG.delay_ms : Fld := ⟨0x20b000008, 10, 10⟩
def MS_RAMP_CFG.ramp_ms : Fld := ⟨0x20b000008, 0, 10⟩
def MS_LEDGER.ceiling_ma : Fld := ⟨0x20b00000c, 16, 16⟩
def MS_LEDGER.held_ma : Fld := ⟨0x20b00000c, 0, 16⟩
def MS_COST_READ.read_ma : Fld := ⟨0x20b000010, 0, 8⟩
def MS_COST_PROG.prog_ma : Fld := ⟨0x20b000014, 0, 10⟩
def MS_COST_ERASE.erase_ma : Fld := ⟨0x20b000018, 0, 10⟩
def MS_COST_XFER.xfer_ma : Fld := ⟨0x20b00001c, 0, 8⟩
def MS_COST_TAIL.tail_us : Fld := ⟨0x20b000020, 16, 10⟩
def MS_COST_TAIL.tail_ma : Fld := ⟨0x20b000020, 0, 8⟩
def MS_LIMITS.max_erase : Fld := ⟨0x20b000024, 23, 9⟩
def MS_LIMITS.max_prog : Fld := ⟨0x20b000024, 13, 10⟩
def MS_LIMITS.max_read : Fld := ⟨0x20b000024, 0, 13⟩
def MS_SUSPEND_CFG.resume_min_us : Fld := ⟨0x20b000028, 16, 16⟩
def MS_SUSPEND_CFG.per_suspend : Fld := ⟨0x20b000028, 8, 8⟩
def MS_SUSPEND_CFG.max_suspends : Fld := ⟨0x20b000028, 0, 3⟩
def MS_PROG_CFG.token_wait_us : Fld := ⟨0x20b00002c, 16, 16⟩
def MS_PROG_CFG.pressure_pct : Fld := ⟨0x20b00002c, 8, 8⟩
def MS_PROG_CFG.prog_age_ms : Fld := ⟨0x20b00002c, 0, 8⟩
def MS_OP_LIMIT.reset_ms : Fld := ⟨0x20b000030, 24, 8⟩
def MS_OP_LIMIT.erase_ms : Fld := ⟨0x20b000030, 16, 8⟩
def MS_OP_LIMIT.prog_ms : Fld := ⟨0x20b000030, 8, 8⟩
def MS_OP_LIMIT.read_ms : Fld := ⟨0x20b000030, 0, 8⟩
def MS_INFLIGHT.erases : Fld := ⟨0x20b000034, 23, 9⟩
def MS_INFLIGHT.programs : Fld := ⟨0x20b000034, 13, 10⟩
def MS_INFLIGHT.reads : Fld := ⟨0x20b000034, 0, 13⟩
def MS_TOKEN_WAITS.waits : Fld := ⟨0x20b000038, 0, 64⟩
def MS_SUSPENDS.suspends : Fld := ⟨0x20b000040, 0, 64⟩
def MS_FAILS.erase_fails : Fld := ⟨0x20b000048, 16, 16⟩
def MS_FAILS.prog_fails : Fld := ⟨0x20b000048, 0, 16⟩
def MS_OP_TIMEOUTS.timeouts : Fld := ⟨0x20b00004c, 0, 32⟩
def MS_GEOMETRY.wl_per_block : Fld := ⟨0x20b000050, 16, 10⟩
def MS_GEOMETRY.block_groups : Fld := ⟨0x20b000050, 0, 15⟩
def FC_CFG.buf_latency : Fld := ⟨0x20c000000, 19, 4⟩
def FC_CFG.buffer : Fld := ⟨0x20c000000, 18, 1⟩
def FC_CFG.bits_per_cell : Fld := ⟨0x20c000000, 15, 3⟩
def FC_CFG.planes : Fld := ⟨0x20c000000, 12, 3⟩
def FC_CFG.lpv : Fld := ⟨0x20c000000, 10, 2⟩
def FC_CFG.luns_per_ce : Fld := ⟨0x20c000000, 5, 5⟩
def FC_CFG.ce1 : Fld := ⟨0x20c000000, 4, 1⟩
def FC_CFG.rate : Fld := ⟨0x20c000000, 1, 3⟩
def FC_CFG.iface : Fld := ⟨0x20c000000, 0, 1⟩
def FC_STATUS.wp_released : Fld := ⟨0x20c000004, 11, 1⟩
def FC_STATUS.write_trained : Fld := ⟨0x20c000004, 10, 1⟩
def FC_STATUS.read_trained : Fld := ⟨0x20c000004, 9, 1⟩
def FC_STATUS.dcc_done : Fld := ⟨0x20c000004, 8, 1⟩
def FC_STATUS.zq_done : Fld := ⟨0x20c000004, 7, 1⟩
def FC_STATUS.state : Fld := ⟨0x20c000004, 0, 3⟩
def FC_LUN_FAILED.failed : Fld := ⟨0x20c000008, 0, 32⟩
def FC_LUN_BUSY.busy : Fld := ⟨0x20c00000c, 0, 32⟩
def FC_EYE.write_eye_ps : Fld := ⟨0x20c000010, 16, 16⟩
def FC_EYE.read_eye_ps : Fld := ⟨0x20c000010, 0, 16⟩
def FC_ZQ_CFG.zq_interval_ms : Fld := ⟨0x20c000014, 0, 16⟩
def FC_COUNTS.timeouts : Fld := ⟨0x20c000018, 16, 16⟩
def FC_COUNTS.status_fails : Fld := ⟨0x20c000018, 0, 16⟩
def CD_STATUS.wall_used : Fld := ⟨0x20d000000, 9, 1⟩
def CD_STATUS.refresh_due : Fld := ⟨0x20d000000, 8, 1⟩
def CD_STATUS.state : Fld := ⟨0x20d000000, 0, 3⟩
def CD_GEOMETRY.stripe_width : Fld := ⟨0x20d000004, 21, 6⟩
def CD_GEOMETRY.bits_per_cell : Fld := ⟨0x20d000004, 18, 3⟩
def CD_GEOMETRY.codeword_bytes : Fld := ⟨0x20d000004, 0, 13⟩
def CD_LADDER_CFG.policy_ms : Fld := ⟨0x20d000008, 16, 16⟩
def CD_LADDER_CFG.soft_iter : Fld := ⟨0x20d000008, 11, 5⟩
def CD_LADDER_CFG.l1_rereads : Fld := ⟨0x20d000008, 8, 3⟩
def CD_LADDER_CFG.hard_iter : Fld := ⟨0x20d000008, 0, 8⟩
def CD_DRIFT_CFG.retention_h : Fld := ⟨0x20d00000c, 16, 16⟩
def CD_DRIFT_CFG.run_factor : Fld := ⟨0x20d00000c, 8, 8⟩
def CD_DRIFT_CFG.off_factor : Fld := ⟨0x20d00000c, 0, 8⟩
def CD_WITNESS_CFG.hard_rber : Fld := ⟨0x20d000010, 22, 10⟩
def CD_WITNESS_CFG.sweep_step : Fld := ⟨0x20d000010, 8, 8⟩
def CD_WITNESS_CFG.interval_h : Fld := ⟨0x20d000010, 0, 8⟩
def CD_WEAR_CFG.rated_pe : Fld := ⟨0x20d000014, 0, 16⟩
def CD_AUDIT_LUNS.no_witness : Fld := ⟨0x20d000018, 16, 13⟩
def CD_AUDIT_LUNS.measured : Fld := ⟨0x20d000018, 0, 13⟩
def CD_AUDIT_BANKS.refreshed : Fld := ⟨0x20d00001c, 16, 9⟩
def CD_AUDIT_BANKS.sampled : Fld := ⟨0x20d00001c, 0, 9⟩
def CD_AUDIT_TIME.total_ms : Fld := ⟨0x20d000020, 16, 16⟩
def CD_AUDIT_TIME.measure_ms : Fld := ⟨0x20d000020, 0, 16⟩
def CD_LADDER_OPEN.openCount : Fld := ⟨0x20d000024, 0, 16⟩
def CD_LADDER_COUNT.count : Fld := ⟨0x20d000040, 0, 64⟩
def CD_UNCORRECTABLE.count : Fld := ⟨0x20d000068, 0, 64⟩
def CD_LUN_DRIFT.measured : Fld := ⟨0x20d010000, 31, 1⟩
def CD_LUN_DRIFT.hours : Fld := ⟨0x20d010000, 0, 31⟩
def CX_STATUS.kat_pass : Fld := ⟨0x20e000000, 17, 1⟩
def CX_STATUS.kat_done : Fld := ⟨0x20e000000, 16, 1⟩
def CX_STATUS.key_valid : Fld := ⟨0x20e000000, 0, 16⟩
def CX_KEY_BUSY.busy : Fld := ⟨0x20e000004, 0, 16⟩
def CX_KEY_CMD.go : Fld := ⟨0x20e000008, 31, 1⟩
def CX_KEY_CMD.action : Fld := ⟨0x20e000008, 8, 2⟩
def CX_KEY_CMD.slot : Fld := ⟨0x20e000008, 0, 4⟩
def CX_KEY_DATA.key : Fld := ⟨0x20e000040, 0, 32⟩
def CX_UNITS_ENC.units : Fld := ⟨0x20e000080, 0, 64⟩
def CX_UNITS_DEC.units : Fld := ⟨0x20e000088, 0, 64⟩
def RC_STATUS.sealed : Fld := ⟨0x20f000000, 7, 1⟩
def RC_STATUS.spare_out : Fld := ⟨0x20f000000, 6, 1⟩
def RC_STATUS.rebuilding : Fld := ⟨0x20f000000, 5, 1⟩
def RC_STATUS.below_floor : Fld := ⟨0x20f000000, 4, 1⟩
def RC_STATUS.at_reserve : Fld := ⟨0x20f000000, 3, 1⟩
def RC_STATUS.state : Fld := ⟨0x20f000000, 0, 3⟩
def RC_FREE.openCount : Fld := ⟨0x20f000004, 24, 8⟩
def RC_FREE.free : Fld := ⟨0x20f000004, 0, 24⟩
def RC_FLOOR_CFG.target : Fld := ⟨0x20f000008, 16, 16⟩
def RC_FLOOR_CFG.floor : Fld := ⟨0x20f000008, 0, 16⟩
def RC_SEAL_CFG.reserve : Fld := ⟨0x20f00000c, 0, 12⟩
def RC_STREAM_CFG.auto_refresh : Fld := ⟨0x20f000010, 8, 1⟩
def RC_STREAM_CFG.default_stream : Fld := ⟨0x20f000010, 0, 2⟩
def RC_AGE_CFG.a3_h : Fld := ⟨0x20f000014, 32, 16⟩
def RC_AGE_CFG.a2_h : Fld := ⟨0x20f000014, 16, 16⟩
def RC_AGE_CFG.a1_h : Fld := ⟨0x20f000014, 0, 16⟩
def RC_VICTIM_CFG.spread : Fld := ⟨0x20f00001c, 16, 16⟩
def RC_VICTIM_CFG.l3_limit : Fld := ⟨0x20f00001c, 8, 8⟩
def RC_VICTIM_CFG.fallback_ms : Fld := ⟨0x20f00001c, 0, 8⟩
def RC_LUN_CFG.failed : Fld := ⟨0x20f000020, 8, 6⟩
def RC_LUN_CFG.margin : Fld := ⟨0x20f000020, 0, 6⟩
def RC_END_CFG.limit_pct : Fld := ⟨0x20f000024, 0, 9⟩
def RC_SPARE_LEFT.spare : Fld := ⟨0x20f000028, 0, 32⟩
def RC_SPARE_FORMAT.spare : Fld := ⟨0x20f00002c, 0, 32⟩
def RC_TABLE_BASE.base : Fld := ⟨0x20f000030, 0, 48⟩
def RC_MOVED.moved : Fld := ⟨0x20f000038, 0, 64⟩
def PW_STATE.prog_hold : Fld := ⟨0x200000000, 5, 1⟩
def PW_STATE.pwr_fail : Fld := ⟨0x200000000, 4, 1⟩
def PW_STATE.format : Fld := ⟨0x200000000, 3, 1⟩
def PW_STATE.phase : Fld := ⟨0x200000000, 0, 3⟩
def PW_BOOT_CAUSE.cause : Fld := ⟨0x200000004, 0, 8⟩
def PW_SEQ_FAULT.valid : Fld := ⟨0x200000008, 31, 1⟩
def PW_SEQ_FAULT.step : Fld := ⟨0x200000008, 29, 2⟩
def PW_SEQ_FAULT.domain : Fld := ⟨0x200000008, 24, 5⟩
def PW_HASP_CFG.prepare_ms : Fld := ⟨0x20000000c, 16, 16⟩
def PW_HASP_CFG.commit_ms : Fld := ⟨0x20000000c, 0, 16⟩
def PW_HASP_STATUS.outcome : Fld := ⟨0x200000010, 29, 3⟩
def PW_HASP_STATUS.timed_out : Fld := ⟨0x200000010, 28, 1⟩
def PW_HASP_STATUS.refuser : Fld := ⟨0x200000010, 16, 10⟩
def PW_HASP_STATUS.refused : Fld := ⟨0x200000010, 8, 8⟩
def PW_HASP_STATUS.ready : Fld := ⟨0x200000010, 0, 8⟩
def PW_PWRFAIL.count : Fld := ⟨0x200000014, 16, 16⟩
def PW_PWRFAIL.longest_ms : Fld := ⟨0x200000014, 0, 16⟩
def PW_CMD.go : Fld := ⟨0x200000018, 31, 1⟩
def PW_CMD.cmd : Fld := ⟨0x200000018, 0, 4⟩
def PW_DOMAIN.up_time : Fld := ⟨0x200000040, 16, 16⟩
def PW_DOMAIN.released : Fld := ⟨0x200000040, 3, 1⟩
def PW_DOMAIN.mem_ready : Fld := ⟨0x200000040, 2, 1⟩
def PW_DOMAIN.clk_ready : Fld := ⟨0x200000040, 1, 1⟩
def PW_DOMAIN.pwr_good : Fld := ⟨0x200000040, 0, 1⟩
def PW_BOOT_TIME.ms : Fld := ⟨0x2000000c0, 0, 32⟩
def HP_LINK.flit : Fld := ⟨0x205000000, 31, 1⟩
def HP_LINK.width : Fld := ⟨0x205000000, 20, 6⟩
def HP_LINK.speed : Fld := ⟨0x205000000, 16, 4⟩
def HP_LINK.bifurcated : Fld := ⟨0x205000000, 12, 1⟩
def HP_LINK.flr_active : Fld := ⟨0x205000000, 11, 1⟩
def HP_LINK.mse : Fld := ⟨0x205000000, 10, 1⟩
def HP_LINK.bme : Fld := ⟨0x205000000, 9, 1⟩
def HP_LINK.state : Fld := ⟨0x205000000, 0, 8⟩
def HP_BAR_DROPS.unmapped : Fld := ⟨0x205000004, 16, 16⟩
def HP_BAR_DROPS.slot : Fld := ⟨0x205000004, 0, 16⟩
def HP_TAGS.quarantined : Fld := ⟨0x205000008, 16, 11⟩
def HP_TAGS.in_use : Fld := ⟨0x205000008, 0, 11⟩
def HP_CPL_EVENTS.late : Fld := ⟨0x20500000c, 16, 16⟩
def HP_CPL_EVENTS.unexpected : Fld := ⟨0x20500000c, 0, 16⟩
def HP_CTO.expiries : Fld := ⟨0x205000010, 16, 16⟩
def HP_CTO.value_ms : Fld := ⟨0x205000010, 0, 16⟩
def HP_WITHDRAWN.clears : Fld := ⟨0x205000014, 16, 16⟩
def HP_WITHDRAWN.commands : Fld := ⟨0x205000014, 0, 16⟩
def HP_FLR_COUNT.flrs : Fld := ⟨0x205000018, 0, 32⟩
def HP_WTE.entry : Fld := ⟨0x205000100, 0, 32⟩
def MP_RING_STATUS.running : Fld := ⟨0x20a001000, 31, 1⟩
def MP_RING_STATUS.in_progress : Fld := ⟨0x20a001000, 16, 8⟩
def MP_RING_STATUS.next : Fld := ⟨0x20a001000, 0, 8⟩
def MS_RING_STATUS.running : Fld := ⟨0x20b001000, 31, 1⟩
def MS_RING_STATUS.in_progress : Fld := ⟨0x20b001000, 16, 8⟩
def MS_RING_STATUS.next : Fld := ⟨0x20b001000, 0, 8⟩
def CD_RING_STATUS.running : Fld := ⟨0x20d001000, 31, 1⟩
def CD_RING_STATUS.in_progress : Fld := ⟨0x20d001000, 16, 8⟩
def CD_RING_STATUS.next : Fld := ⟨0x20d001000, 0, 8⟩
def CD_REQ_STATUS.running : Fld := ⟨0x20d001100, 31, 1⟩
def CD_REQ_STATUS.in_progress : Fld := ⟨0x20d001100, 16, 8⟩
def CD_REQ_STATUS.next : Fld := ⟨0x20d001100, 0, 8⟩
def RC_RING_STATUS.running : Fld := ⟨0x20f001000, 31, 1⟩
def RC_RING_STATUS.in_progress : Fld := ⟨0x20f001000, 16, 8⟩
def RC_RING_STATUS.next : Fld := ⟨0x20f001000, 0, 8⟩
def WD_STATUS.rom_done : Fld := ⟨0x203000000, 3, 1⟩
def WD_STATUS.next_marked : Fld := ⟨0x203000000, 2, 1⟩
def WD_STATUS.slot : Fld := ⟨0x203000000, 1, 1⟩
def WD_STATUS.lockstep : Fld := ⟨0x203000000, 0, 1⟩
def WD_WDOG.limit_ms : Fld := ⟨0x203000004, 0, 14⟩
def WD_WDOG_KICK.kick : Fld := ⟨0x203000008, 0, 32⟩
def WD_APERTURE.base : Fld := ⟨0x203000040, 28, 20⟩
def WD_APERTURE.valid : Fld := ⟨0x203000040, 0, 1⟩
def BC_CTRL.ready : Fld := ⟨0x210000000, 17, 1⟩
def BC_CTRL.slot : Fld := ⟨0x210000000, 16, 1⟩
def BC_CTRL.run : Fld := ⟨0x210000000, 0, 16⟩
def BC_DRAM_LIMIT.limit : Fld := ⟨0x210000008, 0, 48⟩
def BC_CORE.closed : Fld := ⟨0x210000100, 16, 16⟩
def BC_CORE.state : Fld := ⟨0x210000100, 0, 3⟩
def BC_WDOG.enable : Fld := ⟨0x210000200, 31, 1⟩
def BC_WDOG.limit_ms : Fld := ⟨0x210000200, 0, 14⟩
def BC_WDOG_KICK.kick : Fld := ⟨0x210000204, 0, 32⟩
def BC_MTIMECMP.cmp : Fld := ⟨0x210000400, 0, 64⟩
def IC_ROUTE.target : Fld := ⟨0x211000000, 29, 3⟩
def IC_ROUTE.core : Fld := ⟨0x211000000, 20, 4⟩
def IC_ROUTE.priority : Fld := ⟨0x211000000, 10, 3⟩
def IC_ROUTE.vector : Fld := ⟨0x211000000, 0, 10⟩
def IC_PENDING.pending : Fld := ⟨0x211000800, 0, 32⟩
def IC_CLAIM.source : Fld := ⟨0x211001000, 0, 10⟩
def IC_COMPLETE.source : Fld := ⟨0x211001004, 0, 10⟩
def IC_RAISE.source : Fld := ⟨0x211001100, 0, 9⟩
def CF_STATUS.scan_done : Fld := ⟨0x204000000, 9, 1⟩
def CF_STATUS.waiting : Fld := ⟨0x204000000, 8, 1⟩
def CF_STATUS.tag_rejected : Fld := ⟨0x204000000, 7, 1⟩
def CF_STATUS.refused : Fld := ⟨0x204000000, 6, 1⟩
def CF_STATUS.seq_error : Fld := ⟨0x204000000, 5, 1⟩
def CF_STATUS.done : Fld := ⟨0x204000000, 4, 1⟩
def CF_STATUS.suspended : Fld := ⟨0x204000000, 3, 1⟩
def CF_STATUS.op : Fld := ⟨0x204000000, 1, 2⟩
def CF_STATUS.busy : Fld := ⟨0x204000000, 0, 1⟩
def CF_SECTOR_SEL.sector : Fld := ⟨0x204000004, 0, 9⟩
def CF_ROTATE.next : Fld := ⟨0x204000008, 0, 9⟩
def CF_SCAN.retired : Fld := ⟨0x20400000c, 20, 10⟩
def CF_SCAN.torn : Fld := ⟨0x20400000c, 10, 10⟩
def CF_SCAN.free : Fld := ⟨0x20400000c, 0, 10⟩
def CF_GEN_NEXT.generation : Fld := ⟨0x204000010, 0, 32⟩
def CF_MAX_CYCLES.erases : Fld := ⟨0x204000014, 0, 16⟩
def CF_MARK_CFG.mark_written : Fld := ⟨0x204000018, 1, 1⟩
def CF_MARK_CFG.active : Fld := ⟨0x204000018, 0, 1⟩
def CF_OP_TIME.us : Fld := ⟨0x20400001c, 0, 32⟩
def CF_SECTOR.sealed : Fld := ⟨0x204001000, 31, 1⟩
def CF_SECTOR.tagged : Fld := ⟨0x204001000, 30, 1⟩
def CF_SECTOR.mapped : Fld := ⟨0x204001000, 29, 1⟩
def CF_SECTOR.logical : Fld := ⟨0x204001000, 20, 9⟩
def CF_SECTOR.erases : Fld := ⟨0x204001000, 0, 16⟩
def CF_MAP.valid : Fld := ⟨0x204002000, 31, 1⟩
def CF_MAP.physical : Fld := ⟨0x204002000, 0, 9⟩
def CF_CAL.data : Fld := ⟨0x204004000, 0, 32⟩
def SP_STATUS.poisoned : Fld := ⟨0x212000000, 16, 16⟩
def SP_STATUS.test_busy : Fld := ⟨0x212000000, 2, 1⟩
def SP_STATUS.march_busy : Fld := ⟨0x212000000, 1, 1⟩
def SP_STATUS.clear_busy : Fld := ⟨0x212000000, 0, 1⟩
def SP_CLEAR_BASE.line : Fld := ⟨0x212000008, 6, 42⟩
def SP_CLEAR_CMD.go : Fld := ⟨0x212000010, 31, 1⟩
def SP_CLEAR_CMD.lines : Fld := ⟨0x212000010, 0, 19⟩
def SP_MARCH_CMD.go : Fld := ⟨0x212000018, 31, 1⟩
def SP_MARCH_CMD.preserving : Fld := ⟨0x212000018, 8, 1⟩
def SP_MARCH_CMD.region : Fld := ⟨0x212000018, 0, 8⟩
def SP_MARCH_STATUS.done : Fld := ⟨0x21200001c, 31, 1⟩
def SP_MARCH_STATUS.fail : Fld := ⟨0x21200001c, 30, 1⟩
def SP_MARCH_STATUS.tested : Fld := ⟨0x21200001c, 8, 14⟩
def SP_MARCH_STATUS.region : Fld := ⟨0x21200001c, 0, 8⟩
def SP_MARCH_FAIL.line : Fld := ⟨0x212000020, 6, 42⟩
def SP_TEST_CMD.go : Fld := ⟨0x212000028, 31, 1⟩
def SP_TEST_CMD.op : Fld := ⟨0x212000028, 0, 2⟩
def SP_TEST_ADDR.line : Fld := ⟨0x212000030, 6, 42⟩
def SP_TEST_CRC.crc : Fld := ⟨0x212000038, 0, 32⟩
def SP_TEST_DATA.data : Fld := ⟨0x212000040, 0, 32⟩
def SP_COLLIDE.core : Fld := ⟨0x212000080, 28, 4⟩
def SP_COLLIDE.count : Fld := ⟨0x212000080, 16, 12⟩
def SP_COLLIDE.word : Fld := ⟨0x212000080, 0, 16⟩
def DC_STATUS.trained : Fld := ⟨0x209000000, 8, 6⟩
def DC_STATUS.state : Fld := ⟨0x209000000, 0, 3⟩
def DC_TOPOLOGY.size_gib : Fld := ⟨0x209000004, 23, 9⟩
def DC_TOPOLOGY.ranks : Fld := ⟨0x209000004, 4, 2⟩
def DC_TOPOLOGY.density : Fld := ⟨0x209000004, 0, 4⟩
def DC_SCRUB_CFG.scrub_h : Fld := ⟨0x209000008, 0, 8⟩
def DC_SCRUB_STATUS.passes : Fld := ⟨0x20900000c, 16, 16⟩
def DC_SCRUB_STATUS.progress : Fld := ⟨0x20900000c, 0, 10⟩
def DC_POISON_ADDR.valid : Fld := ⟨0x209000010, 63, 1⟩
def DC_POISON_ADDR.line : Fld := ⟨0x209000010, 6, 42⟩
def DC_TEST_MASK.armed : Fld := ⟨0x209000018, 31, 1⟩
def DC_TEST_MASK.mask : Fld := ⟨0x209000018, 0, 16⟩
def DC_ERR.uncorrectable : Fld := ⟨0x209000040, 32, 32⟩
def DC_ERR.corrected : Fld := ⟨0x209000040, 0, 32⟩
def DC_TRAIN.pass : Fld := ⟨0x209000100, 31, 1⟩
def DC_TRAIN.write_eye_ps : Fld := ⟨0x209000100, 16, 15⟩
def DC_TRAIN.read_eye_ps : Fld := ⟨0x209000100, 0, 15⟩
def FT_STATUS.deadbolt : Fld := ⟨0x201000000, 31, 1⟩
def FT_STATUS.armed : Fld := ⟨0x201000000, 3, 1⟩
def FT_STATUS.held : Fld := ⟨0x201000000, 0, 3⟩
def FT_ACK.ack : Fld := ⟨0x201000010, 0, 2⟩
def FT_KIND_RAISE.raise : Fld := ⟨0x201000020, 0, 64⟩
def FT_INJECT.arm : Fld := ⟨0x201000030, 31, 1⟩
def FT_INJECT.source : Fld := ⟨0x201000030, 0, 10⟩
def FT_CAP.record : Fld := ⟨0x201000100, 0, 32⟩
def FT_COUNT.count : Fld := ⟨0x201000180, 0, 32⟩
def PW_DEADBOLT.active : Fld := ⟨0x20000001c, 31, 1⟩
def PW_DEADBOLT.privileged : Fld := ⟨0x20000001c, 30, 1⟩
def PW_DEADBOLT.kind : Fld := ⟨0x20000001c, 10, 6⟩
def PW_DEADBOLT.source : Fld := ⟨0x20000001c, 0, 10⟩
def PW_OPT.based : Fld := ⟨0x200000020, 63, 1⟩
def PW_OPT.opt : Fld := ⟨0x200000020, 0, 48⟩
def PW_PCC.pcc : Fld := ⟨0x200000028, 0, 32⟩
def EV_STATUS.full : Fld := ⟨0x202000000, 31, 1⟩
def EV_STATUS.clearing : Fld := ⟨0x202000000, 30, 1⟩
def EV_STATUS.located : Fld := ⟨0x202000000, 29, 1⟩
def EV_STATUS.half : Fld := ⟨0x202000000, 3, 1⟩
def EV_STATUS.state : Fld := ⟨0x202000000, 0, 3⟩
def EV_HELD.held : Fld := ⟨0x202000004, 0, 21⟩
def EV_RING.used : Fld := ⟨0x202000008, 0, 13⟩
def EV_DROPPED.dropped : Fld := ⟨0x20200000c, 0, 32⟩
def EV_DROP_CAUSE.ring_full : Fld := ⟨0x202000010, 16, 16⟩
def EV_DROP_CAUSE.log_full : Fld := ⟨0x202000010, 0, 16⟩
def EV_NEXT_SEQ.seq : Fld := ⟨0x202000014, 0, 24⟩
def EV_CFG.health_s : Fld := ⟨0x202000018, 16, 16⟩
def EV_CFG.flush_s : Fld := ⟨0x202000018, 0, 16⟩
def EV_LOG_LOC.channel_b : Fld := ⟨0x20200001c, 8, 7⟩
def EV_LOG_LOC.channel_a : Fld := ⟨0x20200001c, 0, 7⟩
def EV_TEMP_BIN.seconds : Fld := ⟨0x202000100, 0, 32⟩
def MT_STATUS.unlocked : Fld := ⟨0x214000000, 31, 1⟩
def MT_STATUS.mode : Fld := ⟨0x214000000, 29, 2⟩
def MT_STATUS.nonce_live : Fld := ⟨0x214000000, 28, 1⟩
def MT_STATUS.delay_s : Fld := ⟨0x214000000, 8, 8⟩
def MT_STATUS.failures : Fld := ⟨0x214000000, 0, 8⟩
def MT_UART_CFG.rate : Fld := ⟨0x214000004, 0, 2⟩
def MT_AUTH_CFG.password : Fld := ⟨0x214000008, 31, 1⟩
def MT_AUTH_CFG.challenge : Fld := ⟨0x214000008, 30, 1⟩
def MT_AUTH_CFG.image_key : Fld := ⟨0x214000008, 29, 1⟩
def MT_AUTH_CFG.kiter : Fld := ⟨0x214000008, 0, 7⟩
def MT_LOCK.lock : Fld := ⟨0x21400000c, 0, 1⟩
def WD_TRNG_STATUS.healthy : Fld := ⟨0x203000100, 31, 1⟩
def WD_TRNG_STATUS.seeded : Fld := ⟨0x203000100, 30, 1⟩
def WD_TRNG_STATUS.reseeds : Fld := ⟨0x203000100, 0, 16⟩
def WD_TRNG_DATA.data : Fld := ⟨0x203000104, 0, 32⟩
def CF_LOAD_STATUS.loaded : Fld := ⟨0x204000020, 31, 1⟩
def CF_LOAD_STATUS.code : Fld := ⟨0x204000020, 24, 4⟩
def CF_LOAD_STATUS.offset : Fld := ⟨0x204000020, 0, 24⟩
def CF_LOAD_INFO.records : Fld := ⟨0x204000024, 24, 8⟩
def CF_LOAD_INFO.density_mib : Fld := ⟨0x204000024, 16, 8⟩
def CF_LOAD_INFO.addr4 : Fld := ⟨0x204000024, 12, 1⟩
def CF_LOAD_INFO.mode : Fld := ⟨0x204000024, 8, 4⟩
def CF_LOAD_INFO.clock_mhz : Fld := ⟨0x204000024, 0, 8⟩
def CF_LOAD_SEQ.sequence : Fld := ⟨0x204000028, 0, 64⟩
def CF_LOAD_TIME.signer : Fld := ⟨0x204000030, 24, 8⟩
def CF_LOAD_TIME.ms : Fld := ⟨0x204000030, 0, 16⟩
def PW_STRAPS.spare : Fld := ⟨0x200000030, 4, 4⟩
def PW_STRAPS.common_clock : Fld := ⟨0x200000030, 3, 1⟩
def PW_STRAPS.spi_clk : Fld := ⟨0x200000030, 1, 2⟩
def PW_STRAPS.two_port : Fld := ⟨0x200000030, 0, 1⟩
def TS_WARN_CFG.hyst_c : Fld := ⟨0x213000000, 8, 5⟩
def TS_WARN_CFG.warn_c : Fld := ⟨0x213000000, 0, 8⟩
def TS_MAX.sensor : Fld := ⟨0x213000004, 16, 5⟩
def TS_MAX.temp : Fld := ⟨0x213000004, 0, 16⟩
def TS_TEMP.valid : Fld := ⟨0x213000100, 31, 1⟩
def TS_TEMP.warned : Fld := ⟨0x213000100, 17, 1⟩
def TS_TEMP.temp : Fld := ⟨0x213000100, 0, 16⟩
end Reg

namespace Regs

/-- Rows of the register map. -/
def rows0 : List RegDef := [
  ⟨0x213000040, 0, 1, 0, false, []⟩,
  ⟨0x200000100, 0, 1, 0, true, []⟩,
  ⟨0x207000000, 0, 1, 0x100000, false, []⟩,
  ⟨0x207000008, 0, 1, 0x100000, false, [⟨31, 1, .rw, 0, 1⟩, ⟨16, 10, .rw, 0, 512⟩, ⟨12, 4, .rw, 0, 9⟩, ⟨8, 4, .rw, 0, 8⟩, ⟨1, 1, .rw, 0, 1⟩, ⟨0, 1, .rw, 0, 1⟩]⟩,
  ⟨0x20700000c, 0, 1, 0x100000, false, [⟨16, 10, .rw, 0, 1000⟩, ⟨0, 8, .rw, 1, 255⟩]⟩,
  ⟨0x207000010, 0, 1, 0x100000, true, [⟨12, 52, .rw, 0, 4503599627370495⟩]⟩,
  ⟨0x207000020, 0, 1, 0x100000, false, []⟩,
  ⟨0x207000024, 0, 1, 0x100000, false, []⟩,
  ⟨0x207001000, 4, 512, 0x100000, false, []⟩,
  ⟨0x207000028, 0, 1, 0x100000, false, []⟩,
  ⟨0x20700002c, 0, 1, 0x100000, false, []⟩,
  ⟨0x207000030, 0, 1, 0, false, []⟩,
  ⟨0x20a000000, 0, 1, 0, false, []⟩,
  ⟨0x20a000004, 0, 1, 0, false, []⟩,
  ⟨0x20a000008, 0, 1, 0, false, []⟩,
  ⟨0x20a00000c, 0, 1, 0, false, []⟩,
  ⟨0x20a000010, 0, 1, 0, true, []⟩,
  ⟨0x20a000018, 0, 1, 0, false, []⟩,
  ⟨0x20a000020, 0, 1, 0, true, []⟩,
  ⟨0x20a000028, 0, 1, 0, true, []⟩,
  ⟨0x20a000030, 0, 1, 0, false, []⟩,
  ⟨0x20a000034, 0, 1, 0, false, []⟩,
  ⟨0x20a000038, 0, 1, 0, false, []⟩,
  ⟨0x20a00003c, 0, 1, 0, false, []⟩,
  ⟨0x20b000000, 0, 1, 0, false, []⟩,
  ⟨0x20b000004, 0, 1, 0, false, []⟩,
  ⟨0x20b000008, 0, 1, 0, false, []⟩,
  ⟨0x20b00000c, 0, 1, 0, false, []⟩,
  ⟨0x20b000010, 0, 1, 0, false, []⟩,
  ⟨0x20b000014, 0, 1, 0, false, []⟩,
  ⟨0x20b000018, 0, 1, 0, false, []⟩,
  ⟨0x20b00001c, 0, 1, 0, false, []⟩,
  ⟨0x20b000020, 0, 1, 0, false, []⟩,
  ⟨0x20b000024, 0, 1, 0, false, []⟩,
  ⟨0x20b000028, 0, 1, 0, false, []⟩,
  ⟨0x20b00002c, 0, 1, 0, false, []⟩,
  ⟨0x20b000030, 0, 1, 0, false, []⟩,
  ⟨0x20b000034, 0, 1, 0, false, []⟩,
  ⟨0x20b000038, 0, 1, 0, true, []⟩,
  ⟨0x20b000040, 0, 1, 0, true, []⟩,
  ⟨0x20b000048, 0, 1, 0, false, []⟩,
  ⟨0x20b00004c, 0, 1, 0, false, []⟩,
  ⟨0x20b000050, 0, 1, 0, false, []⟩,
  ⟨0x20c000000, 65536, 128, 0, false, []⟩,
  ⟨0x20c000004, 65536, 128, 0, false, []⟩,
  ⟨0x20c000008, 65536, 128, 0, false, []⟩]

/-- Rows of the register map. -/
def rows1 : List RegDef := [
  ⟨0x20c00000c, 65536, 128, 0, false, []⟩,
  ⟨0x20c000010, 65536, 128, 0, false, []⟩,
  ⟨0x20c000014, 65536, 128, 0, false, []⟩,
  ⟨0x20c000018, 65536, 128, 0, false, []⟩,
  ⟨0x20d000000, 0, 1, 0, false, []⟩,
  ⟨0x20d000004, 0, 1, 0, false, []⟩,
  ⟨0x20d000008, 0, 1, 0, false, []⟩,
  ⟨0x20d00000c, 0, 1, 0, false, []⟩,
  ⟨0x20d000010, 0, 1, 0, false, []⟩,
  ⟨0x20d000014, 0, 1, 0, false, []⟩,
  ⟨0x20d000018, 0, 1, 0, false, []⟩,
  ⟨0x20d00001c, 0, 1, 0, false, []⟩,
  ⟨0x20d000020, 0, 1, 0, false, []⟩,
  ⟨0x20d000024, 0, 1, 0, false, []⟩,
  ⟨0x20d000040, 8, 5, 0, true, []⟩,
  ⟨0x20d000068, 0, 1, 0, true, []⟩,
  ⟨0x20d010000, 4, 4096, 0, false, []⟩,
  ⟨0x20e000000, 0, 1, 0, false, []⟩,
  ⟨0x20e000004, 0, 1, 0, false, []⟩,
  ⟨0x20e000008, 0, 1, 0, false, [⟨31, 1, .wo, 0, 1⟩, ⟨8, 2, .rw, 0, 1⟩, ⟨0, 4, .rw, 0, 15⟩]⟩,
  ⟨0x20e000040, 4, 16, 0, false, [⟨0, 32, .wo, 0, 4294967295⟩]⟩,
  ⟨0x20e000080, 0, 1, 0, true, []⟩,
  ⟨0x20e000088, 0, 1, 0, true, []⟩,
  ⟨0x20f000000, 0, 1, 0, false, []⟩,
  ⟨0x20f000004, 0, 1, 0, false, []⟩,
  ⟨0x20f000008, 0, 1, 0, false, []⟩,
  ⟨0x20f00000c, 0, 1, 0, false, []⟩,
  ⟨0x20f000010, 0, 1, 0, false, [⟨8, 1, .rw, 0, 1⟩]⟩,
  ⟨0x20f000014, 0, 1, 0, true, []⟩,
  ⟨0x20f00001c, 0, 1, 0, false, []⟩,
  ⟨0x20f000020, 0, 1, 0, false, []⟩,
  ⟨0x20f000024, 0, 1, 0, false, []⟩,
  ⟨0x20f000028, 0, 1, 0, false, []⟩,
  ⟨0x20f00002c, 0, 1, 0, false, []⟩,
  ⟨0x20f000030, 0, 1, 0, true, []⟩,
  ⟨0x20f000038, 0, 1, 0, true, []⟩,
  ⟨0x200000000, 0, 1, 0, false, []⟩,
  ⟨0x200000004, 0, 1, 0, false, []⟩,
  ⟨0x200000008, 0, 1, 0, false, []⟩,
  ⟨0x20000000c, 0, 1, 0, false, []⟩,
  ⟨0x200000010, 0, 1, 0, false, []⟩,
  ⟨0x200000014, 0, 1, 0, false, []⟩,
  ⟨0x200000018, 0, 1, 0, false, [⟨31, 1, .wo, 0, 1⟩, ⟨0, 4, .rw, 1, 4⟩]⟩,
  ⟨0x200000040, 4, 24, 0, false, []⟩,
  ⟨0x2000000c0, 4, 10, 0, false, []⟩,
  ⟨0x205000000, 0, 1, 0x1000000, false, []⟩]

/-- Rows of the register map. -/
def rows2 : List RegDef := [
  ⟨0x205000004, 0, 1, 0x1000000, false, []⟩,
  ⟨0x205000008, 0, 1, 0x1000000, false, []⟩,
  ⟨0x20500000c, 0, 1, 0x1000000, false, []⟩,
  ⟨0x205000010, 0, 1, 0x1000000, false, []⟩,
  ⟨0x205000014, 0, 1, 0x1000000, false, []⟩,
  ⟨0x205000018, 0, 1, 0x1000000, false, []⟩,
  ⟨0x205000100, 4, 256, 0x1000000, false, []⟩,
  ⟨0x20a001000, 0, 1, 0, false, []⟩,
  ⟨0x20b001000, 0, 1, 0, false, []⟩,
  ⟨0x20d001000, 0, 1, 0, false, []⟩,
  ⟨0x20d001100, 0, 1, 0, false, []⟩,
  ⟨0x20f001000, 0, 1, 0, false, []⟩,
  ⟨0x203000000, 0, 1, 0, false, []⟩,
  ⟨0x203000004, 0, 1, 0, false, [⟨0, 14, .rw, 10, 10000⟩]⟩,
  ⟨0x203000008, 0, 1, 0, false, [⟨0, 32, .wo, 0, 4294967295⟩]⟩,
  ⟨0x203000040, 8, 8, 0, true, [⟨28, 20, .rw, 0, 1048575⟩, ⟨0, 1, .rw, 0, 1⟩]⟩,
  ⟨0x210000000, 0, 1, 0, false, [⟨16, 1, .rw, 0, 1⟩, ⟨0, 16, .rw, 0, 65535⟩]⟩,
  ⟨0x210000008, 0, 1, 0, true, []⟩,
  ⟨0x210000100, 4, 16, 0, false, []⟩,
  ⟨0x210000200, 8, 16, 0, false, [⟨31, 1, .rw, 0, 1⟩, ⟨0, 14, .rw, 1, 10000⟩]⟩,
  ⟨0x210000204, 8, 16, 0, false, [⟨0, 32, .wo, 0, 4294967295⟩]⟩,
  ⟨0x210000400, 8, 16, 0, true, [⟨0, 64, .rw, 0, 18446744073709551615⟩]⟩,
  ⟨0x211000000, 4, 320, 0, false, [⟨29, 3, .rw, 0, 4⟩, ⟨20, 4, .rw, 0, 15⟩, ⟨10, 3, .rw, 0, 7⟩, ⟨0, 10, .rw, 0, 512⟩]⟩,
  ⟨0x211000800, 4, 10, 0, false, []⟩,
  ⟨0x211001000, 8, 17, 0, false, [⟨0, 10, .rc, 0, 1023⟩]⟩,
  ⟨0x211001004, 8, 17, 0, false, [⟨0, 10, .wo, 0, 1023⟩]⟩,
  ⟨0x211001100, 0, 1, 0, false, [⟨0, 9, .wo, 0, 511⟩]⟩,
  ⟨0x204000000, 0, 1, 0, false, [⟨7, 1, .w1c, 0, 1⟩, ⟨6, 1, .w1c, 0, 1⟩, ⟨5, 1, .w1c, 0, 1⟩, ⟨4, 1, .w1c, 0, 1⟩]⟩,
  ⟨0x204000004, 0, 1, 0, false, [⟨0, 9, .rw, 0, 511⟩]⟩,
  ⟨0x204000008, 0, 1, 0, false, [⟨0, 9, .rw, 0, 511⟩]⟩,
  ⟨0x20400000c, 0, 1, 0, false, []⟩,
  ⟨0x204000010, 0, 1, 0, false, []⟩,
  ⟨0x204000014, 0, 1, 0, false, []⟩,
  ⟨0x204000018, 0, 1, 0, false, [⟨0, 1, .rw, 0, 1⟩]⟩,
  ⟨0x20400001c, 0, 1, 0, false, []⟩,
  ⟨0x204001000, 4, 512, 0, false, []⟩,
  ⟨0x204002000, 4, 448, 0, false, []⟩,
  ⟨0x204004000, 4, 512, 0, false, []⟩,
  ⟨0x212000000, 0, 1, 0, false, []⟩,
  ⟨0x212000008, 0, 1, 0, true, [⟨6, 42, .rw, 0, 4398046511103⟩]⟩,
  ⟨0x212000010, 0, 1, 0, false, [⟨31, 1, .wo, 0, 1⟩, ⟨0, 19, .rw, 1, 262144⟩]⟩,
  ⟨0x212000018, 0, 1, 0, false, [⟨31, 1, .wo, 0, 1⟩, ⟨8, 1, .rw, 0, 1⟩, ⟨0, 8, .rw, 0, 81⟩]⟩,
  ⟨0x21200001c, 0, 1, 0, false, [⟨31, 1, .w1c, 0, 1⟩]⟩,
  ⟨0x212000020, 0, 1, 0, true, []⟩,
  ⟨0x212000028, 0, 1, 0, false, [⟨31, 1, .wo, 0, 1⟩, ⟨0, 2, .rw, 0, 1⟩]⟩,
  ⟨0x212000030, 0, 1, 0, true, [⟨6, 42, .rw, 0, 4398046511103⟩]⟩]

/-- Rows of the register map. -/
def rows3 : List RegDef := [
  ⟨0x212000038, 0, 1, 0, false, [⟨0, 32, .rw, 0, 4294967295⟩]⟩,
  ⟨0x212000040, 4, 16, 0, false, [⟨0, 32, .rw, 0, 4294967295⟩]⟩,
  ⟨0x212000080, 0, 1, 0, false, []⟩,
  ⟨0x209000000, 0, 1, 0, false, []⟩,
  ⟨0x209000004, 0, 1, 0, false, []⟩,
  ⟨0x209000008, 0, 1, 0, false, []⟩,
  ⟨0x20900000c, 0, 1, 0, false, []⟩,
  ⟨0x209000010, 0, 1, 0, true, []⟩,
  ⟨0x209000018, 0, 1, 0, false, [⟨31, 1, .rw, 0, 1⟩, ⟨0, 16, .rw, 0, 65535⟩]⟩,
  ⟨0x209000040, 8, 6, 0, true, []⟩,
  ⟨0x209000100, 4, 6, 0, false, []⟩,
  ⟨0x201000000, 0, 1, 0, false, []⟩,
  ⟨0x201000010, 0, 1, 0, false, [⟨0, 2, .wo, 0, 3⟩]⟩,
  ⟨0x201000020, 0, 1, 0, true, [⟨0, 64, .rw, 0, 18446744073709551615⟩]⟩,
  ⟨0x201000030, 0, 1, 0, false, [⟨31, 1, .rw, 0, 1⟩, ⟨0, 10, .rw, 0, 1023⟩]⟩,
  ⟨0x201000100, 4, 24, 0, false, []⟩,
  ⟨0x201000180, 4, 3, 0, false, []⟩,
  ⟨0x20000001c, 0, 1, 0, false, []⟩,
  ⟨0x200000020, 0, 1, 0, true, []⟩,
  ⟨0x200000028, 0, 1, 0, false, []⟩,
  ⟨0x202000000, 0, 1, 0, false, []⟩,
  ⟨0x202000004, 0, 1, 0, false, []⟩,
  ⟨0x202000008, 0, 1, 0, false, []⟩,
  ⟨0x20200000c, 0, 1, 0, false, []⟩,
  ⟨0x202000010, 0, 1, 0, false, []⟩,
  ⟨0x202000014, 0, 1, 0, false, []⟩,
  ⟨0x202000018, 0, 1, 0, false, []⟩,
  ⟨0x20200001c, 0, 1, 0, false, []⟩,
  ⟨0x202000100, 4, 34, 0, false, []⟩,
  ⟨0x214000000, 0, 1, 0, false, []⟩,
  ⟨0x214000004, 0, 1, 0, false, []⟩,
  ⟨0x214000008, 0, 1, 0, false, []⟩,
  ⟨0x21400000c, 0, 1, 0, false, [⟨0, 1, .wo, 0, 1⟩]⟩,
  ⟨0x203000100, 0, 1, 0, false, []⟩,
  ⟨0x203000104, 0, 1, 0, false, [⟨0, 32, .rc, 0, 4294967295⟩]⟩,
  ⟨0x204000020, 0, 1, 0, false, []⟩,
  ⟨0x204000024, 0, 1, 0, false, []⟩,
  ⟨0x204000028, 0, 1, 0, true, []⟩,
  ⟨0x204000030, 0, 1, 0, false, []⟩,
  ⟨0x200000030, 0, 1, 0, false, []⟩,
  ⟨0x213000000, 0, 1, 0, false, [⟨8, 5, .rw, 1, 20⟩, ⟨0, 8, .rw, 60, 124⟩]⟩,
  ⟨0x213000004, 0, 1, 0, false, []⟩,
  ⟨0x213000100, 4, 24, 0, false, []⟩]

/-- Every register of the device. -/
def all : List RegDef := rows0 ++ rows1 ++ rows2 ++ rows3

/-- The element of register r that holds internal address a: the byte offset of the word within it. -/
def inReg (r : RegDef) (a : Nat) : Option Nat :=
  let hit (b : Nat) : Option Nat :=
    let size := if r.wide then 8 else 4
    if a < b then none
    else if r.stride = 0 then (if a - b < size then some (a - b) else none)
    else if (a - b) / r.stride < r.count ∧ (a - b) % r.stride < size then some ((a - b) % r.stride) else none
  match hit r.base with
  | some o => some o
  | none => if r.per = 0 then none else hit (r.base + r.per)

/-- The register at internal address a, with the word offset. -/
def lookup (a : Nat) : Option (RegDef × Nat) := all.findSome? (fun r => (inReg r a).map (fun o => (r, o)))

/-- Sources whose route is fixed to Warden (R354). -/
def fixedWarden (n : Nat) : Bool :=
  n = 16 || n = 20 || n = 24 || (28 ≤ n && n ≤ 31) || n = 56 || (84 ≤ n && n ≤ 86) || n = 94
    || (97 ≤ n && n ≤ 128) || (145 ≤ n && n ≤ 160) || (185 ≤ n && n ≤ 188) || n = 190

/-- Sources whose route is fixed to Bolt core n - 129 (R354). -/
def fixedBolt (n : Nat) : Bool := 129 ≤ n && n ≤ 144

/-- The reset value of IC_ROUTE[n] (R354). -/
def routeReset (n : Nat) : Nat :=
  if fixedWarden n then 0x20000400 else if fixedBolt n then 0x40000400 + (n - 129) * 0x100000 else 0x400

/-- Reset values other than 0 of registers that are no arrays: numbers from the Reset column, and for an "image" field the
value it takes when the image gives none (log 4). -/
def resets : List (Nat × Nat) := [
  (0x20700000c, 0x1), (0x20710000c, 0x1), (0x207000020, 0x3e8), (0x207100020, 0x3e8), (0x207000024, 0x1),
  (0x207100024, 0x1), (0x207000028, 0x1020408), (0x207100028, 0x1020408), (0x20700002c, 0xfa001f4), (0x20710002c, 0xfa001f4),
  (0x207000030, 0x40101), (0x20a000018, 0x520023c), (0x20b000004, 0x9c43e80), (0x20b000008, 0xa0001f4), (0x20b000010, 0xf),
  (0x20b000014, 0x4f), (0x20b000018, 0x1e), (0x20b00001c, 0x28), (0x20b000020, 0x140001), (0x20b000024, 0x80401000),
  (0x20b000028, 0x3e80804), (0x20b00002c, 0x3e84b0a), (0x20b000030, 0xa321402), (0x20d000008, 0x64cf14), (0x20d00000c, 0x22384010),
  (0x20d000010, 0x418), (0x20d000014, 0x5dc), (0x20f000008, 0x18000c0), (0x20f00000c, 0x20), (0x20f000010, 0x1),
  (0x20f000014, 0x5a000a80018), (0x20f00001c, 0x1f4080a), (0x20f000020, 0x20), (0x20f000024, 0x96), (0x20000000c, 0x138801f4),
  (0x205000010, 0x28), (0x206000010, 0x28), (0x203000000, 0x1), (0x203000004, 0x7d0), (0x209000008, 0x18),
  (0x202000018, 0x258012c), (0x214000008, 0x40000000), (0x213000000, 0x56e)]

/-- What a register that no write has changed reads as. -/
def reset (a : Nat) : Nat :=
  if 0x211000000 ≤ a ∧ a < 0x211000500 then routeReset ((a - 0x211000000) / 4)
  else if 0x20c000000 ≤ a ∧ a < 0x20c800000 ∧ a % 0x10000 = 0x14 then 1000
  else if 0x210000200 ≤ a ∧ a < 0x210000280 ∧ a % 8 = 0 then 500
  else if 0x210000400 ≤ a ∧ a < 0x210000480 ∧ a % 8 = 0 then 0xffffffffffffffff
  else if 0x211001000 ≤ a ∧ a < 0x211001088 ∧ a % 8 = 0 then 0x3ff
  else match resets.find? (fun p => p.1 = a) with
    | some p => p.2
    | none => 0

end Regs

/-- The register at address a (a 64-bit register at its low word's address). -/
def Dev.reg (s : Dev) (a : Nat) : Nat :=
  match s.regs.find a with
  | some v => v.toNat
  | none => Regs.reset a

/-- Set the register at address a. The table lists only registers that differ from their reset value, so equal registers
are equal data. -/
def Dev.setReg (s : Dev) (a v : Nat) : Dev :=
  { s with regs := s.regs.set a (if v = Regs.reset a then none else some (BitVec.ofNat 64 v)) }

/-- A field's value. -/
def Dev.get (s : Dev) (f : Fld) : Nat := (s.reg f.addr >>> f.lsb) % 2 ^ f.width

/-- Whether a one-bit field is set. -/
def Dev.bit (s : Dev) (f : Fld) : Bool := s.get f != 0

/-- Set a field, the register's other bits unchanged. A value wider than the field is taken modulo its width. -/
def Dev.put (s : Dev) (f : Fld) (v : Nat) : Dev :=
  let r := s.reg f.addr
  s.setReg f.addr (r - (((r >>> f.lsb) % 2 ^ f.width) <<< f.lsb) + ((v % 2 ^ f.width) <<< f.lsb))

/-- Raise a count by n, saturating at the field's largest value. -/
def Dev.addSat (s : Dev) (f : Fld) (n : Nat) : Dev := s.put f (min (s.get f + n) (2 ^ f.width - 1))

/-- Raise a count by n. -/
def Dev.add (s : Dev) (f : Fld) (n : Nat) : Dev := s.put f (s.get f + n)

/-- Set or clear a one-bit field. -/
def Dev.flag (s : Dev) (f : Fld) (b : Bool) : Dev := s.put f (if b then 1 else 0)

end Sys2Proof.Machine
end

