-- ==== Sys2Proof/Machine/Ops.lean ====
section
/-! DEFINITION. The operations every family shares: an event's outcome, time, emissions, ports, free values, interrupts,
MSI-X, event records and notices. -/

namespace Sys2Proof.Machine
open Reg

/-- What a command answers. -/
abbrev Res := Host.Outcome State Fault Refusal

/-- A command changes the device by f; the queue of waiting commands is not its own. -/
def run (s : State) (f : Dev → Dev) : Res := .next { s with dev := f s.dev }

/-- An event whose enabling condition c holds changes the device by f; where it does not hold, the event cannot occur and
the device stays as it is (log 1). -/
def act (s : State) (c : Dev → Bool) (f : Dev → Dev) : Res := run s (fun d => if c d then f d else d)

/-- An event about an item that must exist. -/
def actOn {α : Type} (s : State) (o : Dev → Option α) (f : Dev → α → Dev) : Res :=
  run s (fun d => match o d with
    | some a => f d a
    | none => d)

/-- Apply f to every element of a list in turn. -/
def Dev.each {α : Type} (s : Dev) (l : List α) (f : Dev → α → Dev) : Dev := l.foldl f s

/-! ### Time (R19, R31, R33, R433) -/

/-- The timebase count. -/
def Dev.now (s : Dev) : Nat := s.get PW_TIMEBASE.ticks
/-- OPT in ms. -/
def Dev.opt (s : Dev) : BitVec 48 := BitVec.ofNat 48 (s.get PW_OPT.opt)
def Dev.pcc (s : Dev) : Nat := s.get PW_PCC.pcc
/-- Whether a timer started at tick c with limit L ticks has expired (R33). -/
def Dev.expired (s : Dev) (c l : Nat) : Bool := c + l + 1 ≤ s.now
/-- OPT in ticks, and whether a timer of OPT started at such a count has expired (R19, R33). -/
def Dev.optTicks (s : Dev) : Nat := 1000 * s.opt.toNat + s.pw.optSub
def Dev.optExpired (s : Dev) (c l : Nat) : Bool := c + l + 1 ≤ s.optTicks
/-- Ticks in n ms. -/
def msTicks (n : Nat) : Nat := n * 1000
/-- Ticks in n s and n hours. -/
def secTicks (n : Nat) : Nat := n * 1000000
def hourTicks (n : Nat) : Nat := n * 3600000000

/-! ### Phases -/

def Dev.isDead (s : Dev) : Bool := s.pw.phase == .deadbolt
/-- In Run (Sealed or not): the phases in which the device works (R284). -/
def Dev.inRun (s : Dev) : Bool := s.pw.phase == .running || s.pw.phase == .preparing || s.pw.phase == .committing
/-- Logic is powered and released: boot or Run. -/
def Dev.awake (s : Dev) : Bool := s.inRun || s.pw.phase == .booting
/-- The number of ports (R307). -/
def Dev.ports (s : Dev) : Nat := if s.bit PW_STRAPS.two_port then 2 else 1
def Dev.portList (s : Dev) : List Nat := List.range s.ports

/-! ### Emissions and free values -/

def Dev.emit (s : Dev) (e : Emit) : Dev := { s with out := s.out ++ [e] }
/-- The next number of a free value (log 6). -/
def Dev.draw (s : Dev) : Nat × Dev := (s.freeCtr, { s with freeCtr := s.freeCtr + 1 })

/-! ### Ports -/

def Dev.port (s : Dev) (p : Nat) : Port := if p = 0 then s.port0 else s.port1
def Dev.modPort (s : Dev) (p : Nat) (f : Port → Port) : Dev :=
  if p = 0 then { s with port0 := f s.port0 } else { s with port1 := f s.port1 }
/-- A QE_ field of port p. -/
def qeReg (p : Nat) (f : Fld) : Fld := f.at (p * 0x100000)
/-- An HP_ field of port p. -/
def hpReg (p : Nat) (f : Fld) : Fld := f.at (p * 0x1000000)
/-- An FC_ field of channel n. -/
def fcReg (n : Nat) (f : Fld) : Fld := f.at (n * 0x10000)

/-- Whether port p may issue request TLPs (R332). -/
def Dev.mayIssue (s : Dev) (p : Nat) : Bool := (s.port p).bme && (s.port p).flrStart.isNone

/-! ### MSI-X (R313, R336) -/

/-- The MSI-X table entry of vector v; reset is masked (log 16). -/
def Port.vector (pt : Port) (v : Nat) : Msix := (pt.msixTable.find v).getD ⟨0, 0, true⟩

/-- Signal vector v of port p: sent at once, or held in the PBA while it is masked or Bus Master Enable withholds it. While
MSI-X is not enabled nothing is sent (log 16). -/
def Dev.signal (s : Dev) (p v : Nat) : Dev :=
  let pt := s.port p
  if !pt.msixEnable then s
  else if pt.msixFnMask || (pt.vector v).masked || !s.mayIssue p then
    s.modPort p (fun q => { q with msixPending := q.msixPending ||| BitVec.ofNat 513 (2 ^ v) })
  else s.emit (.msix p v)

/-- Send a held message of vector v if nothing withholds it any longer. -/
def Dev.resend (s : Dev) (p v : Nat) : Dev :=
  let pt := s.port p
  if pt.msixPending.getLsbD v && pt.msixEnable && !pt.msixFnMask && !(pt.vector v).masked && s.mayIssue p then
    (s.modPort p (fun q => { q with msixPending := q.msixPending &&& ~~~ BitVec.ofNat 513 (2 ^ v) })).emit (.msix p v)
  else s

/-- Send every held message that may go. -/
def Dev.resendAll (s : Dev) (p : Nat) : Dev := s.each (List.range 513) (fun s v => s.resend p v)

/-! ### Interrupt controller (R354 to R357) -/

def routeReg (f : Fld) (n : Nat) : Fld := f.at (4 * n)
def Dev.icIsPending (s : Dev) (n : Nat) : Bool := s.cores.icPending.getLsbD n
def Dev.inService (s : Dev) (n : Nat) : Bool := s.cores.service.any (fun p => p.1 == n)
def Dev.setIcPending (s : Dev) (n : Nat) (b : Bool) : Dev :=
  let m := BitVec.ofNat 320 (2 ^ n)
  { s with cores := { s.cores with icPending := if b then s.cores.icPending ||| m else s.cores.icPending &&& ~~~ m } }

/-- Deliver source n to a host vector if it is pending, routed to one, of priority 1 or more and not in service: IC sends
the message and clears pending without a claim (R355). -/
def Dev.deliver (s : Dev) (n : Nat) : Dev :=
  let t := s.get (routeReg IC_ROUTE.target n)
  if s.icIsPending n && !s.inService n && (t == 3 || t == 4) && s.get (routeReg IC_ROUTE.priority n) != 0 then
    (s.setIcPending n false).signal (t - 3) (s.get (routeReg IC_ROUTE.vector n))
  else s

/-- A unit's event raises source n (R355). -/
def Dev.raise (s : Dev) (n : Nat) : Dev := (s.setIcPending n true).deliver n

/-! ### Event records (R436 to R442) -/

/-- The records of the ring that belong to the newest log: those from the last granted clear's record on (R445). -/
def Dev.newRecords (s : Dev) : List Event :=
  match s.ev.clears.getLast? with
  | some c => s.ev.ring.dropWhile (fun r => r.seq != c.record.seq)
  | none => s.ev.ring

/-- Records held (R444): once a clear is granted, the old log is gone. -/
def Dev.evHeld (s : Dev) : Nat :=
  if s.ev.clears.isEmpty then s.nand.log.length + s.ev.ring.length else s.newRecords.length

/-- The LUN of a log replica: 0 A, 1 B (R440). -/
def Dev.logLun (s : Dev) (replica : Nat) : Nat := 32 * (if replica = 0 then s.get EV_LOG_LOC.channel_a else s.get EV_LOG_LOC.channel_b)
/-- The block groups of a run of 32 on a log LUN that are its own and not retired (R440). -/
def Dev.sysBlocks (s : Dev) (lun base : Nat) : List Nat :=
  ((List.range 32).map (fun i => base + i)).filter (fun b =>
    match s.rc.table.find (lun * 32768 + b) with
    | some e => e.state == .system
    | none => true)
/-- Word-line sets of the current half on a replica, and the next unused one (R440, R442). -/
def Dev.logHalfBase (s : Dev) : Nat := if s.nand.logHalf then 96 else 64
def Dev.logSize (s : Dev) (replica : Nat) : Nat :=
  (s.sysBlocks (s.logLun replica) s.logHalfBase).length * s.get MS_GEOMETRY.wl_per_block
def Dev.logNext (s : Dev) (replica : Nat) : Nat := if replica = 0 then s.nand.logA else s.nand.logB

/-- The log is full (R442). -/
def Dev.logFull (s : Dev) : Bool :=
  1048576 ≤ s.evHeld || (s.get EV_STATUS.located != 0 && s.ev.clears.isEmpty
    && (s.logSize 0 ≤ s.logNext 0 || s.logSize 1 ≤ s.logNext 1))

/-- Admit a record, or count it as dropped (R439). The Event Log Full notice is Dev.event's. -/
def Dev.letIn (s : Dev) (code src cls : Nat) (requested : Bool) (p0 p1 p2 : Nat) : Dev :=
  if s.logFull then (s.addSat EV_DROPPED.dropped 1).addSat EV_DROP_CAUSE.log_full 1
  else if 4096 ≤ s.ev.ring.length then (s.addSat EV_DROPPED.dropped 1).addSat EV_DROP_CAUSE.ring_full 1
  else
    let r : Event := ⟨BitVec.ofNat 16 code, src, cls, requested, s.get EV_NEXT_SEQ.seq, s.pcc, s.opt, BitVec.ofNat 32 p0,
      BitVec.ofNat 32 p1, BitVec.ofNat 32 p2⟩
    let s := { s with ev := { s.ev with ring := s.ev.ring ++ [r] } }
    let s := s.add EV_NEXT_SEQ.seq 1
    if s.ev.ring.length = 3072 then s.raise Irq.ringThreeQuarters else s

/-! ### Notices (R78 to R80) -/

/-- A queue's key. -/
def qkey (p q : Nat) : Nat := p * 1024 + q
/-- The port's peer queue (R139). -/
def peerQ : Nat := 512
def Dev.queue (s : Dev) (p q : Nat) : Option Queue := s.qe.queues.find (qkey p q)
def Dev.modQueue (s : Dev) (p q : Nat) (f : Queue → Queue) : Dev :=
  { s with qe := { s.qe with queues := s.qe.queues.modify (qkey p q) f } }
/-- Hand a packet to the ring of a queue. -/
def Dev.toRing (s : Dev) (p q : Nat) (r : RingPkt) : Dev :=
  s.modQueue p q (fun u => { u with waiting := u.waiting ++ [r] })

/-- Notices of port p that wait to be posted. -/
def Dev.noticesWaiting (s : Dev) (p : Nat) : Nat :=
  (s.port p).notices.length +
    (match s.queue p 0 with
     | some q => (q.waiting.filter (fun r => ringType r.bits = 3)).length
     | none => 0)

/-- Raise a notice on port p (R79, R80): dropped where it is masked or Deadbolt has begun, discarded and counted where 64
wait, kept in the port while queue 0 is not enabled. -/
def Dev.noticeOn (s : Dev) (p code p0 p1 p2 : Nat) : Dev :=
  if s.qe.dead || (s.port p).noticeMask.getLsbD (code - 1) then s
  else if 64 ≤ s.noticesWaiting p then
    ((s.modPort p (fun pt => { pt with lost := pt.lost + 1 })).letIn 0x0402 Src.qe 0 false p code 0).raise (Irq.qe p 1)
  else
    let n : Notice := ⟨code, BitVec.ofNat 32 p0, BitVec.ofNat 32 p1, BitVec.ofNat 32 p2, s.opt⟩
    match s.queue p 0 with
    | some _ => s.toRing p 0 { bits := noticePkt n 0, atOnce := true }
    | none => s.modPort p (fun pt => { pt with notices := pt.notices ++ [n] })

/-- Raise a notice on every port (R78). -/
def Dev.notice (s : Dev) (code p0 p1 p2 : Nat) : Dev := s.each s.portList (fun s p => s.noticeOn p code p0 p1 p2)

/-- Record an event (R438, R439). The first record dropped because the log is full raises source 26 and posts Notice Event
Log Full (R442). -/
def Dev.record (s : Dev) (code src cls : Nat) (requested : Bool) (p0 p1 p2 : Nat) : Dev :=
  let first := s.logFull && !s.ev.fullNoticed
  let s := s.letIn code src cls requested p0 p1 p2
  if first then
    let s := { s with ev := { s.ev with fullNoticed := true } }
    (s.raise Irq.logFull).notice 0x0007 (s.get EV_DROPPED.dropped) 0 0
  else s

/-- An information event (class 0). -/
def Dev.event (s : Dev) (code src p0 p1 p2 : Nat) : Dev := s.record code src 0 false p0 p1 p2

/-! ### Commands -/

def Dev.cmd (s : Dev) (acc : Nat) : Option Command := s.qe.cmds.find? (fun c => c.acc = acc)
def Dev.modCmd (s : Dev) (acc : Nat) (f : Command → Command) : Dev :=
  { s with qe := { s.qe with cmds := s.qe.cmds.map (fun c => if c.acc = acc then f c else c) } }
def Dev.dropCmd (s : Dev) (acc : Nat) : Dev :=
  { s with qe := { s.qe with cmds := s.qe.cmds.filter (fun c => c.acc != acc) } }
/-- The outstanding commands of a queue in acceptance order (R48). -/
def Dev.cmdsOf (s : Dev) (p q : Nat) : List Command := s.qe.cmds.filter (fun c => c.port == p && c.queue == q)
/-- The commands of a queue that its FIFO holds. -/
def Dev.fifo (s : Dev) (p q : Nat) : List Command := (s.cmdsOf p q).filter (fun c => c.phase == .held)
/-- Past its commit point. FUA writes wait there for durability. -/
def Command.committed (c : Command) : Bool := c.phase == .committed || c.phase == .durable
/-- Started and not past its commit point. -/
def Command.started (c : Command) : Bool := c.phase == .started || c.phase == .running

/-- Structured state updates that many meanings share. -/
def Dev.modPw (s : Dev) (f : Pw → Pw) : Dev := { s with pw := f s.pw }
def Dev.modQe (s : Dev) (f : Qe → Qe) : Dev := { s with qe := f s.qe }
def Dev.modBm (s : Dev) (f : Bm → Bm) : Dev := { s with bm := f s.bm }
def Dev.modMp (s : Dev) (f : Mp → Mp) : Dev := { s with mp := f s.mp }
def Dev.modMs (s : Dev) (f : Ms → Ms) : Dev := { s with ms := f s.ms }
def Dev.modCd (s : Dev) (f : Cd → Cd) : Dev := { s with cd := f s.cd }
def Dev.modRc (s : Dev) (f : Rc → Rc) : Dev := { s with rc := f s.rc }
def Dev.modEv (s : Dev) (f : Ev → Ev) : Dev := { s with ev := f s.ev }
def Dev.modCf (s : Dev) (f : Cf → Cf) : Dev := { s with cf := f s.cf }
def Dev.modCores (s : Dev) (f : Cores → Cores) : Dev := { s with cores := f s.cores }
def Dev.modNand (s : Dev) (f : Nand → Nand) : Dev := { s with nand := f s.nand }
def Dev.modMem (s : Dev) (f : Mem → Mem) : Dev := { s with mem := f s.mem }
def Dev.modHost (s : Dev) (f : Host_ → Host_) : Dev := { s with host := f s.host }
def Dev.modMt (s : Dev) (f : Mt → Mt) : Dev := { s with mt := f s.mt }

end Sys2Proof.Machine
end

