-- ==== Sys2Proof/Machine/CodeFlashOps.lean ====
section
/-! DEFINITION. The code-flash array as CF and Warden firmware use it (R363 to R381): lines, tags, the scan's map, the
replacement of a logical sector, the slot and mark records. A sector that is not listed is sealed and blank (log 19). -/

namespace Sys2Proof.Machine
open Reg

/-- A line of erased bytes. -/
def erasedLine : FlashLine := BitVec.allOnes 2048

def Dev.sector (s : Dev) (p : Nat) : Sector := (s.cf.sectors.find p).getD {}
def Dev.putSector (s : Dev) (p : Nat) (x : Sector) : Dev :=
  s.modCf (fun c => { c with sectors := c.sectors.set p (if x = {} then none else some x) })

/-- A stored line. -/
def Sector.line (x : Sector) (i : Nat) : FlashLine := (x.lines.find i).getD erasedLine
/-- A line as the window shows it: the seal and the erase count stand in bytes 248 to 255 of line 255 (R365). -/
def Sector.shown (x : Sector) (i : Nat) : FlashLine :=
  if i = 255 then BitVec.ofNat 2048 (pack [(0, 1984, (x.line 255).toNat), (1984, 32, 0x5ea15ea1), (2016, 32, x.erases)])
  else x.line i
/-- Program a line: bits go from 1 to 0 only, and the seal bytes are left unchanged (R374). -/
def Sector.program (x : Sector) (i : Nat) (d : FlashLine) : Sector :=
  let d := if i = 255 then d ||| BitVec.ofNat 2048 ((2 ^ 64 - 1) <<< 1984) else d
  let n := x.line i &&& d
  { x with lines := x.lines.set i (if n = erasedLine then none else some n) }

/-- The valid tag of a sealed sector: logical sector and generation (R365, R367). -/
def Sector.tag (x : Sector) : Option (Nat × Nat) :=
  let t := x.line 255
  if x.sealed && fld t 0 16 < 448 && fld t 64 32 = crc32c (bytesOf t.toNat 8) then some (fld t 0 16, fld t 32 32) else none

/-- The map the scan builds: for each logical sector the sealed sector with its tag of the highest generation (R367). -/
def Dev.scanMap (s : Dev) : Tbl Nat :=
  s.cf.sectors.foldl (fun m e =>
    match e.2.tag with
    | none => m
    | some (l, g) =>
      match m.find l with
      | none => m.put l e.1
      | some p =>
        match (s.sector p).tag with
        | some (_, g') => if g' < g then m.put l e.1 else m
        | none => m.put l e.1) []

/-- The highest tag generation of any sealed sector, with its sector. -/
def Dev.topGeneration (s : Dev) : Nat × Nat :=
  s.cf.sectors.foldl (fun b e =>
    match e.2.tag with
    | some (_, g) => if b.1 ≤ g then (g, e.1) else b
    | none => b) (0, 511)

/-- Largest erase count of any sealed sector (CF_MAX_CYCLES). -/
def Dev.maxCycles (s : Dev) : Nat := s.cf.sectors.foldl (fun m e => if e.2.sealed then max m e.2.erases else m) 0

def Dev.isMapped (s : Dev) (p : Nat) : Bool := s.cf.map.any (fun e => e.2 == p)
/-- A sector that R371 step 1 may take: untagged, stale or torn, unmapped, and below 20,000 erases. -/
def Dev.usable (s : Dev) (p : Nat) : Bool := !s.isMapped p && (s.sector p).erases < 20000

/-- The first usable sector at or after CF_ROTATE (R371). -/
def Dev.nextSector (s : Dev) : Option Nat :=
  ((List.range 512).map (fun i => (s.get CF_ROTATE.next + i) % 512)).find? (fun p => s.usable p)

/-- The erase count a sector carries after an erase: its own plus one, or for a torn one CF_MAX_CYCLES plus one (R366). -/
def Dev.nextErases (s : Dev) (p : Nat) : Nat :=
  if (s.sector p).sealed then (s.sector p).erases + 1 else s.maxCycles + 1
/-- After an erase: CF_MAX_CYCLES is current, and a count that has reached 20,000 retires the sector (R364); a
torn sector's count may go past it (R366). -/
def Dev.noteErase (s : Dev) (p n : Nat) : Dev :=
  let s := s.put CF_MAX_CYCLES.erases s.maxCycles
  if 20000 ≤ n then s.event 0x0d02 Src.codeFlash p 0 0 else s
/-- A sector as an erase that has begun and not ended leaves it (R366). -/
def tornSector : Sector := { sealed := false }

/-- The tag line of a logical sector and generation (R365). -/
def tagLine (l g : Nat) : FlashLine :=
  let low := pack [(0, 16, l), (16, 16, 0xffff), (32, 32, g)]
  BitVec.ofNat 2048 (pack [(0, 64, low), (64, 32, crc32c (bytesOf low 8)), (96, 1952, 2 ^ 1952 - 1)])

/-- CF reads a tag back after its program: it maps the logical sector to p when the generation exceeds its present one's,
and otherwise sets tag_rejected (R371). -/
def Dev.readTag (s : Dev) (p : Nat) : Dev :=
  match (s.sector p).tag with
  | none => s.flag CF_STATUS.tag_rejected true
  | some (l, g) =>
    let newer := match s.cf.map.find l with
      | none => true
      | some q => match (s.sector q).tag with
        | some (_, g') => g' < g
        | none => true
    if newer then (s.modCf (fun c => { c with map := c.map.put l p })).add CF_GEN_NEXT.generation 1
    else s.flag CF_STATUS.tag_rejected true

/-- Warden firmware writes logical sector l by R371: the next usable sector is erased, its data lines are programmed, and
its tag last. With no usable sector nothing changes. -/
def Dev.replaceSector (s : Dev) (l : Nat) (lines : Tbl FlashLine) : Dev :=
  match s.nextSector with
  | none => s
  | some p =>
    let n := s.nextErases p
    let s := s.put CF_ROTATE.next ((p + 1) % 512)
    let x : Sector := { lines := (lines.erase 255).put 255 (tagLine l (s.get CF_GEN_NEXT.generation)), sealed := true, erases := n }
    ((s.putSector p x).noteErase p n).readTag p

/-- How many sectors R371 could take. -/
def Dev.usableCount (s : Dev) : Nat := ((List.range 512).filter (fun p => s.usable p)).length

/-- Line i of logical sector l; erased where the sector is not mapped. -/
def Dev.logicalLine (s : Dev) (l i : Nat) : FlashLine :=
  match s.cf.map.find l with
  | some p => (s.sector p).shown i
  | none => erasedLine

/-- Program line i of logical sector l where it is mapped. -/
def Dev.programLogical (s : Dev) (l i : Nat) (d : FlashLine) : Dev :=
  match s.cf.map.find l with
  | some p => s.putSector p ((s.sector p).program i d)
  | none => s

/-- The first line below 255 of a logical sector whose bytes 0 to 3 read erased. -/
def Dev.freeLineOf (s : Dev) (l : Nat) : Option Nat :=
  (List.range 255).find? (fun i => fld (s.logicalLine l i) 0 32 = 0xffffffff)

/-! ### Records of R378, R379 and the key record's place (R369) -/

/-- Append a record line to the pair of logical sectors l, l + 1: the next erased line of the one in use, else line 0 of
the other after its replacement (R371, R378). `last` is the sector that holds the record in force. -/
def Dev.appendRecord (s : Dev) (l last : Nat) (d : FlashLine) : Dev :=
  match s.cf.map.find last, s.freeLineOf last with
  | some _, some i => s.programLogical last i d
  | _, _ => s.replaceSector (if last = l && (s.cf.map.find last).isSome then l + 1 else l) [(0, d)]

/-- A record's CRC over its first 252 bytes stands in bytes 252 to 255 (R378). -/
def recordCrcOk (d : FlashLine) : Bool := fld d 2016 32 = crc32c (bytesOf d.toNat 252)

/-- The valid records of a magic in the pair of sectors l, l + 1: (sequence, sector, line). -/
def Dev.records (s : Dev) (l magic : Nat) : List (Nat × Nat × FlashLine) :=
  [l, l + 1].flatMap (fun k =>
    if (s.cf.map.find k).isNone then []
    else ((List.range 255).map (fun i => s.logicalLine k i)).filterMap (fun d =>
      if fld d 0 32 = magic && recordCrcOk d then some (fld d 32 32, k, d) else none))

/-- The valid record with the highest sequence. -/
def newest (l : List (Nat × Nat × FlashLine)) : Option (Nat × Nat × FlashLine) :=
  l.foldl (fun b r => match b with | none => some r | some x => if x.1 ≤ r.1 then some r else some x) none

/-- The slot record in force (R378). -/
def Dev.slotRecord (s : Dev) : Option (Nat × Nat × FlashLine) := newest (s.records 320 (ascii "ZSLT"))
def slotBoltActive (d : FlashLine) : Nat := fld d 64 1
def slotWardenNext (d : FlashLine) : Nat := fld d 65 1
/-- A slot's state (1 authenticated), signer and revision; slots 0 to 3 are Warden 0, Warden 1, Bolt 0, Bolt 1. -/
def slotState (d : FlashLine) (k : Nat) : Nat := fld d (80 + 8 * k) 8
def slotSigner (d : FlashLine) (k : Nat) : Nat := fld d (112 + 8 * k) 8
def slotRevision (d : FlashLine) (k : Nat) : Nat := fld d (144 + 64 * k) 64

/-- The slot record in force, or one with every slot empty. -/
def Dev.slots (s : Dev) : FlashLine :=
  match s.slotRecord with
  | some (_, _, d) => d
  | none => BitVec.ofNat 2048 (pack [(112, 32, 0xffffffff)])

/-- Write a new slot record with the given fields (R378). -/
def Dev.writeSlots (s : Dev) (boltActive wardenNext : Nat) (states signers revs : List Nat) : Dev :=
  let (seq, last) := match s.slotRecord with
    | some (n, k, _) => (n + 1, k)
    | none => (1, 320)
  let body := pack [(0, 32, ascii "ZSLT"), (32, 32, seq), (64, 1, boltActive), (65, 1, wardenNext),
    (80, 32, ofBytes states), (112, 32, ofBytes signers), (144, 256, revs.foldr (fun v a => v % 2 ^ 64 + 2 ^ 64 * a) 0)]
  s.appendRecord 320 last (BitVec.ofNat 2048 (body + (crc32c (bytesOf body 252)) <<< 2016))

/-- The slot record again with slot k's state, signer and revision replaced, and the active bits given. -/
def Dev.setSlot (s : Dev) (k st signer rev boltActive wardenNext : Nat) : Dev :=
  let d := s.slots
  let pick (f : FlashLine → Nat → Nat) (v : Nat) := (List.range 4).map (fun i => if i = k then v else f d i)
  s.writeSlots boltActive wardenNext (pick slotState st) (pick slotSigner signer) (pick slotRevision rev)

/-! ### Deadbolt marks (R379 to R381) -/

/-- The mark of a Deadbolt entry. -/
def markLine (opt pcc source kind : Nat) : FlashLine :=
  let low := pack [(0, 32, ascii "ZDBM"), (32, 48, opt), (80, 32, pcc), (112, 10, source), (122, 6, kind)]
  BitVec.ofNat 2048 (pack [(0, 128, low), (128, 32, 0xffffffff), (160, 32, crc32c (bytesOf low 16)), (192, 1856, 2 ^ 1856 - 1)])

/-- An unconsumed mark (R380): its source, kind, OPT and PCC. -/
def markOf (d : FlashLine) : Option (Nat × Nat × BitVec 48 × Nat) :=
  if fld d 0 32 = ascii "ZDBM" && fld d 160 32 = crc32c (bytesOf d.toNat 16) && fld d 128 32 = 0xffffffff then
    some (fld d 112 10, fld d 122 6, BitVec.ofNat 48 (fld d 32 48), fld d 80 32)
  else none

/-- The unconsumed marks of sectors 324 and 325, with their places. -/
def Dev.marks (s : Dev) : List (Nat × Nat × (Nat × Nat × BitVec 48 × Nat)) :=
  [324, 325].flatMap (fun l => (List.range 255).filterMap (fun i => (markOf (s.logicalLine l i)).map (fun m => (l, i, m))))

/-- Begin the mark program in the first erased line of the active mark sector (R380). -/
def Dev.startMark (s : Dev) (d : FlashLine) : Dev :=
  let l := 324 + s.get CF_MARK_CFG.active
  match s.cf.map.find l, s.freeLineOf l with
  | some p, some i =>
    let s := s.modCf (fun c => { c with
      op := .mark p i d
      suspended := false
      markWaits := none })
    (s.put CF_STATUS.op 3).flag CF_STATUS.busy true
  | _, _ => s.modCf (fun c => { c with markWaits := none })

/-- CF at Deadbolt entry (R380): a running program is waited for, a running erase is suspended and never resumed. -/
def Dev.deadboltMark (s : Dev) (source kind : Nat) : Dev :=
  if s.bit CF_STATUS.scan_done then
    let d := markLine s.opt.toNat s.pcc source kind
    match s.cf.op with
    | .program _ _ _ => s.modCf (fun c => { c with markWaits := some d })
    | .erase _ _ =>
      let s := s.modCf (fun c => { c with suspended := true })
      ((s.flag CF_STATUS.suspended true).flag CF_STATUS.busy false).startMark d
    | _ => s.startMark d
  else s

end Sys2Proof.Machine
end

