-- ==== Sys2Proof/Machine/Candidates.lean ====
section
/-! DEFINITION. Which command each queue presents to arbitration (R55, R56, R82, R88, R106, R126, R127), and the deficits of
what presents none (R91). -/

namespace Sys2Proof.Machine
open Reg

def Command.op (c : Command) : Nat := Pkt.opcode c.pkt
def Command.lo (c : Command) : Nat := Pkt.slba c.pkt
def Command.hi (c : Command) : Nat := Pkt.slba c.pkt + Pkt.nlb c.pkt


/-! ### The checks of R56 -/

def ioOpcodes : List Nat := [0x01, 0x02, 0x03, 0x04, 0x05, 0x06, 0x08, 0x09]
def adminOpcodes : List Nat := [0x80, 0x81, 0x82, 0x83, 0x84, 0x85, 0x86, 0x87, 0x88, 0x89, 0x8a, 0x8b, 0x8c, 0x8d, 0x8e, 0x8f, 0x90]

/-- The legal nlb of an opcode (R126). -/
def nlbRange (op : Nat) : Nat × Nat :=
  if op = 0x01 || op = 0x02 || op = 0x05 || op = 0x08 then (1, 1024)
  else if op = 0x04 then (1, 16777216)
  else if op = 0x06 then (1, 65536)
  else if op = 0x88 then (0, 1024)
  else (0, 0)

/-- The flags of byte 1 an opcode allows, hint and hint_valid as one mask (the table after R127). -/
def flagMask (op : Nat) : Nat :=
  if op = 0x01 then 0x7f
  else if op = 0x02 then 0x0a
  else if op = 0x04 then 0x0c
  else if op = 0x06 || op = 0x08 then 0x7c
  else if op = 0x03 || op = 0x05 || op = 0x09 then 0x08
  else if op = 0x81 || op = 0x88 then 0x02
  else 0

/-- Which fields a command uses: nsid (0 unused, 1 needed, 2 may be 0), slba, addr, the bits of cdw_a and of cdw_b (bit 0 is
byte 36's), and whether a field rule of the command's own section is broken by the packet alone. -/
structure Uses where
  ns : Nat := 0
  slba : Bool := false
  addr : Bool := false
  cdwA : Nat := 0
  cdwB : Nat := 0
  bad : Bool := false
deriving DecidableEq, Repr

/-- The bits of cdw_b from byte lo to byte hi. -/
def bBytes (lo hi : Nat) : Nat := (2 ^ (8 * (hi + 1 - lo)) - 1) * 2 ^ (8 * (lo - 36))

/-- The fields an I/O opcode uses (R130 to R141). -/
def usesIo (p : Packet) : Uses :=
  let a := Pkt.cdwA p
  match Pkt.opcode p with
  | 0x01 => { ns := 1, slba := true, addr := Pkt.pull p, bad := Pkt.gather p && !Pkt.pull p }
  | 0x02 => { ns := 1, slba := true, addr := true }
  | 0x03 => { ns := 2 }
  | 0x04 => { ns := 1, slba := true }
  | 0x05 => { ns := 1, slba := true }
  | 0x06 => { ns := 1, slba := true }
  | 0x08 => { ns := 1, slba := true, cdwA := 0x1ff, cdwB := bBytes 36 51 }
  | _ => { cdwA := 0xff03, bad := a % 4 = 3 || (a % 4 ≠ 1 && bitsOf a 8 8 ≠ 0) }

/-- The fields an admin opcode uses (R142 to R158). The spec does not say what a Firmware Download piece whose nlb is 0, or a
commit whose nlb is not 0, fails with: they are Invalid Field (log 91). -/
def usesAdmin (p : Packet) : Uses :=
  let a := Pkt.cdwA p
  match Pkt.opcode p with
  | 0x80 => { ns := if a % 256 = 1 then 1 else 0, addr := true, cdwA := 0xff, bad := 2 < a % 256 }
  | 0x81 => { addr := true, cdwA := 0xff, cdwB := bBytes 36 47 }
  | 0x82 => { cdwA := 0xff, cdwB := bBytes 36 39 }
  | 0x83 => { cdwA := 0xff }
  | 0x84 => { addr := true, cdwA := 0x3fffff, cdwB := 0x3ff + 0xff * 2 ^ 16 + 0x3ff * 2 ^ 32 }
  | 0x85 => { cdwA := 0x1ff }
  | 0x86 => { cdwA := 0x101ff, cdwB := bBytes 36 39 }
  | 0x87 => { cdwA := 0xffff01ff, bad := a % 512 = 0 }
  | 0x88 =>
    if a % 2 = 1 then { cdwA := 3, cdwB := bBytes 36 39, bad := Pkt.nlb p ≠ 0 || Pkt.gather p || 8388608 < Pkt.cdwB p 36 32 }
    else { addr := true, cdwA := 3, cdwB := bBytes 36 39, bad := Pkt.nlb p = 0 || Pkt.cdwB p 36 32 % 4096 ≠ 0 }
  | 0x89 => { cdwA := 0x101 }
  | 0x8a => {}
  | 0x8b => {}
  | 0x8c =>
    if a % 4 = 0 then { addr := bitsOf a 8 1 = 1, cdwA := 0x103, cdwB := bBytes 36 43,
                        bad := Pkt.cdwB p 36 64 < 16 || Pkt.cdwB p 36 64 % 16 ≠ 0 }
    else if a % 4 = 1 then { ns := 1, cdwA := 3 }
    else { cdwA := 3, bad := true }
  | 0x8d =>
    { ns := if a % 16 < 2 then 1 else 0, addr := 1 ≤ a % 16 && a % 16 ≤ 4,
      cdwA := if a % 16 = 2 || a % 16 = 3 then 0x30f else 0xf, bad := 4 < a % 16 }
  | 0x8e => { cdwB := bBytes 36 43 }
  | 0x8f => { cdwA := 0xffffffff }
  | _ =>
    if a % 2 = 1 then { cdwA := 1 }
    else { cdwA := 1, cdwB := bBytes 36 45, bad := Pkt.cdwB p 36 64 = 0 || 511 < Pkt.cdwB p 44 16 }

/-- A reserved or unused field is not 0, or a flag is not legal (R55). -/
def fieldsBad (p : Packet) (pcheck : Bool) (u : Uses) : Bool :=
  u.bad || Pkt.flags p &&& flagMask (Pkt.opcode p) ≠ Pkt.flags p || (Pkt.hint p ≠ 0 && !Pkt.hintValid p)
    || fld p 48 16 ≠ 0 || fld p 272 16 ≠ 0 || fld p 416 32 ≠ 0 || fld p 464 16 ≠ 0
    || (!pcheck && Pkt.check p ≠ 0) || (!u.slba && Pkt.slba p ≠ 0) || (!u.addr && Pkt.addr p ≠ 0)
    || (!Pkt.gather p && Pkt.gcount p ≠ 0) || Pkt.cdwA p &&& u.cdwA ≠ Pkt.cdwA p
    || Pkt.cdwB p 36 128 &&& u.cdwB ≠ Pkt.cdwB p 36 128 || (u.ns = 0 && Pkt.nsid p ≠ 0)

/-- An address breaks its alignment (R54): 16 bytes for a gather segment, 4096 where the opcode names that, else 4; or the
first gather segment has a number of entries outside 1 to 256 (R54, R73; log 77). -/
def addrBad (p : Packet) (u : Uses) : Bool :=
  u.addr && (Pkt.addr p % 4 ≠ 0 || (Pkt.gather p && (Pkt.addr p % 16 ≠ 0 || Pkt.gcount p = 0 || 256 < Pkt.gcount p))
    || ((Pkt.opcode p = 0x80 || Pkt.opcode p = 0x84) && Pkt.addr p % 4096 ≠ 0))

/-- The first failing check of R56 (none: every check passes). -/
def Dev.check56 (s : Dev) (queue : Nat) (pcheck : Bool) (p : Packet) : Option (BitVec 16) :=
  let op := Pkt.opcode p
  let u := if queue = 0 then usesAdmin p else usesIo p
  let ns := s.mp.ns.find (Pkt.nsid p)
  if !(if queue = 0 then adminOpcodes else ioOpcodes).contains op then some St.invalidOpcode
  else if fieldsBad p pcheck u then some St.invalidField
  else if (u.ns = 1 || (u.ns = 2 && Pkt.nsid p ≠ 0)) && ns.isNone then some St.invalidNamespace
  else if Pkt.nlb p < (nlbRange op).1 || (nlbRange op).2 < Pkt.nlb p
      || (u.slba && (ns.map (fun n => n.size)).getD 0 < Pkt.slba p + Pkt.nlb p) then some St.lbaOutOfRange
  else if addrBad p u then some St.invalidGatherList
  else none

/-- The device is Sealed (R280). -/
def Dev.isSealed (s : Dev) : Bool := s.bit RC_STATUS.sealed

/-- The status that ends a command at its start: R56, then the Sealed column of R126. Peer writes meet the Sealed rule only,
since the device built their packets (R139). -/
def Dev.startStatus (s : Dev) (c : Command) : Option (BitVec 16) :=
  let op := Pkt.opcode c.pkt
  let sealRejects := s.isSealed && (op = 0x01 || op = 0x04 || op = 0x06 || op = 0x09 || (op = 0x8c && Pkt.cdwA c.pkt % 4 < 2))
  if c.peer.isSome then
    if (s.mp.ns.find (Pkt.nsid c.pkt)).isNone then some St.invalidNamespace
    else if Pkt.nlb c.pkt = 0 || 16 < Pkt.slba c.pkt % 16 + Pkt.nlb c.pkt
        || ((s.mp.ns.find (Pkt.nsid c.pkt)).map (fun n => n.size)).getD 0 < Pkt.slba c.pkt + Pkt.nlb c.pkt then some St.lbaOutOfRange
    else if s.isSealed then some St.capacitySealed else none
  else
    let pcheck := match s.queue c.port c.queue with | some u => u.pcheck | none => false
    match s.check56 c.queue pcheck c.pkt with
    | some st => some st
    | none => if sealRejects then some St.capacitySealed else none

/-! ### Candidates (R87 to R97) -/

/-- Admin commands that Holding permits (the Holding column of R126). -/
def runsInHolding (op : Nat) : Bool :=
  (0x80 ≤ op && op ≤ 0x87) || op = 0x8b || op = 0x8e || op = 0x90

/-- A command's cost in start units (R89). -/
def Command.cost (c : Command) : Nat :=
  let op := c.op
  if (op = 0x01 || op = 0x02 || op = 0x05 || op = 0x06 || op = 0x08) && c.lo < c.hi then
    min 64 ((c.hi - 1) / 16 - c.lo / 16 + 1)
  else 1

/-- OP6 permits the start of the queue's head (R106). -/
def orderedPermits (all : List Command) (head : Command) : Bool :=
  let ahead := all.filter (fun c => c.acc < head.acc)
  (!Pkt.ordered head.pkt || ahead.isEmpty) && !ahead.any (fun c => Pkt.ordered c.pkt)

/-- A command accepted after a Queue Restart of its queue started is held until the restart has completed (R115). -/
def Dev.restartHolds (s : Dev) (p q acc : Nat) : Bool :=
  s.qe.cmds.any (fun r => r.port == p && r.queue = 0 && r.op = 0x86 && Pkt.cdwA r.pkt % 512 = q && r.seen ≤ acc
    && (match r.done with | some d => d.status = St.success | none => false))

/-- The candidate that queue q of port p presents (R88, R127, R332). While the port is Holding, the wake audit included, an I/O
command is held and not rejected (R249): it waits even where a check of R56 would fail it (log 81). -/
def Dev.candidate (s : Dev) (p q : Nat) (u : Queue) : Option Command :=
  match s.fifo p q with
  | [] => none
  | h :: _ =>
    let port := s.port p
    let admitted := port.state == .running ||
      (port.state == .holding && q = 0 && (runsInHolding h.op || (s.check56 q u.pcheck h.pkt).isSome))
    if u.state == .active && admitted && s.qe.hold.isNone && !s.qe.dead && s.mayIssue p && orderedPermits (s.cmdsOf p q) h
      && !s.restartHolds p q h.acc then some h else none

/-- All candidates: (port, queue, class, command), in ascending order of port and queue. -/
def Dev.candidates (s : Dev) : List (Nat × Nat × QClass × Command) :=
  s.qe.queues.filterMap (fun e => (s.candidate (e.1 / 1024) (e.1 % 1024) e.2).map (fun c => (e.1 / 1024, e.1 % 1024, e.2.cls, c)))

/-- The work that a Sealed device still does: bank refreshes and rebuilds (R280). -/
def UnitWhy.whenSealed : UnitWhy → Bool
  | .bankRefresh _ => true
  | .rebuild _ => true
  | _ => false

/-- The unit RC offers next (R268): none in a hold, in Hasp (R272) or in Deadbolt, and of a Sealed device only R280's work. -/
def Dev.offered (s : Dev) : Option Unit_ :=
  if s.qe.hold.isNone && !s.qe.dead && s.pw.phase != .preparing && s.pw.phase != .committing then
    s.rc.units.find? (fun u => !u.started && (!s.isSealed || u.why.whenSealed))
  else none

/-- A Reclaim candidate's turn number in an Urgent round-robin, and its class number (log 13). -/
def reclaimKey : Nat := 513
/-- A turn's share number of a weighted class: W0 to W3 and Reclaim. -/
def classNo : QClass → Nat
  | .urgent => 0
  | .w0 => 1
  | .w1 => 2
  | .w2 => 3
  | .w3 => 4

/-- A deficit is zeroed when its queue stops presenting a candidate (R91); those of a class and of a port too (log 81). Every
step after which one may have stopped ends with this. -/
def Dev.zeroDeficits (s : Dev) : Dev :=
  let cs := s.candidates
  let off := s.offered
  let live (p q : Nat) : Bool := (q = reclaimKey && off.isSome) || cs.any (fun c => c.1 = p && c.2.1 = q)
  let liveClass (p k : Nat) : Bool := (k = 5 && off.isSome) || cs.any (fun c => c.1 = p && classNo c.2.2.1 = k)
  let livePort (p : Nat) : Bool := off.isSome || cs.any (fun c => c.1 = p)
  s.modQe (fun e => { e with arb := { e.arb with
    queueDeficit := e.arb.queueDeficit.filter (fun d => live (d.1 / 1024) (d.1 % 1024))
    classDeficit := e.arb.classDeficit.filter (fun d => liveClass (d.1 / 8) (d.1 % 8))
    portDeficit := e.arb.portDeficit.filter (fun d => livePort d.1) } })

end Sys2Proof.Machine
end

