-- ==== Sys2Proof/Machine/QueueOps.lean ====
section
/-! DEFINITION. What QE does inside many steps: the Error Log and Freeze packet of a freeze or a drop (R51, R81, R111, R112),
the end of grants (R70), a command's completion (R86, R107), the overlap hazard tracker (R108 to R110), and the settling of
a queue deletion (R121). -/

namespace Sys2Proof.Machine
open Reg

/-! ### Freeze and drop -/

/-- The unit an Error Log entry names as the one that detected the failure (R113; log 22). -/
def errSource (port : Nat) (status : BitVec 16) : Nat :=
  if status = St.unrecoveredRead then Src.cd
  else if status = St.unrecoveredMapRead then Src.mp
  else if status = St.capacitySealed then Src.rc
  else if status = St.containedError then Src.cx
  else if status = St.hostAccessError || status = St.hostDataPoisoned || status = St.hostAccessWithdrawn then Src.port port
  else Src.qe

/-- One Error Log entry and its Freeze packet on queue q of port p; an I/O queue freezes (R51, R81, R111, R112). `c` is the
failed command, none for a dropped packet; src the unit that detected it, where that is not errSource's. -/
def Dev.freezeWith (s : Dev) (p q : Nat) (c : Option Command) (status : BitVec 16) (lba : Option Qword)
    (detail : Nat) (src : Option Nat := none) : Dev :=
  match s.queue p q with
  | none => s
  | some u =>
    let seq := (s.port p).errSeq
    let held := (s.fifo p q).length
    let dropped := min u.sinceFreeze 65535
    let e : ErrEntry := {
      errorSeq := seq, queue := q, port := p, tagValid := c.isSome, lba := lba,
      opcode := BitVec.ofNat 8 (match c with | some c => Pkt.opcode c.pkt | none => 0),
      tag := BitVec.ofNat 16 (match c with | some c => Pkt.tag c.pkt | none => 0),
      status := status, source := src.getD (errSource p status), held := min held 65535,
      slba := BitVec.ofNat 64 (match c with | some c => Pkt.slba c.pkt | none => 0),
      nlb := BitVec.ofNat 32 (match c with | some c => Pkt.nlb c.pkt | none => 0),
      detail := BitVec.ofNat 32 detail, opt := s.opt, dropped := dropped,
      acceptance := (match c with | some c => c.acc | none => 0) }
    let s := s.modPort p (fun pt => { pt with
      errSeq := (pt.errSeq + 1) % 2 ^ 32,
      errLog := (pt.errLog ++ [e]).drop (pt.errLog.length + 1 - 256) })
    let s := s.modQueue p q (fun u => { u with
      newestErr := some seq, sinceFreeze := 0,
      state := if q = 0 || u.state = .deleting then u.state else .frozen })
    let s := s.toRing p q { bits := freezePkt (c.map (fun c => Pkt.tag c.pkt)) status.toNat q dropped held seq,
                            atOnce := true }
    if q = 0 then s
    else ((s.record 0x0401 Src.qe 2 false (p * 65536 + q) status.toNat seq).raise (Irq.qe p 0)).zeroDeficits

/-- Drop a packet of queue q for the stated reason (R51). -/
def Dev.dropPacket (s : Dev) (p q : Nat) (reason : BitVec 16) : Dev :=
  let s := s.modQueue p q (fun u => { u with dropped := min (u.dropped + 1) 65535, sinceFreeze := u.sinceFreeze + 1 })
  s.freezeWith p q none reason none 0

/-! ### Grants -/

def Dev.grantsOf (s : Dev) (acc : Nat) : List Grant := s.qe.grants.filter (fun g => g.acc = acc)

/-- End a command's grants. A slot whose grant had not completed is quarantined (R70); lines received for it are discarded
with it. -/
def Dev.endGrants (s : Dev) (acc : Nat) : Dev :=
  let ended := (s.grantsOf acc).filter (fun g => !g.complete && g.bar != 0)
  s.modQe (fun e => { e with
    grants := e.grants.filter (fun g => g.acc != acc),
    slotQ := e.slotQ ++ ended.map (fun g => ⟨g.port, g.bar, g.slot, s.now⟩) })

/-- BM occupancy against pressure_pct: sources 52 and 53 at each crossing (R354). -/
def Dev.notePressure (s : Dev) : Dev :=
  let high := s.bm.gib != 0 && s.get MS_PROG_CFG.pressure_pct * (s.bm.gib * 16384) ≤ s.bm.used * 100
  if high && !s.bm.pressured then (s.modBm (fun b => { b with pressured := true })).raise Irq.bufferHigh
  else if !high && s.bm.pressured then (s.modBm (fun b => { b with pressured := false })).raise Irq.bufferLow
  else s

/-- Release n buffer granules (R24). -/
def Dev.releaseBuffer (s : Dev) (n : Nat) : Dev :=
  (s.modBm (fun b => { b with used := b.used - n })).notePressure

/-- Release the reservations of a command that fails before its commit point (R24). -/
def Dev.releaseParts (s : Dev) (c : Command) : Dev :=
  s.releaseBuffer (c.parts.filter (fun p => p.reserved)).length

/-! ### Completion -/

/-- Queue the Completion packet of a command: on its queue's ring, or for a peer write on the source's notice area
(R62, R341). -/
def Dev.queueCompletion (s : Dev) (c : Command) (d : Done) (after : List Nat) : Dev :=
  match c.peer with
  | some src => s.toRing c.port peerQ { bits := completionPkt src.request.toNat 0xffff d, cmd := some c.acc, dest := some src.bar4 }
  | none => s.toRing c.port c.queue { bits := completionPkt (Pkt.tag c.pkt) c.queue d, cmd := some c.acc, after := after }

/-- A command's place in commit order (R124). -/
def Dev.numberCommit (s : Dev) (acc : Nat) : Dev :=
  (s.modCmd acc (fun c => { c with commitNo := s.qe.nextCommit })).modQe (fun e => { e with nextCommit := e.nextCommit + 1 })

/-- The commit point of a command that no freeze follows: its completion is fixed and queued (R86). -/
def Dev.commitWith (s : Dev) (acc : Nat) (d : Done) (after : List Nat) : Dev :=
  match s.cmd acc with
  | none => s
  | some c =>
    if c.phase == .committed then s
    else ((s.numberCommit acc).modCmd acc (fun c => { c with phase := .committed, done := some d })).queueCompletion c d after

/-- A command completes with Success. -/
def Dev.succeed (s : Dev) (acc : Nat) (result : Nat) (result2 : Nat) : Dev :=
  s.commitWith acc { status := St.success, result := BitVec.ofNat 64 result, result2 := BitVec.ofNat 32 result2 } []

/-- End a command before its commit point with a failing status: its grants end, its buffered data is discarded, its
completion is queued, and an I/O queue freezes where R111 says so. -/
def Dev.failWith (s : Dev) (acc : Nat) (d : Done) (detail : Nat) (src : Option Nat := none) : Dev :=
  match s.cmd acc with
  | none => s
  | some c =>
    if c.committed then s
    else
      let s := (s.endGrants acc).releaseParts c
      let s := s.modCmd acc (fun c => { c with parts := [], fetch := none })
      let s := s.commitWith acc d []
      if 1 ≤ c.queue && c.queue ≤ 511 && St.freezes d.status then
        s.freezeWith c.port c.queue (some c) d.status d.lba detail src
      else s

/-- A command fails with a status that carries nothing else. -/
def Dev.fail (s : Dev) (acc : Nat) (status : BitVec 16) : Dev := s.failWith acc { status := status } 0

/-- A media failure: the first failing block and the highest ladder tier tried (R129, R113). -/
def Dev.failMedia (s : Dev) (acc : Nat) (status : BitVec 16) (lba tier : Nat) : Dev :=
  s.failWith acc { status := status, lba := some (BitVec.ofNat 64 lba) } tier

/-! ### Queue deletion -/

/-- Whether a queue being deleted has posted everything it owes (R121). -/
def Dev.deleteDone (s : Dev) (p q : Nat) : Bool :=
  match s.queue p q with
  | some u => u.state == .deleting && u.waiting.isEmpty && (s.cmdsOf p q).isEmpty
  | none => false

/-- Drop a deleted queue whose completions are all posted and complete its Queue Delete (R121). -/
def Dev.settleDelete (s : Dev) (p q : Nat) : Dev :=
  match s.queue p q with
  | none => s
  | some u =>
    if s.deleteDone p q then
      let s := s.modQe (fun e => { e with queues := e.queues.erase (qkey p q) })
      let s := s.raise (Irq.qe p 4)
      match u.deleter with
      | some a => s.succeed a 0 0
      | none => s
    else s

/-! ### Queue restart (R115) -/

/-- A queue becomes active. -/
def Dev.unfreeze (s : Dev) (p q : Nat) : Dev := s.modQueue p q (fun u => { u with state := .active })

/-- A Discard whose Discarded completions are all posted makes its queue active, unless the queue has frozen again since
(log 81); what it held meanwhile is as old as that (R95). -/
def Dev.settleRestart (s : Dev) (c : Command) : Dev :=
  match c.discards with
  | none => s
  | some l =>
    if l.any (fun a => (s.cmd a).isSome) then s
    else
      let q := Pkt.cdwA c.pkt % 512
      let s := s.modCmd c.acc (fun c => { c with discards := none })
      let s := if ((s.queue c.port q).bind (fun u => u.newestErr)) = some (Pkt.cdwB c.pkt 36 32) then s.unfreeze c.port q else s
      s.each (s.fifo c.port q) (fun s x => s.modCmd x.acc (fun x => { x with origin := s.now }))

def Dev.settleRestarts (s : Dev) (p : Nat) : Dev := s.each (s.qe.cmds.filter (fun c => c.port == p)) (fun s c => s.settleRestart c)

/-! ### The overlap hazard tracker (R108) -/

def writeClass (op : Nat) : Bool := op = 0x01 || op = 0x04 || op = 0x06
def readClass (op : Nat) : Bool := op = 0x02 || op = 0x05 || op = 0x08
/-- The two commands name a common block of one namespace. -/
def overlap (a b : Command) : Bool := Pkt.nsid a.pkt = Pkt.nsid b.pkt && a.lo < b.hi && b.lo < a.hi

/-- A command's range meets blocks [lo, hi). -/
def Command.meets (a : Command) (lo hi : Nat) : Bool := a.lo < hi && lo < a.hi

/-- A held command of a frozen queue, which has left the cross-queue order (R110). -/
def Dev.outOfOrder (s : Dev) (a : Command) : Bool :=
  a.phase == .held && (match s.queue a.port a.queue with | some u => u.state == .frozen | none => false)

/-- Read-class command b must not yet take the blocks [lo, hi): an earlier write-class command that shares one of them has
neither committed nor failed (R108). -/
def Dev.readWaits (s : Dev) (b : Command) (lo hi : Nat) : Bool :=
  s.qe.cmds.any (fun a => a.order < b.order && writeClass a.op && !a.committed && Pkt.nsid a.pkt = Pkt.nsid b.pkt
    && a.meets lo hi && !s.outOfOrder a)

/-- Write-class command b may get no grant and pass no commit point for granule g: an earlier read-class command that
overlaps b touches g and has not taken that granule's data (R108). -/
def Dev.writeWaits (s : Dev) (b : Command) (g : Nat) : Bool :=
  s.qe.cmds.any (fun a => a.order < b.order && readClass a.op && !a.committed && overlap a b && a.meets (16 * g) (16 * g + 16)
    && !s.outOfOrder a && (a.parts.isEmpty || a.parts.any (fun p => p.granule = g && p.st != .ready)))

/-- The granules a command's range touches, with the first block and the block count of each (R64). -/
def partsOf (slba nlb : Nat) : List Part :=
  if nlb = 0 then []
  else
    let g0 := slba / 16
    let g1 := (slba + nlb - 1) / 16
    (List.range (g1 - g0 + 1)).map (fun i =>
      let g := g0 + i
      let first := if i = 0 then slba % 16 else 0
      let last := if g = g1 then (slba + nlb - 1) % 16 else 15
      { granule := g, first := first, count := last + 1 - first })

end Sys2Proof.Machine
end

