-- ==== Sys2Proof/Machine/Fault.lean ====
section
/-! DEFINITION. FT and the Deadbolt state as shared operations (R411 to R432): classification, capture, escalation, the
privileged path, Deadbolt entry with what each unit does at it, and the inject controls. -/

namespace Sys2Proof.Machine
open Reg

/-! ### Maintenance lock and thermal extremes, which Deadbolt entry and the fault window use -/

/-- Lock the maintenance port (R464). -/
def Dev.lockMt (s : Dev) : Dev := s.modMt (fun m => { m with unlocked := false })

/-! ### What QE does at Deadbolt entry (R124) -/

/-- A FUA write or another command whose completion was fixed at its commit point and still waits: queue it now. -/
def Dev.finishWaiting (s : Dev) (acc : Nat) : Dev :=
  match s.cmd acc with
  | some c =>
    match c.phase, c.done with
    | .durable, some d => (s.modCmd acc (fun c => { c with phase := .committed })).queueCompletion c d []
    | _, _ => s
  | none => s

/-- The port's state becomes Deadbolt once its last completion is posted; vector 512 is signalled then (R124, R336). -/
def Dev.settleDeadPort (s : Dev) (p : Nat) : Dev :=
  if s.qe.dead && !(s.port p).deadSignalled && !s.qe.cmds.any (fun c => c.port == p) then
    (s.modPort p (fun pt => { pt with state := .deadbolt, deadSignalled := true })).signal p 512
  else s

/-- An outstanding command that has not committed ends with Device Fault and the effects of R118. -/
def Dev.deadCmd (s : Dev) (a : Nat) : Dev :=
  match s.cmd a with
  | some c =>
    (((s.endGrants a).releaseParts c).modCmd a (fun c => { c with parts := [], fetch := none })).commitWith a
      { status := St.deviceFault } []
  | none => s

/-- The waiting completions of every queue in commit order (R124). -/
def Dev.inCommitOrder (s : Dev) : Dev :=
  let no (r : RingPkt) : Nat := ((r.cmd.bind (fun a => s.cmd a)).map (fun c => c.commitNo)).getD 0
  s.modQe (fun e => { e with
    queues := e.queues.map (fun q => (q.1, { q.2 with waiting := sortBy (fun a b => no a ≤ no b) q.2.waiting })) })

/-- R124: waiting packets that are no completions are discarded, waiting notices too; committed commands keep their
completions, in commit order, and every other outstanding command gets Device Fault in acceptance order. -/
def Dev.deadQe (s : Dev) : Dev :=
  let s := s.modQe (fun e => { e with
    dead := true
    hold := none
    queues := e.queues.map (fun q => (q.1, { q.2 with waiting := q.2.waiting.filter (fun r => ringType r.bits = 1) })) })
  let s := s.each [0, 1] (fun s p => s.modPort p (fun pt => { pt with notices := [] }))
  let s := s.each ((s.qe.cmds.filter (fun c => c.phase == .durable)).map (·.acc)) (fun s a => s.finishWaiting a)
  let s := s.inCommitOrder
  let s := s.each ((s.qe.cmds.filter (fun c => !c.committed)).map (·.acc)) (fun s a => s.deadCmd a)
  s.each s.portList (fun s p => s.settleDeadPort p)

/-! ### What a cut leaves on flash (R177, R189, R290, R427) -/

/-- A sealed set as it stands on flash. -/
def WlSet.flash (x : WlSet) : OnFlash :=
  { kind := x.kind, stream := x.stream, seq := x.seq, stripe := x.stripe, successor := x.successor, ckptSeq := x.ckptSeq, opt := x.opt
    slots := x.slots, covered := x.covered, padded := x.padded, early := x.early, copies := x.copies, replica := x.replica
    events := x.events, clears := x.clears, dropped := x.dropped, snap := x.snap, pcc := x.pcc }

/-- A set whose program has begun in the array and has not been verified. -/
def Dev.inArray (s : Dev) (x : WlSet) : Bool :=
  x.place != 0 && (x.st == .programmed || s.ms.ops.any (fun o => o.kind == .program x.seq && o.st == .array))

/-- The place of a set on flash. -/
def Dev.flashSet (s : Dev) (seq : Nat) : Option Nat := (s.nand.sets.find? (fun e => e.2.seq = seq)).map (fun e => e.1)
/-- The place of a map set's other replica. -/
def Dev.twinPlace (s : Dev) (x : WlSet) : Nat :=
  (s.flashSet x.twin).getD (((s.ms.sets.find? (fun y => y.seq = x.twin)).map (fun y => y.place)).getD 0)

/-- The page copies of a map set of which this replica or the other may be read later. -/
def Dev.cutCopies (s : Dev) (x : WlSet) : List PageCopy :=
  if x.kind == .map && (s.inArray x || (s.flashSet x.twin).isSome) then
    let a := if x.replica = 0 then x.place else s.twinPlace x
    let b := if x.replica = 0 then s.twinPlace x else x.place
    x.copies.mapIdx (fun i c => { c with
      addrA := a * 16 + i
      addrB := b * 16 + i })
  else []

/-- The sequence after the last of these records. -/
def seqAfter (recs : List Event) (n : Nat) : Nat := ((recs.getLast?).map (fun r => (r.seq + 1) % 2 ^ 24)).getD n

/-- A log set cut short on both replicas: its records may have reached flash or not (R443; log 6). -/
def Dev.cutLog (s : Dev) : Dev :=
  match s.ms.sets.find? (fun x => x.kind == .log && s.inArray x && (s.flashSet x.twin).isNone) with
  | none => s
  | some x =>
    let r := s.draw
    if Config.freeBool r.1 then
      let recs := s.ev.ring.take x.count
      let clears : Bool := match s.ev.clears.head? with
        | some c => recs.any (fun e => e.seq = c.record.seq)
        | none => false
      r.2.modNand (fun n => { n with
        log := if clears then recs else n.log ++ recs
        logClears := if clears then n.logClears + 1 else n.logClears
        logDropped := x.dropped
        logSeq := seqAfter recs n.logSeq })
    else r.2

/-- A copy of a record is on flash at a place. -/
def Dev.keepRecord (s : Dev) (r : CkptRec) (place : Nat) : Dev :=
  let known := s.nand.recs.any (fun x => x.seq = r.seq)
  let more := s.nand.recs.map (fun x => if x.seq = r.seq then { x with places := x.places ++ [place] } else x)
  s.modNand (fun n => { n with recs := if known then more else n.recs ++ [{ r with places := [place] }] })

/-- What lay in erased block groups is gone: sets, copies of records, and pages of which no replica is left. -/
def Dev.forgetBlocks (s : Dev) (gone : List (Nat × Nat)) : Dev :=
  let hit (a : Nat) : Bool := gone.contains (Pga.dieLun a, Pga.block a)
  s.modNand (fun n =>
    let sets := n.sets.filter (fun e => !hit e.1)
    { n with
      sets := sets
      torn := n.torn.filter (fun a => !hit a)
      recs := (n.recs.map (fun r => { r with places := r.places.filter (fun a => !hit a) })).filter (fun r => !r.places.isEmpty)
      witness := n.witness.map (fun e => (e.1, e.2.filter (fun w => !gone.contains (e.1, w.which))))
      pages := n.pages.filter (fun c => Tbl.has sets (Pga.set (c.addrA / 16)) || Tbl.has sets (Pga.set (c.addrB / 16))) })

/-- A witness line whose verify had not ended stays on flash as one that failed: whether its footer decodes at the next wake is for the
measurement's operand to say (R245; log 88). -/
def Dev.cutWitness (s : Dev) (x : WlSet) : Dev :=
  match x.line with
  | some w =>
    let lun := Pga.dieLun x.place
    s.modNand (fun n => { n with witness := n.witness.put lun ((n.witness.find lun).getD [] ++ [w]) })
  | none => s

/-- A copy of a record whose program was cut short may have reached flash. -/
def Dev.cutRecord (s : Dev) (x : WlSet) : Dev :=
  match x.record with
  | some r => s.keepRecord r x.place
  | none => s

/-- Flash operations in progress are cut short: the sets being programmed may be torn, the block groups being erased hold
nothing. -/
def Dev.cutFlash (s : Dev) : Dev :=
  let all := s.ms.sets.filter (fun x => s.inArray x)
  let hit := all.filter (fun x => x.kind != .witness)
  let copies := s.ms.sets.flatMap (fun x => s.cutCopies x)
  let erased := (s.ms.ops.filter (fun o => o.st == .array || o.st == .suspended)).filterMap (fun o => match o.kind with
    | .erase b => some (o.lun, b)
    | _ => none)
  let s := s.cutLog.modNand (fun n => { n with
    sets := hit.foldl (fun t x => Tbl.put t x.place x.flash) n.sets
    pages := n.pages ++ copies
    cut := if hit.isEmpty then n.cut else hit.map (fun x => x.seq) })
  let s := ((s.each hit (fun s x => s.cutRecord x)).forgetBlocks erased).each (all.filter (fun x => x.kind == .witness)) (fun s x => s.cutWitness x)
  s.modMs (fun m => { m with
    sets := m.sets.filter (fun x => !all.any (fun y => y.seq = x.seq))
    ops := []
    tails := []
    claims := [] })

/-! ### Deadbolt entry (R427) -/

/-- The release flag of a power domain. -/
def domainReg (f : Fld) (d : Nat) : Fld := f.at (4 * d)
/-- Logic past the AON domain has been released (R288): the units then take part in Deadbolt entry. -/
def Dev.logicOn (s : Dev) : Bool := s.pw.wakeStep = 4

/-- FC drives WP_N low and every CE_N high on all channels; operations in progress are abandoned (R222, R427 step 2). -/
def Dev.flashOff (s : Dev) : Dev :=
  let s := s.each s.ms.wpHigh (fun s n => s.flag (fcReg n FC_STATUS.wp_released) false)
  (s.modMs (fun m => { m with
    wpHigh := []
    ceHigh := List.range 128 })).cutFlash

/-- All Bolt cores halt and descriptors in progress are abandoned (R427 steps 3 and 4). -/
def Dev.deadCores (s : Dev) : Dev :=
  let s := s.modCf (fun c => { c with stalled := [] })
  let s := { s with rings := { s.rings with desc := [], reqWait := [] } }
  (s.each (List.range 16) (fun s n => s.put (BC_CORE.state.at (4 * n)) 4)).modCores (fun c => { c with act := none })

/-- A Stop whose Commit has ended step 3 keeps its Success completion (R302). -/
def Dev.deadStop (s : Dev) : Dev :=
  match s.pw.hasp with
  | some h =>
    match h.acc with
    | some a => if 3 ≤ h.commitStep then s.succeed a h.stopOpt.toNat 0 else s
    | none => s
  | none => s

/-- DC places every rank in self-refresh (R410). -/
def Dev.deadDram (s : Dev) : Dev := if s.get DC_STATUS.state = 0 then s else s.put DC_STATUS.state 3

/-- HP raises Uncorrectable Internal Error on each port (R337). -/
def Dev.deadPorts (s : Dev) : Dev :=
  s.each s.portList (fun s p =>
    (s.modPort p (fun pt => { pt with aer := pt.aer ++ [.uncorrectableInternal] })).raise (Irq.hp p 3))

/-- Warden enters the service loop, or is held in reset after Lockstep Mismatch; EV stops writing; the port locks
(R427 steps 9 and 10, R464). -/
def Dev.deadWarden (s : Dev) (kind : Nat) : Dev :=
  (((s.modCores (fun c => { c with wardenLoop := kind != Kind.lockstep, wardenHeld := kind == Kind.lockstep })).put
    EV_STATUS.state 3).lockMt).raise Irq.deadbolt

/-- What the units do at Deadbolt entry once their domains are released (R427 steps 2 to 9). CF acts first, on what runs
in its array. -/
def Dev.deadUnits (s : Dev) (source kind : Nat) : Dev :=
  ((((((s.deadboltMark source kind).flashOff).deadCores).deadStop).deadQe).deadDram.deadPorts).deadWarden kind

/-- FT keeps the OPT of Deadbolt entry (R431). -/
def Dev.noteDeadOpt (s : Dev) : Dev := { s with ft := { s.ft with deadOpt := s.opt } }

/-- AON latches the cause (R427 step 1). -/
def Dev.latchDead (s : Dev) (source kind : Nat) (privileged : Bool) : Dev :=
  let s := (s.put PW_DEADBOLT.active 1).flag PW_DEADBOLT.privileged privileged
  (((s.put PW_DEADBOLT.kind kind).put PW_DEADBOLT.source source).flag FT_STATUS.deadbolt true).noteDeadOpt

/-- Start Deadbolt (R427): AON latches the cause, asserts FAULT_N, and the phase becomes Deadbolt. Entered once (R429). -/
def Dev.enterDeadbolt (s : Dev) (source kind : Nat) (privileged : Bool) : Dev :=
  if s.isDead then s
  else
    let s := s.latchDead source kind privileged
    let s := if s.logicOn then s.deadUnits source kind else s
    s.modPw (fun w => { w with phase := .deadbolt, faultN := true, hasp := none })

/-! ### FT (R411 to R421) -/

def Dev.capture (s : Dev) (cls : Nat) : Capture :=
  if cls = 0 then s.ft.corrected else if cls = 1 then s.ft.contained else s.ft.fatal
def Dev.setCapture (s : Dev) (cls : Nat) (c : Capture) : Dev :=
  let s := { s with ft := if cls = 0 then { s.ft with corrected := c }
                          else if cls = 1 then { s.ft with contained := c } else { s.ft with fatal := c } }
  s.put FT_STATUS.held ((s.get FT_STATUS.held / 2 ^ cls / 2 * 2 + (if c.valid then 1 else 0)) * 2 ^ cls + s.get FT_STATUS.held % 2 ^ cls)

/-- One more follower of a valid record, saturating (R418, R432). -/
def Dev.follow (s : Dev) (cls : Nat) : Dev :=
  let c := s.capture cls
  s.setCapture cls { c with followers := min (c.followers + 1) 0xffffffff }

/-- A fault message (R411). -/
structure FaultMsg where
  source : Nat
  kind : Nat
  cls : Nat
  addr : Nat := 0
  master : Nat := 0x3f
  access : Nat := 0
  injected : Bool := false
deriving DecidableEq, Repr

/-- The event record of a message (R419). -/
def Dev.recordFault (s : Dev) (m : FaultMsg) (final : Nat) (escalated : Bool) : Dev :=
  s.record (0x200 + m.kind) m.source (final + 1) false (m.addr % 2 ^ 32)
    (pack [(0, 16, m.addr / 2 ^ 32), (16, 8, m.master), (24, 4, m.access), (28, 2, final), (30, 1, if m.injected then 1 else 0),
      (31, 1, if escalated then 1 else 0)]) s.opt.toNat

/-- Write the message into its class's record, or count it as a follower where the record is valid (R418). -/
def Dev.captureMsg (s : Dev) (m : FaultMsg) (final : Nat) (escalated privileged : Bool) : Dev :=
  if (s.capture final).valid then s.follow final
  else
    let s := s.setCapture final {
      valid := true, source := m.source, kind := m.kind, cls := final, injected := m.injected, escalated := escalated,
      sent := m.cls, privileged := privileged, master := m.master, access := m.access, addr := BitVec.ofNat 48 m.addr,
      opt := s.opt, pcc := s.pcc, followers := 0 }
    if final = 0 then s.raise Irq.corrected else if final = 1 then s.raise Irq.contained else s

/-- Count a message of a class (FT_COUNT). -/
def Dev.countFault (s : Dev) (cls : Nat) : Dev := s.addSat (FT_COUNT.count.at (4 * cls)) 1

/-- A fault message at FT (R412, R417 to R421, R423): raise, escalation, count, record, capture, and Deadbolt where the
final class is fatal. In Deadbolt messages are only counted (R429). -/
def Dev.faultMsg (s : Dev) (m : FaultMsg) : Dev :=
  let raised := if m.cls < 2 && m.kind < 0x20 && s.get FT_KIND_RAISE.raise / 2 ^ m.kind % 2 = 1 then m.cls + 1 else m.cls
  if s.isDead then
    let s := s.countFault raised
    if raised = 2 then s.follow 2 else s
  else
    let escalated := raised < 2 && (s.capture raised).valid
    let final := if escalated then raised + 1 else raised
    let s := if escalated then (s.follow raised).raise Irq.escalation else s
    let s := s.countFault final
    let s := s.recordFault m final escalated
    let s := s.captureMsg m final escalated false
    if final = 2 then s.enterDeadbolt m.source m.kind false else s

/-- A contained fault. -/
def Dev.contained (s : Dev) (source kind addr master access : Nat) : Dev :=
  s.faultMsg { source := source, kind := kind, cls := 1, addr := addr, master := master, access := access }

/-- A corrected fault. -/
def Dev.corrected (s : Dev) (source kind addr master access : Nat) : Dev :=
  s.faultMsg { source := source, kind := kind, cls := 0, addr := addr, master := master, access := access }

/-- A fatal fault. -/
def Dev.fatal (s : Dev) (source kind addr access : Nat) : Dev :=
  s.faultMsg { source := source, kind := kind, cls := 2, addr := addr, access := access }

/-- A privileged signal (R422): straight to the AON latch; where FT is working it also captures the message as fatal. -/
def Dev.privileged (s : Dev) (m : FaultMsg) : Dev :=
  let ft := s.logicOn
  if s.isDead then
    if ft then (s.countFault 2).follow 2 else s
  else
    let s := if ft then ((s.countFault 2).recordFault m 2 false).captureMsg m 2 false true else s
    s.enterDeadbolt m.source m.kind true

/-! ### Inject controls (R424) -/

/-- Whether the checker of unit `src` has its inject control armed. -/
def Dev.armedFor (s : Dev) (src : Nat) : Bool := s.bit FT_INJECT.arm && s.get FT_INJECT.source = src
/-- The control disarms at the access it acts on. -/
def Dev.disarm (s : Dev) : Dev := (s.put FT_INJECT.arm 0).flag FT_STATUS.armed false

/-- Whether the checker of this source meets an injected error at this access; it disarms (R424). -/
def Dev.injectAt (s : Dev) (src : Nat) : Bool × Dev := if s.armedFor src then (true, s.disarm) else (false, s)

/-! ### Memories of QE, BM and CX (R388, R389) -/

/-- A line of one of these memories fails its check because its control was armed. The lines have no place in the internal
address space, so the address is free (log 79). -/
def Dev.unitLine (s : Dev) (src cls master : Nat) : Dev :=
  let r := s.disarm.draw
  r.2.faultMsg { source := src, kind := Kind.lineCrc, cls := cls, addr := (Config.freeWord r.1).toNat % 2 ^ 48, master := master, access := 2
                 injected := true }

/-- The command whose line failed completes with Contained Error before its commit point. -/
def Dev.lineFails (s : Dev) (acc src : Nat) : Dev := s.failWith acc { status := St.containedError } 0 (some src)

/-- The deficits of one line of the arbiter's tables restart at zero: of 16 queues of one port, of the classes of one port, or
of the ports. Which line failed is free (log 79). -/
def Dev.loseDeficits (s : Dev) : Dev :=
  let r := s.draw
  let k := (Config.freeWord r.1).toNat % 67
  let p := k % 2
  r.2.modQe (fun e => { e with arb :=
    if k = 66 then { e.arb with portDeficit := [] }
    else if k = 64 ∨ k = 65 then { e.arb with classDeficit := e.arb.classDeficit.filter (fun d => d.1 / 8 != p) }
    else { e.arb with queueDeficit := e.arb.queueDeficit.filter (fun d => !(d.1 / 1024 = p && d.1 % 1024 / 16 = k / 2)) } })

/-- A key slot's line failed: its key_valid clears until a key is loaded again. -/
def Dev.loseKey (s : Dev) (slot : Nat) : Dev :=
  let m := s.get CX_STATUS.key_valid
  let s := s.put CX_STATUS.key_valid (m - (m / 2 ^ slot % 2) * 2 ^ slot)
  { s with cx := { s.cx with slots := s.cx.slots.erase slot } }

/-! ### The fault window (R431) -/

/-- The fault window's bytes 0 to 255. -/
def Dev.faultWindow (s : Dev) : Nat :=
  let hot := BitVec.ofNat 16 (s.get TS_MAX.temp)
  pack [(0, 64, ascii "ZAONE-FW"), (64, 32, 0x10000), (96, 8, if s.isDead then 1 else 0), (104, 8, s.get PW_BOOT_CAUSE.cause),
    (128, 32, s.reg 0x20000001c), (160, 48, s.ft.deadOpt.toNat), (208, 32, s.pcc), (256, 32, s.reg 0x200000008),
    (288, 8, (hot.sshiftRight 4).toNat), (296, 8, s.get TS_MAX.sensor), (512, 256, captureBytes s.ft.corrected), (768, 256, captureBytes s.ft.contained),
    (1024, 256, captureBytes s.ft.fatal), (1280, 32, s.reg 0x201000180), (1312, 32, s.reg 0x201000184), (1344, 32, s.reg 0x201000188)]

end Sys2Proof.Machine
end

