-- ==== Sys2Proof/Machine/Geometry.lean ====
section
/-! DEFINITION. The flash geometry in force (R194, R199, R231), the block table (R262, R263), and RC's counts and
thresholds (R267, R278). A LUN is named by channel × 32 + LUN in channel. -/

namespace Sys2Proof.Machine
open Reg

/-! ### Geometry -/

/-- The populated LUN numbers of a channel, ascending (R194). -/
def Dev.lunNumbers (s : Dev) : List Nat :=
  let n := s.get FC_CFG.luns_per_ce
  List.range n ++ (if s.bit FC_CFG.ce1 then (List.range n).map (fun i => i + 16) else [])

/-- The populated LUNs in slot order: slot u × 128 + channel (R231). -/
def Dev.slotLuns (s : Dev) : List Nat := s.lunNumbers.flatMap (fun l => (List.range 128).map (fun c => c * 32 + l))

def Dev.width (s : Dev) : Nat := s.get CD_GEOMETRY.stripe_width
def Dev.bitsPerCell (s : Dev) : Nat := s.get CD_GEOMETRY.bits_per_cell
def Dev.codewords (s : Dev) : Nat := s.get MP_GEOMETRY.codewords
def Dev.slotCount (s : Dev) : Nat := s.get MP_GEOMETRY.slots
def Dev.wordLines (s : Dev) : Nat := s.get MS_GEOMETRY.wl_per_block
def Dev.blockGroups (s : Dev) : Nat := s.get MS_GEOMETRY.block_groups
def Dev.planes (s : Dev) : Nat := s.get FC_CFG.planes
/-- Codewords in one level of a word-line set (R199). -/
def Dev.perLevel (s : Dev) : Nat := s.codewords / max s.bitsPerCell 1
/-- The level of codeword i, and the planes it touches, one bit each (R199). -/
def Dev.levelOf (s : Dev) (i : Nat) : Nat := i / max s.perLevel 1
def Dev.planesOf (s : Dev) (i : Nat) : Nat :=
  let l := s.get CD_GEOMETRY.codeword_bytes
  let at_ := i % max s.perLevel 1 * l
  let first := at_ / max s.image.rawPage 1
  (2 ^ ((at_ + l - 1) / max s.image.rawPage 1 - first + 1) - 1) * 2 ^ first
/-- The number of planes in a mask. -/
def planeCount (mask : Nat) : Nat := ((List.range 6).filter (fun p => mask.testBit p)).length

/-- The parity stripe groups (R231): consecutive runs of W slots; a remainder of three or more is the last group. -/
def Dev.groups (s : Dev) : List (List Nat) :=
  let w := max s.width 1
  ((List.range (s.slotLuns.length / w + 1)).map (fun g => (s.slotLuns.drop (g * w)).take w)).filter (fun g => 3 ≤ g.length)

/-- The group of a LUN; none for an unstriped one. -/
def Dev.groupOf (s : Dev) (lun : Nat) : List Nat := (s.groups.find? (fun g => g.contains lun)).getD []

def Dev.lunFailed (s : Dev) (lun : Nat) : Bool := (s.get (fcReg (lun / 32) FC_LUN_FAILED.failed)).testBit (lun % 32)
/-- Populated LUNs that have not failed. -/
def Dev.goodLuns (s : Dev) : List Nat := s.slotLuns.filter (fun l => !s.lunFailed l)
/-- The bank of a LUN (R194). -/
def bankOf (lun : Nat) : Nat := 2 * (lun / 32) + lun % 32 / 16

/-! ### The block table -/

def blockKey (lun b : Nat) : Nat := lun * 32768 + b
def Dev.entry (s : Dev) (lun b : Nat) : BlockEntry := (s.rc.table.find (blockKey lun b)).getD {}
def Dev.modEntry (s : Dev) (lun b : Nat) (f : BlockEntry → BlockEntry) : Dev :=
  let e := f (s.entry lun b)
  s.modRc (fun r => { r with table := r.table.set (blockKey lun b) (if e = {} then none else some e) })

/-- A stripe's ID: word line 0, slot 0 of its block group on the first member of the group (R262). -/
def stripeId (group : List Nat) (b : Nat) : Nat := Pga.mk (group.headD 0) b 0 0
/-- The stripe that a block group belongs to. -/
def Dev.stripeOf (s : Dev) (lun b : Nat) : Nat := stripeId (s.groupOf lun) b
def Dev.membersOf (s : Dev) (id : Nat) : List Nat := s.groupOf (Pga.dieLun id)

/-- A block group has a position in its stripe: it is no retired, witness or system group (R262). -/
def BgState.present (b : BgState) : Bool := b != .retired && b != .witness && b != .system
def Dev.presentIn (s : Dev) (id : Nat) : List Nat :=
  (s.membersOf id).filter (fun l => (s.entry l (Pga.block id)).state.present)
/-- With fewer than three present block groups a stripe is retired whole (R262). -/
def Dev.stripeRetired (s : Dev) (id : Nat) : Bool := (s.presentIn id).length < 3
def Dev.isFree (s : Dev) (id : Nat) : Bool :=
  !s.stripeRetired id && (s.presentIn id).all (fun l =>
    let st := (s.entry l (Pga.block id)).state
    st == .free || st == .erased)
def Dev.allStripes (s : Dev) : List Nat := s.groups.flatMap (fun g => (List.range s.blockGroups).map (stripeId g))

/-! ### RC's counts -/

/-- The free count (R267). -/
def Dev.freeCount (s : Dev) : Nat := (s.allStripes.filter (fun i => s.isFree i)).length
/-- P: present block groups of LUNs that have not failed, in stripes that are not retired (R278). -/
def Dev.presentCount (s : Dev) : Nat :=
  ((s.allStripes.filter (fun i => !s.stripeRetired i)).map (fun i => ((s.presentIn i).filter (fun l => !s.lunFailed l)).length)).sum
/-- H (R278). -/
def Dev.headroom (s : Dev) : Nat := s.width * (s.get RC_SEAL_CFG.reserve + 128)
/-- spare_left = P − Q − H (R278). -/
def Dev.spareLeft (s : Dev) : Int := s.presentCount - s.rc.q - s.headroom
/-- The spare of one LUN, clamped to 0 to 65535 (R278). -/
def Dev.lunSpare (s : Dev) (lun : Nat) : Nat :=
  if s.lunFailed lun || (s.groupOf lun).isEmpty then 0
  else
    let own := ((List.range s.blockGroups).filter (fun b =>
      !s.stripeRetired (s.stripeOf lun b) && (s.entry lun b).state.present)).length
    min (own - s.rc.q / max ((s.groups.map List.length).sum) 1) 65535

/-- A one-bit status that raises an interrupt source when it becomes set. -/
def Dev.level (s : Dev) (f : Fld) (b : Bool) (src : Nat) : Dev :=
  if b && !s.bit f then (s.flag f true).raise src else s.flag f b

/-- RC's registers after the free count, the open stripes or the spare may have changed, and the threshold events (R97,
R267, R274, R354). -/
def Dev.noteFree (s : Dev) : Dev :=
  let n := s.freeCount
  let s := (s.put RC_FREE.free n).put RC_FREE.openCount (s.ms.stripes.filter (fun t => t.row.wl < s.wordLines)).length
  let s := s.put RC_SPARE_LEFT.spare (s.spareLeft % 2 ^ 32).toNat
  let s := s.flag RC_STATUS.spare_out (s.spareLeft ≤ 0)
  let s := s.level RC_STATUS.below_floor (n < s.get RC_FLOOR_CFG.floor) (Irq.rc 1)
  let s := s.flag QE_PORT_SHARE.reclaim_urgent (n < s.get RC_FLOOR_CFG.floor)
  let s := s.level RC_STATUS.at_reserve (n ≤ s.get RC_SEAL_CFG.reserve) (Irq.rc 2)
  let since := if n < s.get RC_FLOOR_CFG.target then some (s.rc.belowSince.getD s.now) else none
  s.modRc (fun r => { r with belowSince := since })

/-- Retire a block group (R208, R271, R273); cause as event 0x0702 numbers it. -/
def Dev.retireBlock (s : Dev) (lun b cause : Nat) : Dev :=
  if (s.entry lun b).state = .retired then s
  else ((s.modEntry lun b (fun e => { e with state := .retired })).event 0x0702 Src.rc lun b cause).noteFree

end Sys2Proof.Machine
end

