-- ==== Sys2Proof/Machine/References.lean ====
section
/-! DEFINITION. Witness lines, wear and age bins, and the read references that CD chooses for every read (R205, R237 to R239,
R242, R245, R250, R253). -/

namespace Sys2Proof.Machine
open Reg

/-! ### Witness blocks (R242 to R244) -/

/-- A LUN's witness block groups, highest-numbered first. -/
def Dev.witnessBlocks (s : Dev) (lun : Nat) : List Nat :=
  ((List.range s.blockGroups).filter (fun b => (s.entry lun b).state == .witness)).reverse

/-- The lines of a LUN, and the newest one that decodes. -/
def Dev.witnesses (s : Dev) (lun : Nat) : List Witness := (s.nand.witness.find lun).getD []
def Dev.newestWitness (s : Dev) (lun : Nat) : Option Witness := ((s.witnesses lun).filter (fun w => w.ok)).getLast?

/-- The newest witness line of a LUN that has not failed, and its place. -/
def Dev.witnessLine (s : Dev) (lun : Nat) : Option Witness := if s.lunFailed lun then none else s.newestWitness lun
def Dev.witnessPlace (s : Dev) (lun : Nat) : Option Nat := (s.witnessLine lun).map (fun w => Pga.mk lun w.which w.wl 0)

/-! ### Wear and age bins (R238, R239) -/

/-- The drift age of a block group in 1/16 hour (R239). -/
def Dev.driftAge (s : Dev) (lun b : Nat) : Nat := ((s.cd.drift.find lun).map (fun d => d.d)).getD 0 - (s.entry lun b).driftStamp
/-- The lower edges of age bins 1 to 15, in hours (R238). -/
def ageEdges : List Nat := [24, 72, 168, 336, 720, 1440, 2160, 2880, 4380, 5840, 8760, 11680, 17520, 26280, 43800]
def ageBinOf (sixteenths : Nat) : Nat := (ageEdges.filter (fun h => 16 * h ≤ sixteenths)).length
def Dev.wearBin (s : Dev) (lun b : Nat) : Nat := min 7 (8 * (s.entry lun b).erases / max (s.get CD_WEAR_CFG.rated_pe) 1)

/-- The block table has not been loaded at this wake: CD measures, or MP still reads rings and footers (R239). -/
def Dev.beforeTable (s : Dev) : Bool := s.get CD_STATUS.state = 1 || (s.get CD_STATUS.state = 2 && s.get MP_STATUS.state ≤ 2)

/-- The wear bin and the age bin CD reads a block group at: of the block table, or before that is loaded of the LUN's newest
witness (R239). -/
def Dev.binsOf (s : Dev) (lun b : Nat) : Nat × Nat :=
  if s.beforeTable then
    (((s.newestWitness lun).map (fun w => w.wear)).getD 0, ageBinOf (((s.cd.drift.find lun).map (fun d => d.age)).getD 0))
  else (s.wearBin lun b, ageBinOf (s.driftAge lun b))

/-! ### The reference table (R237) -/

/-- Bytes of CD's reference table as a number. -/
def Dev.tableAt (s : Dev) (o n : Nat) : Nat := ofBytes ((List.range n).map (fun i => ((s.cd.table.getD (o + i) 0).toNat)))
/-- A signed byte or 16-bit value. -/
def signed (v n : Nat) : Int := if 2 ^ (n - 1) ≤ v then (v : Int) - 2 ^ n else v
def Dev.thresholds (s : Dev) : Nat := 2 ^ s.bitsPerCell - 1
/-- The predicted offset of threshold t, and what retry entry k adds to it. -/
def Dev.predicted (s : Dev) (wear bin t : Nat) : Int := signed (s.tableAt (32 + 512 * wear + 32 * bin + t) 1) 8
def Dev.retryOffset (s : Dev) (wear k t : Nat) : Int := signed (s.tableAt (4128 + 224 * wear + 32 * (k - 1) + t) 1) 8
/-- The soft offsets of a wear bin: 0 is d2, 1 is d4a, 2 is d4b. -/
def Dev.softOffset (s : Dev) (wear k : Nat) : Int := s.tableAt (5920 + 4 * wear + k) 1
/-- Threshold t is read for level j. -/
def Dev.levelMask (s : Dev) (j t : Nat) : Bool := (s.tableAt (8 + 4 * j) 4).testBit t
/-- The thresholds of a level, and the level that reads threshold n − 1. -/
def Dev.levelThresholds (s : Dev) (j : Nat) : List Nat := (List.range s.thresholds).filter (fun t => s.levelMask j t)
def Dev.sweepLevel (s : Dev) : Nat := s.tableAt 4 1

/-! ### The references of a read (R239, R250) -/

/-- A level's thresholds, each with its offset. -/
def Dev.refsFor (s : Dev) (level : Nat) (f : Nat → Int) : Tbl Int := (s.levelThresholds level).map (fun t => (t, f t))

/-- The L4 adjustment held for a LUN, level and age bin (R253). -/
def Dev.adjustment (s : Dev) (lun level bin : Nat) : Option Adjust :=
  s.cd.adjust.find? (fun a => a.lun = lun && a.level = level && a.bin = bin)

/-- The predicted reference of a threshold for a level: predicted, plus the adjustment where one is held (R239). -/
def Dev.baseRef (s : Dev) (lun level wear bin t : Nat) : Int :=
  s.predicted wear bin t + (((s.adjustment lun level bin).bind (fun a => a.valleys.find t)).getD 0)

/-- The reference of an L0 read, and of the reread with retry entry k. -/
def Dev.retryRef (s : Dev) (lun level wear bin k t : Nat) : Int :=
  s.baseRef lun level wear bin t + (if k = 0 then 0 else s.retryOffset wear k t)

/-- c, c − d, c + d, c − e, c + e: the offsets from the centre of the reads of a soft tier, in order. -/
def softStep (d e : Int) (i : Nat) : Int := if i = 0 then 0 else if i = 1 then -d else if i = 2 then d else if i = 3 then -e else e

/-- The references of the read that a request makes next at its tier: one at L0 and in each reread, three around the best at L2,
five around the sweep's valleys at L4 (R250). left counts the reads of the tier that are still to come after it. -/
def Dev.reqRefs (s : Dev) (r : CwReq) (level : Nat) : Tbl Int :=
  let lun := Pga.dieLun (r.addr / 16)
  let wear := (s.binsOf lun (Pga.block (r.addr / 16))).1
  s.refsFor level (fun t =>
    if r.tier ≤ 1 then s.retryRef lun level wear r.ageBin r.reread t
    else if r.tier = 2 then
      s.retryRef lun level wear r.ageBin r.best t + softStep (s.softOffset wear 0) 0 (2 - r.left)
    else (r.centre.find t).getD 0 + softStep (s.softOffset wear 1) (s.softOffset wear 2) (4 - r.left))

/-- The references of step k of a sweep of a witness line: from its valleys downward (R245); for a line just programmed, 16
steps from predicted[wear][0] (R244). -/
def Dev.sweepRefs (s : Dev) (r : CwReq) (k : Nat) : Tbl Int :=
  let lun := Pga.dieLun (r.addr / 16)
  let down : Int := (k * s.get CD_WITNESS_CFG.sweep_step : Nat)
  let valleys : Tbl Int := ((s.newestWitness lun).map (fun w => w.valley)).getD []
  let wear := (s.binsOf lun (Pga.block (r.addr / 16))).1
  s.refsFor r.level (fun t => match r.who with
    | .fresh _ => s.predicted wear 0 t + 8 * (s.get CD_WITNESS_CFG.sweep_step : Nat) - down
    | _ => (valleys.find t).getD 0 - down)

/-- The references of a footer read at L0. -/
def Dev.footerRefs (s : Dev) (place : Nat) : Tbl Int :=
  let lun := Pga.dieLun place
  let level := s.levelOf (s.codewords - 1)
  let bins := s.binsOf lun (Pga.block place)
  s.refsFor level (fun t => s.baseRef lun level bins.1 bins.2 t)

end Sys2Proof.Machine
end

