-- ==== Sys2Proof/Machine/Directory.lean ====
section
/-! DEFINITION. The directory and the block table as pages on flash: extents, root pages, directory pages and block-table pages
(R165 to R167, R181, R185, R264), and what a checkpoint record leads to. -/

namespace Sys2Proof.Machine
open Reg

/-! ### Page numbers and extents (R167, R181, R264) -/

/-- The nsid field of directory pages, block-table pages and root pages. -/
def dirNs : Nat := 0
def tableNs : Nat := 30
def rootNs : Nat := 31
def pageNs (pg : Nat) : Nat := pg / 2 ^ 27
def pageIndex (pg : Nat) : Nat := pg % 2 ^ 27
def pageIn (ns i : Nat) : Nat := ns * 2 ^ 27 + i

/-- The directory entry of page i of extents laid one after another, and back. -/
def dirExtentAt : List (Nat × Nat) → Nat → Option Nat
  | [], _ => none
  | (first, n) :: l, i => if i < n then some (first + i) else dirExtentAt l (i - n)
def dirExtentIndex : List (Nat × Nat) → Nat → Option Nat
  | [], _ => none
  | (first, n) :: l, p => if first ≤ p && p < first + n then some (p - first) else (dirExtentIndex l p).map (fun i => i + n)

/-- The extents of a namespace, or of the block table. -/
def extentsOf (ns : Tbl Namespace) (table : Nat × Nat) (n : Nat) : List (Nat × Nat) :=
  if n = tableNs then [table] else ((ns.find n).map (fun x => x.extents)).getD []
/-- Where the directory holds a page's entry, and the page whose entry it holds at a place. -/
def dirPos (ns : Tbl Namespace) (table : Nat × Nat) (pg : Nat) : Option Nat := dirExtentAt (extentsOf ns table (pageNs pg)) (pageIndex pg)
def pageAtPos (ns : Tbl Namespace) (table : Nat × Nat) (p : Nat) : Option Nat :=
  ((tableNs :: ns.keys).filterMap (fun n => (dirExtentIndex (extentsOf ns table n) p).map (fun i => pageIn n i))).head?

/-- The pieces of directory entries that no extent takes, in rising order (R167). -/
def gapsOf (used : List (Nat × Nat)) (size : Nat) : List (Nat × Nat) :=
  let r := (sortBy (fun a b => a.1 ≤ b.1) used).foldl (fun (a : List (Nat × Nat) × Nat) e =>
    (if a.2 < e.1 then a.1 ++ [(a.2, e.1 - a.2)] else a.1, max a.2 (e.1 + e.2))) ([], 0)
  if r.2 < size then r.1 ++ [(r.2, size - r.2)] else r.1
/-- The lowest pieces that together hold n entries. -/
def takeGaps : List (Nat × Nat) → Nat → List (Nat × Nat)
  | [], _ => []
  | (first, k) :: l, n => if n = 0 then [] else (first, min k n) :: takeGaps l (n - min k n)
/-- Directory entries that 2048 root pages reach. -/
def dirSize : Nat := 2048 * 256 * 256

def Dev.usedExtents (s : Dev) : List (Nat × Nat) := s.rc.tableExtent :: s.mp.ns.vals.flatMap (fun n => n.extents)
/-- Compaction: every namespace's pages in one extent, after the block table's (R167). -/
def Dev.compactDir (s : Dev) : Dev :=
  let start := s.rc.tableExtent.1 + s.rc.tableExtent.2
  let r := s.mp.ns.foldl (fun (a : Tbl Namespace × Nat) e =>
    let n := (e.2.extents.map (fun x => x.2)).sum
    (a.1 ++ [(e.1, { e.2 with extents := [(a.2, n)] })], a.2 + n)) ([], start)
  s.modMp (fun m => { m with ns := r.1 })
/-- The extents of a new namespace of n pages: up to 32 pieces, after a compaction where that is too few (R167). -/
def Dev.allotExtents (s : Dev) (n : Nat) : List (Nat × Nat) × Dev :=
  let l := takeGaps (gapsOf s.usedExtents dirSize) n
  if l.length ≤ 32 then (l, s)
  else
    let s := s.compactDir
    (takeGaps (gapsOf s.usedExtents dirSize) n, s)

/-! ### What the pages hold -/

/-- A page's entry: in the directory, in a root page, or in the root table. -/
def Dev.entryOf (s : Dev) (pg : Nat) : Option DirEntry :=
  if pageNs pg = dirNs then s.mp.roots.find (pageIndex pg)
  else if pageNs pg = rootNs then s.mp.rootTable.find (pageIndex pg)
  else s.mp.dir.find pg

/-- The copy on flash that an entry names. -/
def Dev.copyNamed (s : Dev) (pg : Nat) (e : DirEntry) : Option PageCopy :=
  s.nand.pages.find? (fun c => c.page = pg && c.pageSeq = e.pageSeq && c.addrA = e.addrA)
/-- The newest copy of a page. -/
def Dev.pageCopy (s : Dev) (pg : Nat) : Option PageCopy := (s.entryOf pg).bind (fun e => s.copyNamed pg e)

/-- Directory page k as it stands: the entries at places 256k to 256k + 255. -/
def Dev.dirContent (s : Dev) (k : Nat) : Tbl DirEntry :=
  (s.mp.dir.filterMap (fun e => (dirPos s.mp.ns s.rc.tableExtent e.1).bind (fun p =>
    if p / 256 = k then some (p % 256, e.2) else none))).foldl (fun t e => t.put e.1 e.2) []
/-- Root page k as it stands. -/
def Dev.rootContent (s : Dev) (k : Nat) : Tbl DirEntry := (s.mp.roots.filter (fun e => e.1 / 256 = k)).map (fun e => (e.1 % 256, e.2))
/-- A block group's index in the block table (R263). -/
def Dev.tableIndex (s : Dev) (key : Nat) : Nat := key / 32768 * s.get MS_GEOMETRY.block_groups + key % 32768
/-- Block-table page k as it is written: pinned is written as 0 (R264). -/
def Dev.tableContent (s : Dev) (k : Nat) : Tbl BlockEntry :=
  (s.rc.table.filter (fun e => s.tableIndex e.1 / 256 = k)).filterMap (fun e =>
    let b := { e.2 with pinned := 0 }
    if b = {} then none else some (s.tableIndex e.1 % 256, b))
/-- The pages the block table needs. -/
def Dev.tablePages (s : Dev) : Nat := (4096 * s.get MS_GEOMETRY.block_groups + 255) / 256

/-- Directory, root and block-table pages whose content is not what flash holds. -/
def Dev.dirtyDirs (s : Dev) : List Nat :=
  let now := s.mp.dir.keys.filterMap (fun pg => (dirPos s.mp.ns s.rc.tableExtent pg).map (fun p => p / 256))
  ((now ++ s.mp.roots.keys).dedup.filter (fun k =>
    s.dirContent k != ((s.pageCopy (pageIn dirNs k)).map PageCopy.dirs).getD [])).map (fun k => pageIn dirNs k)
def Dev.dirtyRoots (s : Dev) : List Nat :=
  ((s.mp.roots.keys.map (fun k => k / 256) ++ s.mp.rootTable.keys).dedup.filter (fun k =>
    s.rootContent k != ((s.pageCopy (pageIn rootNs k)).map PageCopy.dirs).getD [])).map (fun k => pageIn rootNs k)
def Dev.dirtyTable (s : Dev) : List Nat :=
  let kept := (s.mp.dir.keys.filter (fun pg => pageNs pg = tableNs)).map (fun pg => pageIndex pg)
  ((s.rc.table.keys.map (fun k => s.tableIndex k / 256) ++ kept).dedup.filter (fun k =>
    s.tableContent k != ((s.pageCopy (pageIn tableNs k)).map PageCopy.blocks).getD [])).map (fun k => pageIn tableNs k)

/-- A page of any kind that differs from its copy on flash. -/
def Dev.pageDirty (s : Dev) (pg : Nat) : Bool :=
  if pageNs pg = dirNs then s.dirtyDirs.contains pg
  else if pageNs pg = rootNs then s.dirtyRoots.contains pg
  else if pageNs pg = tableNs then s.dirtyTable.contains pg
  else s.mp.dirty.contains pg

/-! ### What a record leads to (R165, R185, R187, R188) -/

/-- The directory pages' entries, out of the root pages of a root table. -/
def Dev.treeRoots (s : Dev) (roots : Tbl DirEntry) : Tbl DirEntry :=
  roots.foldl (fun t e => (((s.copyNamed (pageIn rootNs e.1) e.2).map PageCopy.dirs).getD []).foldl (fun t x =>
    t.put (256 * e.1 + x.1) x.2) t) []
/-- The directory, out of the directory pages that a root table leads to. -/
def Dev.treeDir (s : Dev) (r : CkptRec) : Tbl DirEntry :=
  (s.treeRoots r.roots).foldl (fun t e => (((s.copyNamed (pageIn dirNs e.1) e.2).map PageCopy.dirs).getD []).foldl (fun t x =>
    match pageAtPos r.ns r.tableExtent (256 * e.1 + x.1) with
    | some pg => t.put pg x.2
    | none => t) t) []
/-- The block table, out of the block-table pages of a directory. -/
def Dev.treeTable (s : Dev) (dir : Tbl DirEntry) : Tbl BlockEntry :=
  let groups := max (s.get MS_GEOMETRY.block_groups) 1
  (dir.filter (fun e => pageNs e.1 = tableNs)).foldl (fun t e => (((s.copyNamed e.1 e.2).map PageCopy.blocks).getD []).foldl (fun t x =>
    let i := 256 * pageIndex e.1 + x.1
    t.put (i / groups * 32768 + i % groups) x.2) t) []

/-- A record's directory entry of one page. -/
def Dev.recEntry (s : Dev) (r : CkptRec) (pg : Nat) : Option DirEntry :=
  (dirPos r.ns r.tableExtent pg).bind (fun p => ((s.treeRoots r.roots).find (p / 256)).bind (fun e =>
    (s.copyNamed (pageIn dirNs (p / 256)) e).bind (fun (c : PageCopy) => c.dirs.find (p % 256))))

/-- Every page that a root table leads to, with its entry. -/
def Dev.treePages (s : Dev) (r : CkptRec) : List (Nat × DirEntry) :=
  r.roots.map (fun e => (pageIn rootNs e.1, e.2)) ++ (s.treeRoots r.roots).map (fun e => (pageIn dirNs e.1, e.2)) ++ s.treeDir r
/-- The same for the directory as it stands. -/
def Dev.livePages (s : Dev) : List (Nat × DirEntry) :=
  s.mp.rootTable.map (fun e => (pageIn rootNs e.1, e.2)) ++ s.mp.roots.map (fun e => (pageIn dirNs e.1, e.2)) ++ s.mp.dir

/-- The newest durable record, and the two newest. -/
def Dev.newestRec (s : Dev) : Option CkptRec := s.nand.recs.getLast?
def Dev.twoRecs (s : Dev) : List CkptRec := s.nand.recs.drop (s.nand.recs.length - 2)

end Sys2Proof.Machine
end

