-- ==== Sys2Proof/Machine/Store.lean ====
section
/-! DEFINITION. The map, the write buffer, word-line sets, rows and durability as shared operations (R160 to R187, R231 to
R236, R266, R507): what commits, seals, records and makes durable. -/

namespace Sys2Proof.Machine
open Reg

/-! ### Descriptors in progress (R350) -/

/-- Entries of a unit in progress. -/
def Dev.inProgress (s : Dev) (u : Unit4) : List Desc := s.rings.desc.filter (fun d => d.unit == u)
def Dev.descOf (s : Dev) (u : Unit4) (i : Nat) : Option Desc := (s.inProgress u).find? (fun d => d.index = i)
def Dev.modDesc (s : Dev) (u : Unit4) (i : Nat) (f : Desc → Desc) : Dev :=
  { s with rings := { s.rings with desc := s.rings.desc.map (fun d => if d.unit == u && d.index = i then f d else d) } }
/-- The result of a descriptor is known. -/
def Dev.answer (s : Dev) (u : Unit4) (i st w0 w1 : Nat) : Dev :=
  s.modDesc u i (fun d => { d with result := some (st, BitVec.ofNat 32 w0, BitVec.ofNat 32 w1) })

/-! ### Flash operations and codeword requests in the queues -/

/-- Queue an operation on a LUN. -/
def Dev.queueOp (s : Dev) (lun : Nat) (kind : OpKind) (acc startNo : Nat) (refs : Tbl Int := []) : Dev :=
  s.modMs (fun m => { m with
    ops := m.ops ++ [{ id := m.nextOp, lun := lun, kind := kind, refs := refs, acc := acc, startNo := startNo }]
    nextOp := m.nextOp + 1 })

/-- Since when an operation has waited for tokens (R217). -/
def FlashOp.tokenWait (o : FlashOp) : Option Nat :=
  match o.st with
  | .waiting t => some t
  | _ => o.held

/-- An operation becomes the claim, or the next one in order (R217). -/
def Dev.claim (s : Dev) (id : Nat) : Dev :=
  if s.ms.claims.contains id then s else (s.modMs (fun m => { m with claims := m.claims ++ [id] })).raise (Irq.ms 1)

/-- An operation serves a master-key command. -/
def Dev.ofMaster (s : Dev) (o : FlashOp) : Bool :=
  match o.kind with
  | .read _ _ _ reqs => s.cd.reqs.any (fun r => reqs.contains r.id && (match s.cmd r.acc with | some c => c.rank == .master | none => false))
  | _ => false

/-- An operation of a master-key command becomes the claim as soon as it waits for tokens: after its command has become one, or
its read has joined one that waits (R217). -/
def Dev.claimMasters (s : Dev) : Dev :=
  s.each (s.ms.ops.filter (fun o => o.tokenWait.isSome && s.ofMaster o)) (fun s o => s.claim o.id)

/-- The read operation that already waits on a LUN for a level of a set at the same references; further codewords merge into
it (R205). -/
def waitingRead (o : FlashOp) (place level : Nat) (refs : Tbl Int) : Bool :=
  match o.kind, o.st with
  | .read p l _ _, .queued => p = place && l = level && o.refs = refs
  | .read p l _ _, .waiting _ => p = place && l = level && o.refs = refs && !o.resetting
  | _, _ => false

def mergeRead (o : FlashOp) (planes req : Nat) : FlashOp :=
  match o.kind with
  | .read p l k reqs => { o with kind := .read p l (k ||| planes) (reqs ++ [req]) }
  | _ => o

/-- Send a read of one level of a set to its LUN for a codeword request; it merges with one that waits, and covers the planes
that either touches (R205). -/
def Dev.issueAt (s : Dev) (place level planes : Nat) (refs : Tbl Int) (r : CwReq) : Dev :=
  if s.ms.ops.any (fun o => waitingRead o place level refs) then
    (s.modMs (fun m => { m with ops := m.ops.map (fun o =>
      if waitingRead o place level refs then mergeRead o planes r.id else o) })).claimMasters
  else s.queueOp (Pga.dieLun place) (.read place level planes [r.id]) r.acc r.startNo refs

/-- The index of a codeword within its word-line set. -/
def cwIndex (addr : Nat) : Nat := Pga.slot (addr / 16) * 16 + addr % 16

/-- Read the codeword of a request, at the references of its tier. -/
def Dev.issueRead (s : Dev) (r : CwReq) : Dev :=
  let level := s.levelOf (cwIndex r.addr)
  s.issueAt (Pga.set (r.addr / 16)) level (s.planesOf (cwIndex r.addr)) (s.reqRefs r level) r

/-- The next of the sixteen steps of a sweep of plane 0 of a witness line (R245, R250). -/
def Dev.issueSweep (s : Dev) (place : Nat) (r : CwReq) : Dev :=
  s.issueAt place r.level 1 (s.sweepRefs r (16 - r.sweep)) r

/-! ### Parity rows and rebuilds (R235, R236, R252) -/

def Dev.stripe (s : Dev) (id : Nat) : Option Stripe := s.ms.stripes.find? (fun t => t.id = id)
def Dev.modStripe (s : Dev) (id : Nat) (f : Stripe → Stripe) : Dev :=
  s.modMs (fun m => { m with stripes := m.stripes.map (fun t => if t.id = id then f t else t) })

/-- The row at word line wl of a stripe still has its running XOR in DRAM (R235). -/
def Dev.runningXor (s : Dev) (id wl : Nat) : Bool :=
  match s.stripe id with
  | some t => (t.row :: t.unverified).any (fun r => r.wl = wl && !r.xorLost)
  | none => false

/-- The other sets of a set's row: places of those on flash with the same stripe and word line. -/
def Dev.rowSets (s : Dev) (place : Nat) : Tbl OnFlash :=
  let id := s.stripeOf (Pga.dieLun place) (Pga.block place)
  s.nand.sets.filter (fun e => e.2.stripe = id && Pga.wl e.1 = Pga.wl place && e.1 != place && Pga.block e.1 = Pga.block place)

/-- The sets that a rebuild of a codeword of `place` reads: the other covered members and the parity set, or the members
beside the running XOR; none where L3 is impossible (R252). -/
def Dev.rowMates (s : Dev) (place : Nat) : Option (List Nat) :=
  let lun := Pga.dieLun place
  let others := s.rowSets place
  let mates : Option (List Nat) :=
    if (s.groupOf lun).isEmpty || (s.entry lun (Pga.block place)).state == .witness || (s.entry lun (Pga.block place)).state == .system then none
    else if s.runningXor (s.stripeOf lun (Pga.block place)) (Pga.wl place) then some (Tbl.keys (others.filter (fun e => e.2.kind != .parity)))
    else match s.nand.sets.find place with
      | none => none
      | some x => (others.find? (fun e => e.2.kind == .parity && e.2.covered.contains x.seq
          && e.2.covered.all (fun q => q = x.seq || others.any (fun o => o.2.seq = q)))).map (fun par =>
          par.1 :: Tbl.keys (others.filter (fun e => par.2.covered.contains e.2.seq)))
  mates.filter (fun l => l.all (fun m => !s.lunFailed (Pga.dieLun m)))

/-! ### Codeword requests -/

/-- A codeword request without its read. -/
def Dev.makeReq (s : Dev) (addr : Nat) (who : Requester) (acc startNo : Nat) : CwReq :=
  let c := s.cmd acc
  { id := s.cd.nextReq, addr := addr, who := who, acc := acc, startNo := startNo, opt := s.opt
    port := (c.map (fun c => c.port)).getD 0, queue := (c.map (fun c => c.queue)).getD 0
    tag := BitVec.ofNat 16 ((c.map (fun c => Pkt.tag c.pkt)).getD 0)
    ageBin := (s.binsOf (Pga.dieLun (addr / 16)) (Pga.block (addr / 16))).2 }

def Dev.addReq (s : Dev) (r : CwReq) : Dev := s.modCd (fun d => { d with reqs := d.reqs ++ [r], nextReq := d.nextReq + 1 })
def Dev.modReq (s : Dev) (id : Nat) (f : CwReq → CwReq) : Dev :=
  s.modCd (fun d => { d with reqs := d.reqs.map (fun r => if r.id = id then f r else r) })

/-- One member read of a rebuild. -/
def Dev.memberReq (s : Dev) (parent : CwReq) (addr : Nat) : Dev :=
  let r := s.makeReq addr (.member parent.id) parent.acc parent.startNo
  (s.addReq r).issueRead r

/-- L3 begins: codeword k of every other covered member is read (R250). Where it is impossible the request can only fail. -/
def Dev.startRebuild (s : Dev) (id : Nat) : Dev :=
  match s.cd.reqs.find? (fun r => r.id = id) with
  | none => s
  | some r =>
    let place := Pga.set (r.addr / 16)
    match s.rowMates place with
    | none => s.modReq id (fun r => { r with tier := 3, st := .rebuilding, members := 0, dead := true })
    | some mates =>
      let s := s.modReq id (fun r => { r with tier := 3, st := .rebuilding, members := mates.length, dead := false })
      s.each mates (fun s m => s.memberReq r (m * 16 + (r.addr - place * 16)))

/-- A new codeword request. One for a failed LUN goes straight to the rebuild (R254); the others are read. -/
def Dev.oneReq (s : Dev) (addr : Nat) (who : Requester) (acc startNo : Nat) : Dev :=
  let r := s.makeReq addr who acc startNo
  let s := s.addReq r
  if s.lunFailed (Pga.dieLun (addr / 16)) then s.startRebuild r.id else s.issueRead r

/-- The other replica of a map page is read too once replica A has not decoded at L0 or L1 (R168). -/
def Dev.raceReplica (s : Dev) (who : Requester) (acc startNo : Nat) : Dev :=
  match who with
  | .mapPage pg 0 =>
    match s.mp.dir.find pg with
    | some d =>
      if s.cd.reqs.any (fun q => q.who == .mapPage pg 1) then s else s.oneReq d.addrB (.mapPage pg 1) acc startNo
    | none => s
  | _ => s

/-- The same, and replica B at once where replica A of a map page lies on a failed LUN (R168, R254). -/
def Dev.newReq (s : Dev) (addr : Nat) (who : Requester) (acc startNo : Nat) : Dev :=
  let failed := s.lunFailed (Pga.dieLun (addr / 16))
  let s := s.oneReq addr who acc startNo
  if failed then s.raceReplica who acc startNo else s

/-! ### The map (R165 to R169) -/

/-- The pages the cache can hold (MP_CACHE_CFG): 4 KiB each. -/
def Dev.cachePages (s : Dev) : Nat := s.get MP_CACHE_CFG.cache_gib * 262144
def Dev.pageLost (s : Dev) (pg : Nat) : Bool := match s.mp.dir.find pg with | some d => d.lost | none => false
/-- A page's entries can be used: it is in the cache, or absent (R167). -/
def Dev.pageReady (s : Dev) (pg : Nat) : Bool := s.mp.cached.contains pg || !s.mp.dir.has pg
/-- A granule's map entry: in the cache, or as the page on flash holds it. -/
def Dev.ent (s : Dev) (key : Nat) : Qword :=
  let pg := pageOf key
  if s.pageLost pg then Ent.lostEntry
  else if s.mp.cached.contains pg then (s.mp.map.find key).getD Ent.absent
  else match s.pageCopy pg with
    | some c => (c.entries.find key).getD Ent.absent
    | none => Ent.absent

/-- The entries of one page. -/
def Dev.pageEntries (s : Dev) (pg : Nat) : Tbl Qword := s.mp.map.filter (fun e => pageOf e.1 = pg)

/-- Begin to load a page: replica A's codeword is read for the command that needs it (R168). -/
def Dev.loadPage (s : Dev) (pg acc startNo : Nat) : Dev :=
  if s.cd.reqs.any (fun r => match r.who with | .mapPage p _ => p = pg | _ => false) then s
  else match s.mp.dir.find pg with
    | some d => (s.add MP_CACHE_MISSES.misses 1).newReq d.addrA (.mapPage pg 0) acc startNo
    | none => s

/-- Make room in the cache: the least recently used clean page goes (the list is in order of use). What pinned said of its
granules goes with it, as no page on flash holds it; the block group's count stays (R192; log 85). -/
def Dev.evict (s : Dev) : Dev :=
  if s.mp.cached.length < s.cachePages then s
  else match s.mp.cached.find? (fun p => !s.mp.dirty.contains p) with
    | some p => s.modMp (fun m => { m with
        cached := m.cached.erase p
        map := m.map.filter (fun e => pageOf e.1 != p) })
    | none => s

/-- A page becomes the most recently used one. -/
def Dev.touch (s : Dev) (pg : Nat) : Dev :=
  if s.mp.cached.contains pg then s.modMp (fun m => { m with cached := m.cached.erase pg ++ [pg] }) else s

/-- A page enters the cache with the entries of its copy on flash. -/
def Dev.bringIn (s : Dev) (pg : Nat) : Dev :=
  if s.mp.cached.contains pg then s.touch pg
  else
    let s := s.evict
    let es := match s.pageCopy pg with | some c => c.entries | none => []
    s.modMp (fun m => { m with
      cached := m.cached ++ [pg]
      map := es.foldl (fun t e => t.put e.1 e.2) m.map })

/-- valid and pinned of the block group an entry names (R263). -/
def Dev.countEnt (s : Dev) (e : Qword) (up : Bool) : Dev :=
  if Ent.mapped e then
    let a := Ent.pga e
    s.modEntry (Pga.dieLun a) (Pga.block a) (fun b => { b with
      valid := if up then b.valid + 1 else b.valid - 1
      pinned := if Ent.pinned e then (if up then min (b.pinned + 1) 255 else b.pinned - 1) else b.pinned })
  else s

/-- A closed stripe whose block groups all have valid 0 and pinned 0 is empty: the condition of R187 starts (R270). -/
def Dev.noteEmptied (s : Dev) (id : Nat) : Dev :=
  let es := (s.presentIn id).map (fun l => s.entry l (Pga.block id))
  if !es.isEmpty && es.all (fun e => (e.state == .closed || e.state == .victim) && e.valid = 0 && e.pinned = 0)
      && !s.rc.emptied.any (fun p => p.1 = id) then
    s.modRc (fun r => { r with emptied := r.emptied ++ [(id, s.get MP_CKPT_SEQ.seq)] })
  else s

/-- R169: a lost page is made again, every entry lost. -/
def Dev.recreatePage (s : Dev) (pg : Nat) : Dev :=
  if s.pageLost pg then
    let base := pg / 2 ^ 27 * 2 ^ 36 + pg % 2 ^ 27 * 512
    s.modMp (fun m => { m with
      dir := m.dir.modify pg (fun d => { d with lost := false })
      map := (List.range 512).foldl (fun t i => t.put (base + i) Ent.lostEntry) m.map
      cached := if m.cached.contains pg then m.cached else m.cached ++ [pg] })
  else s

/-- MP writes a map entry: its page becomes dirty, and the block groups it left and reached are counted (R263). -/
def Dev.putEnt (s : Dev) (key : Nat) (e : Qword) : Dev :=
  let pg := pageOf key
  let s := (s.recreatePage pg).bringIn pg
  let old := s.ent key
  let s := (s.countEnt old false).countEnt e true
  let s := s.modMp (fun m => { m with
    map := m.map.set key (if e = Ent.absent then none else some e)
    dirty := if m.dirty.contains pg then m.dirty else m.dirty ++ [pg] })
  if Ent.mapped old then s.noteEmptied (s.stripeOf (Pga.dieLun (Ent.pga old)) (Pga.block (Ent.pga old))) else s

/-! ### The buffer index (R170 to R174) -/

def Dev.openOf (s : Dev) (key : Nat) : Option OpenVer := s.bm.opens.find? (fun v => v.key = key)
def Dev.openVid (s : Dev) (vid : Nat) : Option OpenVer := s.bm.opens.find? (fun v => v.vid = vid)
def Dev.modOpen (s : Dev) (vid : Nat) (f : OpenVer → OpenVer) : Dev :=
  s.modBm (fun b => { b with opens := b.opens.map (fun v => if v.vid = vid then f v else v) })
/-- The stamp counter of a granule (R171). -/
def Dev.stampOf (s : Dev) (key : Nat) : BitVec 16 :=
  match s.bm.stamps.find key with
  | some c => c
  | none => BitVec.ofNat 16 (Ent.stamp (s.ent key))
/-- The newest sealed version of a granule, unless a newer mark has taken the next stamp since. -/
def Dev.sealedOf (s : Dev) (key : Nat) : Option SealedVer :=
  s.bm.sealeds.find? (fun v => v.key = key && s.bm.stamps.find key = some v.stamp)

/-- Where a block's newest data is. -/
inductive Found where
  | buffer (b : BlockData)
  | zero
  | lost
  | lostPage
  | needPage
  | flash (addr : Nat)
deriving DecidableEq, Repr

/-- Below the open version: the newest sealed version, or the mark that is newer than it, then the map (R173). -/
def Dev.below (s : Dev) (key i : Nat) : Found :=
  match s.sealedOf key with
    | some v => .buffer (v.blocks.getD i .zero)
    | none =>
      if s.bm.marks.has key then .zero
      else if s.pageLost (pageOf key) then .lostPage
      else if !s.pageReady (pageOf key) then .needPage
      else
        let e := s.ent key
        if Ent.trimmed e || Ent.zeroFilled e then .zero
        else if Ent.lost e then .lost
        else .flash (Ent.pga e * 16 + i)

/-- A block's newest data (R132, R173). -/
def Dev.lookBlock (s : Dev) (key i : Nat) : Found :=
  match (s.openOf key).bind (fun v => (v.blocks.getD i none)) with
  | some (_, _, b) => .buffer b
  | none => s.below key i

/-- The stream of a command's data (R265). -/
def Dev.streamOf (s : Dev) (c : Command) : Nat :=
  if Pkt.hintValid c.pkt then Pkt.hint c.pkt else s.get RC_STREAM_CFG.default_stream

/-! ### Stripes and rows (R179, R231 to R236, R262, R266) -/


/-- The stripe ID of no stripe: block 32,767 is never a real block (R163). -/
def noStripe : Nat := 0xffffffffff

/-- The positions of the current row that can still be used, in the order of R232. -/
def Dev.freePositions (s : Dev) (t : Stripe) : List Nat :=
  let w := t.members.length
  ((List.range w).map (fun i => (t.row.wl + 1 + i) % max w 1)).filter (fun p =>
    let lun := t.members.getD p 0
    !t.row.used.contains p && !s.lunFailed lun && (s.entry lun t.block).state == .open_)

/-- A stripe that takes data: it is open and its row has a position beside the one kept for parity (R236). -/
def Dev.takesData (s : Dev) (t : Stripe) : Bool := t.row.wl < s.wordLines && 2 ≤ (s.freePositions t).length

/-- The drift clock of a LUN in 1/16 hour (R240). -/
def Dev.clock (s : Dev) (lun : Nat) : Nat := ((s.cd.drift.find lun).map (fun d => d.d)).getD 0
def Dev.optSeconds (s : Dev) : Nat := s.opt.toNat / 1000

/-- The erase a block group needs before it is programmed (R179, R207): none while one already waits. -/
def Dev.queueErase (s : Dev) (lun b : Nat) : Dev :=
  if s.ms.ops.any (fun o => o.lun = lun && o.kind == .erase b) then s else s.queueOp lun (.erase b) 0 0

/-- Free stripes that no open stripe has chosen as its successor. -/
def Dev.freeStripes (s : Dev) : List Nat :=
  s.allStripes.filter (fun i => s.isFree i && !s.ms.stripes.any (fun t => t.id = i || t.successor = some i))

/-- Open block groups of a stripe for a stream: state, drift stamp and age origin of each member (R241, R266). -/
def Dev.openMembers (s : Dev) (id stream : Nat) : Dev :=
  s.each (s.presentIn id) (fun s l =>
    let e := s.entry l (Pga.block id)
    let s := if e.state == .free || s.ms.reErase.contains id then s.queueErase l (Pga.block id) else s
    s.modEntry l (Pga.block id) (fun e => { e with
      state := .open_, stream := stream, driftStamp := s.clock l, born := s.optSeconds, valid := 0, pinned := 0, l3Hits := 0 }))

/-- Pick the next block stripe of a stream and erase it (R179). -/
def Dev.eraseSuccessor (s : Dev) (o : Option Nat) : Dev :=
  match o with
  | some i => s.each ((s.presentIn i).filter (fun l => (s.entry l (Pga.block i)).state == .free)) (fun s l => s.queueErase l (Pga.block i))
  | none => s

/-- System areas that are being written: block groups of the rings, of the log and of the health ring that hold some of their
word-line sets and not the last (R179; log 86). -/
def Dev.openAreas (s : Dev) : Nat :=
  let places := s.nand.sets.keys.filter (fun a => (s.entry (Pga.dieLun a) (Pga.block a)).state == .system)
  let groups := (places.map (fun a => blockKey (Pga.dieLun a) (Pga.block a))).dedup
  (groups.filter (fun k => !places.any (fun a => blockKey (Pga.dieLun a) (Pga.block a) = k && Pga.wl a + 1 = s.wordLines))).length

/-- Open a block stripe for a stream: the successor named before, else the lowest free one. At most 64 are open, and streams
0 to 3 leave the seal reserve alone unless the device is Sealed (R179, R267, R280). -/
def Dev.openStripe (s : Dev) (stream : Nat) : Dev :=
  let named := (s.ms.stripes.filter (fun t => t.stream = stream)).filterMap (fun t => t.successor)
  let pick := (named.find? (fun i => s.isFree i)).or s.freeStripes.head?
  let openNow := (s.ms.stripes.filter (fun t => t.row.wl < s.wordLines)).length
  if 64 ≤ openNow + s.openAreas || (stream ≤ 3 && !s.bit RC_STATUS.sealed && s.freeCount ≤ s.get RC_SEAL_CFG.reserve) then s
  else match pick with
    | none => s
    | some id =>
      let s := s.openMembers id stream
      let next := s.freeStripes.find? (fun i => i != id)
      let t : Stripe := { id := id, stream := stream, members := s.membersOf id, block := Pga.block id, row := { wl := 0 }, successor := next }
      ((s.modMs (fun m => { m with
        stripes := m.stripes.map (fun u => if u.successor = some id then { u with successor := none } else u) ++ [t]
        reErase := m.reErase.filter (fun i => i != id) })).eraseSuccessor next).noteFree

/-- The stripe a stream's next set goes to. -/
def Dev.target (s : Dev) (stream : Nat) : Option Stripe := s.ms.stripes.find? (fun t => t.stream = stream && s.takesData t)
def Dev.ensureStripe (s : Dev) (stream : Nat) : Dev := if (s.target stream).isSome then s else s.openStripe stream

/-- The last row of a stripe is closed: its block groups are closed (R263). -/
def Dev.closeStripe (s : Dev) (t : Stripe) : Dev :=
  let s := s.each (t.members.filter (fun l => (s.entry l t.block).state == .open_)) (fun s l =>
    s.modEntry l t.block (fun e => { e with state := .closed }))
  (s.noteEmptied t.id).noteFree

/-- Begin a pass (R268). -/
def Dev.addPass (s : Dev) (p : Pass) : Dev :=
  s.modRc (fun r => { r with
    passes := r.passes ++ [{ p with id := r.nextPass }]
    nextPass := r.nextPass + 1 })

/-- Close a stripe for good: no more rows (R188; a row without room). -/
def Dev.endStripe (s : Dev) (id : Nat) : Dev :=
  match s.stripe id with
  | some t =>
    let s := s.modStripe id (fun t => { t with row := { wl := s.wordLines } })
    s.closeStripe t
  | none => s

/-- The stripe's next row after the current one closed. -/
def Dev.nextRow (s : Dev) (t : Stripe) (closed : Option Row) : Dev :=
  let s := s.modStripe t.id (fun u => { u with row := { wl := t.row.wl + 1 }, unverified := u.unverified ++ closed.toList })
  if t.row.wl + 1 < s.wordLines then s else s.closeStripe t

/-- A sealed set and the program that waits for its LUN (R179, R206). -/
def Dev.addSet (s : Dev) (x : WlSet) : Dev :=
  let s := s.modMs (fun m => { m with sets := m.sets ++ [x], progSeq := x.seq })
  (s.put MP_PROG_SEQ.seq x.seq).queueOp (Pga.dieLun x.place) (.program x.seq) 0 0

/-- A row closes without parity: RC copies every valid granule of its data sets as Urgent units (R236). -/
def Dev.noParityRow (s : Dev) (id wl : Nat) (seqs : List Nat) : Dev :=
  let places := (s.ms.sets.filter (fun x => seqs.contains x.seq)).map (fun x => x.place)
    ++ Tbl.keys (s.nand.sets.filter (fun e => seqs.contains e.2.seq))
  (s.modCd (fun c => { c with noParity := c.noParity ++ [(id, wl)] })).addPass { why := .row id wl, left := sortNat places, urgent := true }

/-- The members of a row are being read for its running XOR (R406). -/
def Dev.xorReading (s : Dev) (id wl : Nat) : Bool := s.cd.reqs.any (fun r => r.who == .xorRow id wl)

/-- CD's parity set of a row in the next free position, or no parity where none is left or the running XOR could not be read
again (R232, R236, R406); a row whose running XOR is being read waits. -/
def Dev.closeRow (s : Dev) (t : Stripe) (early : Bool) : Dev :=
  if t.row.sets.isEmpty || s.xorReading t.id t.row.wl then s
  else match (if t.row.xorLost then [] else s.freePositions t) with
    | [] =>
      (s.noParityRow t.id t.row.wl t.row.sets).nextRow t none
    | p :: _ =>
      let seq := s.ms.progSeq + 1
      let place := Pga.mk (t.members.getD p 0) t.block t.row.wl 0
      let s := s.addSet {
        seq := seq, kind := .parity, stream := t.stream, place := place, stripe := t.id, slots := [], padded := false, early := early
        sealedAt := s.now, needed := early, successor := t.successor.getD noStripe, covered := t.row.sets
        ckptSeq := s.get MP_CKPT_SEQ.seq, opt := s.opt }
      s.nextRow t (some { t.row with used := t.row.used ++ [p], parity := some seq })

/-- A row that failures have left with no position beside the one kept for parity closes (R234, R236); a stripe that has no
room for a row at all takes no more. -/
def Dev.closeShort (s : Dev) : Dev :=
  s.each (s.ms.stripes.filter (fun t => t.row.wl < s.wordLines && !s.takesData t)) (fun s t =>
    if t.row.sets.isEmpty then s.endStripe t.id else s.closeRow t false)

/-- Put a data set into the stream's row: it takes the next free position, passing over those of a channel to avoid; a row with
only the parity position left closes (R165, R232, R234). `mk` builds the set from its sequence, place, stripe and successor. -/
def Dev.placeSet (s : Dev) (stream : Nat) (avoid : Option Nat) (mk : Nat → Nat → Nat → Nat → WlSet) : Dev × Option Nat :=
  let s := s.ensureStripe stream
  match s.target stream with
  | none => (s, none)
  | some t =>
    match (s.freePositions t).find? (fun p => some (t.members.getD p 0 / 32) != avoid) with
    | none => (s, none)
    | some p =>
      let seq := s.ms.progSeq + 1
      let place := Pga.mk (t.members.getD p 0) t.block t.row.wl 0
      let s := s.addSet (mk seq place t.id (t.successor.getD noStripe))
      let s := s.modStripe t.id (fun u => { u with row := { u.row with sets := u.row.sets ++ [seq], used := u.row.used ++ [p] } })
      match s.stripe t.id with
      | some u => (if 2 ≤ (s.freePositions u).length then s else s.closeRow u false, some seq)
      | none => (s, some seq)

/-- The channel of the set that carries the other replica of a map set (R165). -/
def Dev.twinChannel (s : Dev) (seq : Nat) : Option Nat :=
  let coming := (s.ms.sets.filter (fun x => x.seq = seq && x.place != 0)).map (fun x => x.place)
  (coming ++ Tbl.keys (s.nand.sets.filter (fun e => e.2.seq = seq))).head?.map Pga.channel

/-- A set that failed, or was bound for a LUN that failed, takes the next place of its stream with the same content (R170,
R208). -/
def Dev.rehomeSet (s : Dev) (x : WlSet) : Dev :=
  let r := s.placeSet x.stream (if x.kind == .map then s.twinChannel x.twin else none) (fun seq place stripe succ => { x with
    seq := seq
    place := place
    stripe := stripe
    successor := succ
    st := .sealed
    sealedAt := s.now
    aged := false
    copies := x.copies.map (fun c => { c with progSeq := seq }) })
  match r.2 with
  | none => r.1
  | some seq =>
    let stripe := ((r.1.ms.sets.find? (fun y => y.seq = seq)).map (fun y => y.stripe)).getD 0
    let s := r.1.modMs (fun m => { m with
      sets := (m.sets.filter (fun y => y.seq != x.seq)).map (fun y => if y.twin = x.seq then { y with twin := seq } else y) })
    s.modBm (fun b => { b with
      sealeds := b.sealeds.map (fun v => if v.set = x.seq then { v with set := seq } else v)
      undurable := b.undurable.map (fun u => if u.set = x.seq then { u with set := seq, stripe := stripe } else u) })

/-! ### Log and health sets (R440, R441, R446) -/

/-- The word-line set number n of a run of block groups. -/
def Dev.sysPlace (s : Dev) (lun base n : Nat) : Option Nat :=
  ((s.sysBlocks lun base)[n / max s.wordLines 1]?).map (fun b => Pga.mk lun b (n % max s.wordLines 1) 0)

/-- Make room in the health ring: its next block group is erased as its first set is placed. -/
def Dev.roomInHealth (s : Dev) (lun place : Nat) : Dev := if Pga.wl place = 0 then s.queueErase lun (Pga.block place) else s

/-- Where a replica's next log or health set goes. -/
def Dev.evPlace (s : Dev) (kind : SetKind) (replica : Nat) : Option Nat :=
  let lun := s.logLun replica
  if kind == .log then s.sysPlace lun s.logHalfBase (s.logNext replica)
  else s.sysPlace lun 32 ((if replica = 0 then s.nand.healthA else s.nand.healthB) % max ((s.sysBlocks lun 32).length * s.wordLines) 1)

/-- The next set of a replica is taken. -/
def Dev.bumpEv (s : Dev) (kind : SetKind) (replica : Nat) : Dev :=
  s.modNand (fun n =>
    if kind == .log then (if replica = 0 then { n with logA := n.logA + 1 } else { n with logB := n.logB + 1 })
    else if replica = 0 then { n with healthA := n.healthA + 1 } else { n with healthB := n.healthB + 1 })

/-- Program a log or health set on one replica; a LUN that failed or a full half takes none. -/
def Dev.placeEv (s : Dev) (x : WlSet) : Dev × Option Nat :=
  let lun := s.logLun x.replica
  match s.evPlace x.kind x.replica with
  | some place =>
    if s.lunFailed lun then (s, none)
    else
      let seq := s.ms.progSeq + 1
      let s := if x.kind == .health then s.roomInHealth lun place else s
      ((s.bumpEv x.kind x.replica).addSet { x with
        seq := seq
        place := place
        st := .sealed
        sealedAt := s.now }, some seq)
  | none => (s, none)

/-- Program a set on both replicas. -/
def Dev.placeBoth (s : Dev) (x : WlSet) : Dev :=
  let a := s.placeEv { x with replica := 0 }
  let b := a.1.placeEv { x with replica := 1 }
  b.1.modMs (fun m => { m with sets := m.sets.map (fun y =>
    if some y.seq = a.2 then { y with twin := b.2.getD 0 } else if some y.seq = b.2 then { y with twin := a.2.getD 0 } else y) })

/-- A replica's failed log or health set is written again at its next word line (R441). -/
def Dev.rehomeEv (s : Dev) (x : WlSet) : Dev :=
  let s := s.modMs (fun m => { m with sets := m.sets.filter (fun y => y.seq != x.seq) })
  let r := s.placeEv x
  r.1.modMs (fun m => { m with sets := m.sets.map (fun y => if y.twin = x.seq then { y with twin := r.2.getD 0 } else y) })

def Dev.rehome (s : Dev) : Dev :=
  s.each (s.ms.sets.filter (fun x => x.st == .failed)) (fun s x => if x.kind == .log || x.kind == .health then s.rehomeEv x else s.rehomeSet x)

/-! ### Sealing (R171, R174, R178) -/

def Dev.openSet (s : Dev) (stream : Nat) : Option OpenSet := s.ms.openSets.find? (fun o => o.stream = stream)
def Dev.modOpenSet (s : Dev) (stream : Nat) (f : OpenSet → OpenSet) : Dev :=
  s.modMs (fun m => { m with openSets := m.openSets.map (fun o => if o.stream = stream then f o else o) })
def OpenSet.size (o : OpenSet) : Nat := o.vids.length + o.copies.length

/-- Take version v, or a reclaim copy, into its stream's unsealed set where that has a free slot and is not being sealed. -/
def Dev.enterSet (s : Dev) (stream : Nat) (vids : List Nat) (copies : List SlotEntry) : Dev :=
  match s.openSet stream with
  | none => s.modMs (fun m => { m with openSets := m.openSets ++ [{ stream := stream, vids := vids, copies := copies, last := s.now }] })
  | some _ => s.modOpenSet stream (fun o => { o with vids := o.vids ++ vids, copies := o.copies ++ copies, last := s.now })

def Dev.hasRoom (s : Dev) (stream : Nat) : Bool :=
  match s.openSet stream with
  | none => true
  | some o => o.size < s.slotCount && !o.sealing

/-- A codeword of a version is being pre-read. -/
def Dev.preReading (s : Dev) (vid : Nat) : Bool :=
  s.cd.reqs.any (fun r => match r.who with | .preRead v _ => v = vid | _ => false)

/-- Pre-read a granule for a version: all 16 codewords, as a host read of the granule costs (R175). -/
def Dev.preRead (s : Dev) (vid addr acc startNo : Nat) : Dev :=
  if s.preReading vid then s
  else s.each (List.range 16) (fun s i => s.newReq (addr + i) (.preRead vid i) acc startNo)

/-- Fill one missing block of an open version from below, or pre-read it (R174). -/
def Dev.fillBlock (s : Dev) (vid i : Nat) : Dev :=
  match s.openVid vid with
  | none => s
  | some v =>
    match v.blocks.getD i none with
    | some _ => s
    | none =>
      let give (b : BlockData) (sub : Bool) : Dev :=
        s.modOpen vid (fun v => { v with blocks := v.blocks.set i (some (0, 0, b)), sub := v.sub || sub })
      match s.below v.key i with
      | .buffer b => give b (b == .zero)
      | .zero => give .zero true
      | .lost | .lostPage => give .poisoned false
      | .needPage => s.loadPage (pageOf v.key) v.leadAcc v.leadStart
      | .flash a => s.preRead vid (a - i) v.leadAcc v.leadStart

/-- A version is ready to seal: complete, its page ready, and fewer than 64 earlier versions unrecorded (R171). -/
def Dev.canSeal (s : Dev) (vid : Nat) : Bool :=
  match s.openVid vid with
  | some v => v.blocks.all Option.isSome && (s.bm.stamps.has v.key || s.pageReady (pageOf v.key))
      && (s.bm.sealeds.filter (fun x => x.key = v.key)).length < 64
  | none => true

/-- The key a namespace's data is encrypted under. -/
def Dev.nsKey (s : Dev) (ns : Nat) : Option (BitVec 512) := s.cx.slots.find (ns - 1)

/-- The place of a sealed set. -/
def Dev.placeOf (s : Dev) (seq : Nat) : Nat := ((s.ms.sets.find? (fun x => x.seq = seq)).map (fun x => x.place)).getD 0

/-- A block as it is stored: encrypted under the namespace's key; one whose slot holds no key is not processed and is lost
(R22, R225, R258). -/
def storeBlock (key : Option (BitVec 512)) : BlockData → Stored
  | .data b => match key with | some k => .cipher k b | none => .poisoned
  | .zero => .zero
  | .poisoned => .poisoned

/-- Seal one version: it takes the next stamp and leaves the open list (R171). Its data is encrypted under its namespace's key,
whose slot may hold none or fail its check (R258, R389). What becomes of a unit whose program has failed for want of a key the
spec does not say: its place in the set carries poisoned_block codewords, and the set's other units are programmed (log 91). -/
def Dev.sealVersion (s : Dev) (vid seq stripe : Nat) : Dev × Option SlotEntry :=
  match s.openVid vid with
  | none => (s, none)
  | some v =>
    let stamp := s.stampOf v.key + 1
    let data := v.blocks.map (fun b => match b with | some (_, _, x) => x | none => .zero)
    let ns := gkeyNs v.key
    let units := (data.filter (fun b => match b with | .data _ => true | _ => false)).length
    let s := if units = 0 then s
      else if (s.nsKey ns).isSome && s.armedFor Src.keySlots then (s.loseKey (ns - 1)).unitLine Src.keySlots 1 0x37
      else if (s.nsKey ns).isSome then s.add CX_UNITS_ENC.units units
      else s.contained Src.cx Kind.noKey (s.placeOf seq * 16) 0x37 8
    let s := s.modBm (fun b => { b with
      opens := b.opens.filter (fun x => x.vid != vid)
      sealeds := b.sealeds ++ [{ key := v.key, vid := vid, stamp := stamp, blocks := data, sub := v.sub, set := seq }]
      stamps := b.stamps.put v.key stamp
      undurable := b.undurable.map (fun u => if u.vid = vid then { u with set := seq, stripe := stripe } else u) })
    (s, some {
      kind := 1, key := v.key, vid := vid, stamp := stamp, epoch := (s.mp.epochs.find ns).getD 0, sub := v.sub,
      blocks := data.map (storeBlock (s.nsKey ns)) })

/-- Seal the versions of a set one after another. -/
def Dev.sealVersions (s : Dev) (vids : List Nat) (seq stripe : Nat) : Dev × List SlotEntry :=
  vids.foldl (fun a v => let r := a.1.sealVersion v seq stripe; (r.1, a.2 ++ r.2.toList)) (s, [])

/-- A block stripe that takes copies is as old as their oldest source (R266). -/
def Dev.lowerBorn (s : Dev) (stripe : Nat) (copies : List SlotEntry) : Dev :=
  s.each copies (fun s e =>
    let born := (s.entry (Pga.dieLun e.source) (Pga.block e.source)).born
    s.each (s.presentIn stripe) (fun s l => s.modEntry l (Pga.block stripe) (fun b => { b with born := min b.born born })))

/-- Seal a stream's set now (R178, R179): filler in the empty slots, a place in the row, stamps, and the program queued. -/
def Dev.sealNow (s : Dev) (o : OpenSet) : Dev :=
  let padded := o.size < s.slotCount
  let r := s.placeSet o.stream none (fun seq place stripe succ => {
    seq := seq, kind := .data, stream := o.stream, place := place, stripe := stripe, slots := [], padded := padded,
    sealedAt := s.now, needed := o.needed, successor := succ, ckptSeq := s.get MP_CKPT_SEQ.seq, opt := s.opt })
  match r.2 with
  | none => r.1
  | some seq =>
    let stripe := ((r.1.ms.sets.find? (fun x => x.seq = seq)).map (fun x => x.stripe)).getD 0
    let q := (r.1.lowerBorn stripe o.copies).sealVersions o.vids seq stripe
    q.1.modMs (fun m => { m with
      sets := m.sets.map (fun x => if x.seq = seq then { x with slots := q.2 ++ o.copies } else x)
      openSets := m.openSets.filter (fun x => x.stream != o.stream) })

/-- Open versions of a stream that wait for a slot enter the new set (R178). -/
def Dev.placeWaiting (s : Dev) (stream : Nat) : Dev :=
  s.each (s.bm.opens.filter (fun v => v.stream = stream && !v.placed)) (fun s v =>
    if s.hasRoom stream then (s.enterSet stream [v.vid] []).modOpen v.vid (fun v => { v with placed := true }) else s)

/-- Seal a stream's set if it is due (full, needed or idle) and every version in it is complete; else start its pre-reads. -/
def Dev.trySealOnce (s : Dev) (stream : Nat) : Dev :=
  match s.openSet stream with
  | none => s
  | some o =>
    if o.sealing || o.size = s.slotCount then
      let s := s.modOpenSet stream (fun o => { o with sealing := true })
      let s := s.each o.vids (fun s v => s.each (List.range 16) (fun s i => s.fillBlock v i))
      if o.vids.all (fun v => s.canSeal v) then (s.sealNow { o with sealing := true }).placeWaiting stream else s
    else s

/-- The same, again for the versions that waited behind the set. -/
def Dev.trySeal (s : Dev) (stream : Nat) : Dev := s.each (List.range (s.bm.opens.length + 1)) (fun s _ => s.trySealOnce stream)
def Dev.trySealAll (s : Dev) : Dev := s.each (List.range 10) (fun s st => s.trySeal st)

/-- A version enters its stream's set, or waits for the next one. -/
def Dev.placeVersion (s : Dev) (vid stream : Nat) : Dev :=
  (if s.hasRoom stream then (s.enterSet stream [vid] []).modOpen vid (fun v => { v with placed := true }) else s).trySeal stream

/-! ### Commit (R86, R108, R135, R170, R173) -/

/-- Whether a later-accepted write-class command has already committed LBA lba over this command. -/
def Command.passedAt (c : Command) (lba : Nat) : Bool := c.overtaken.any (fun r => r.1 ≤ lba && lba < r.2)

/-- A committing write-class command overtakes the earlier-accepted ones that still run (R108); the held commands of a frozen
queue stand outside the order (R110). -/
def Dev.overtake (s : Dev) (c : Command) : Dev :=
  s.modQe (fun e => { e with cmds := e.cmds.map (fun a =>
    if a.order < c.order && writeClass a.op && !a.committed && overlap a c && !s.outOfOrder a then { a with overtaken := a.overtaken ++ [(c.lo, c.hi)] } else a) })

/-- A commit of a granule while a copy of it is in flight makes the copy stale (R272). -/
def Dev.staleCopies (s : Dev) (key : Nat) : Dev :=
  s.modRc (fun r => { r with units := r.units.map (fun u => { u with
    copies := u.copies.map (fun c => if u.started && c.key = key then { c with stale := true } else c) }) })

/-- A part's blocks enter the buffer index: into the open version, or a new one that takes the reservation (R170). -/
def Dev.mergePart (s : Dev) (c : Command) (p : Part) (data : Nat → BlockData) : Dev :=
  let key := gkey (Pkt.nsid c.pkt) p.granule
  let mine (i : Nat) : Bool := p.first ≤ i && i < p.first + p.count && !c.passedAt (16 * p.granule + i)
  if !(List.range 16).any mine then (if p.reserved then s.releaseBuffer 1 else s)
  else
    let s := s.staleCopies key
    match s.openOf key with
    | some v =>
      let s := s.modOpen v.vid (fun v => { v with
        blocks := (List.range 16).map (fun i => if mine i then some (c.order, c.acc, data i) else v.blocks.getD i none)
        leadAcc := if c.startNo < v.leadStart then c.acc else v.leadAcc
        leadStart := min c.startNo v.leadStart })
      if p.reserved then s.releaseBuffer 1 else s
    | none =>
      let vid := s.bm.nextVid
      let v : OpenVer := { key := key, vid := vid, stream := s.streamOf c, leadAcc := c.acc, leadStart := c.startNo, blocks :=
        (List.range 16).map (fun i => if mine i then some (c.order, c.acc, data i) else none) }
      let s := s.modBm (fun b => { b with
        nextVid := vid + 1, opens := b.opens ++ [v], undurable := b.undurable ++ [{ vid := vid, key := key }] })
      s.placeVersion vid v.stream

/-- Discard the open version of a granule (R173): its buffer space is free again. -/
def Dev.dropOpen (s : Dev) (key : Nat) : Dev :=
  match s.openOf key with
  | none => s
  | some v =>
    let s := s.modBm (fun b => { b with
      opens := b.opens.filter (fun x => x.vid != v.vid)
      undurable := b.undurable.filter (fun u => u.vid != v.vid) })
    let s := s.modMs (fun m => { m with
      openSets :=
      (m.openSets.map (fun o => { o with vids := o.vids.filter (fun x => x != v.vid) })).filter (fun o => o.size != 0) })
    s.releaseBuffer 1

/-- Drop the stamp counter of a granule once no version of it is in the buffer (R171). -/
def Dev.settleStamp (s : Dev) (key : Nat) : Dev :=
  if (s.openOf key).isSome || s.bm.sealeds.any (fun v => v.key = key) || s.bm.marks.has key then s
  else s.modBm (fun b => { b with stamps := b.stamps.erase key })

/-- Write a mark that has its stamp into the map entry; its trim is durable when the page is written back. -/
def Dev.writeMark (s : Dev) (key : Nat) (zero : Bool) (stamp : BitVec 16) : Dev :=
  let s := s.putEnt key (Ent.mk 0 stamp.toNat (!zero) zero false false)
  (s.modBm (fun b => { b with marks := b.marks.erase key })).settleStamp key

/-- Commands that wait for a version's durability wait for the newer one that took its place (R105, R131, R134). -/
def Dev.recover (s : Dev) (old vid : Nat) : Dev :=
  s.modQe (fun e => { e with cmds := e.cmds.map (fun c => { c with cover := c.cover.map (fun v => if v = old then vid else v) }) })

/-- A whole-granule mark of a command (R173): at once where the map page is ready or lost, else held in the buffer index. What
waits for the open version it discards waits for the mark. -/
def Dev.markGranule (s : Dev) (c : Command) (key : Nat) (zero : Bool) : Dev :=
  let vid := s.bm.nextVid
  let s := match s.openOf key with
    | some v => (s.dropOpen key).recover v.vid vid
    | none => s
  let s := s.staleCopies key
  let ready := s.pageReady (pageOf key) || s.pageLost (pageOf key)
  let stamp := s.stampOf key + 1
  let s := s.modBm (fun b => { b with
    nextVid := vid + 1, stamps := b.stamps.put key stamp, marks := b.marks.put key (zero, stamp)
    undurable := b.undurable ++ [{ vid := vid, key := key, recorded := true, trim := true }] })
  if ready then s.writeMark key zero stamp else s.loadPage (pageOf key) c.acc c.startNo

/-- A loaded page takes the marks that waited for it; one whose stamp was not yet known takes the next of the entry. -/
def Dev.applyMarks (s : Dev) (pg : Nat) : Dev :=
  s.each (s.bm.marks.filter (fun m => pageOf m.1 = pg)) (fun s m =>
    let st := BitVec.ofNat 16 (Ent.stamp (s.ent m.1))
    s.writeMark m.1 m.2.1 (if stampNewer m.2.2 st then m.2.2 else st + 1))

/-- Count committed host data against the checkpoint thresholds (R182). -/
def Dev.countHost (s : Dev) (blocks : Nat) : Dev := s.modMp (fun m => { m with hostBlocks := m.hostBlocks + blocks })

/-! ### Map write-back (R165, R183) -/

/-- Pages that a map set on its way already carries with their present content. -/
def Dev.inFlight (s : Dev) (pg : Nat) : Bool := s.ms.sets.any (fun x => x.copies.any (fun c => c.page = pg))

/-- One map set of a replica, off the channel of the other one. -/
def Dev.mapSet (s : Dev) (copies : List PageCopy) (replica twin : Nat) : Dev × Option Nat :=
  s.placeSet 8 (if replica = 0 then none else s.twinChannel twin) (fun seq place stripe succ => {
    seq := seq, kind := .map, stream := 8, place := place, stripe := stripe, slots := [], padded := false,
    sealedAt := s.now, needed := true, successor := succ, copies := copies.map (fun c => { c with progSeq := seq }),
    replica := replica, twin := twin, ckptSeq := s.get MP_CKPT_SEQ.seq, opt := s.opt })

/-- A page's entries as they are written to flash: pinned is written as 0 (R192). -/
def Dev.flashEntries (s : Dev) (pg : Nat) : Tbl Qword :=
  ((s.pageEntries pg).map (fun e => (e.1, Ent.withPinned e.2 false))).filter (fun e => e.2 != Ent.absent)

/-- A page's copy as it would be written now (R165, R181, R264). -/
def Dev.copyOf (s : Dev) (pg : Nat) : PageCopy :=
  let ns := pageNs pg
  { page := pg
    epoch := (s.mp.epochs.find ns).getD 0
    pageSeq := ((s.entryOf pg).map (fun d => d.pageSeq)).getD 0 + 1
    progSeq := 0
    entries := if ns = dirNs || ns = rootNs || ns = tableNs then [] else s.flashEntries pg
    dirs := if ns = dirNs then s.dirContent (pageIndex pg) else if ns = rootNs then s.rootContent (pageIndex pg) else []
    blocks := if ns = tableNs then s.tableContent (pageIndex pg) else [] }

/-- Write one set of pages back: both replicas, on LUNs of different channels, C − 1 pages to a set, and no more than the
256 a slot and codeword number reach (R165, R180). -/
def Dev.writeSet (s : Dev) (pages : List Nat) : Dev :=
  let pages := (pages.filter (fun p => s.pageDirty p && !s.inFlight p)).take (min (s.codewords - 1) 256)
  if pages.isEmpty then s
  else
    let copies := pages.map (fun p => s.copyOf p)
    let a := s.mapSet copies 0 0
    match a.2 with
    | none => a.1
    | some seqA =>
      let b := a.1.mapSet copies 1 seqA
      match b.2 with
      | some seqB => b.1.modMs (fun m => { m with sets := m.sets.map (fun x => if x.seq = seqA then { x with twin := seqB } else x) })
      | none => b.1

/-- Write pages back, as many sets as they need. -/
def Dev.writeBack (s : Dev) (pages : List Nat) : Dev := s.each (List.range (pages.length / 16 + 1)) (fun s _ => s.writeSet pages)

/-- Pages that a Write Back descriptor still waits for (R191). -/
def Dev.pagesWanted (s : Dev) : List Nat :=
  s.rings.desc.flatMap (fun d => (d.wait.filter (fun w => s.mp.dirty.contains w.1
    && ((s.mp.dir.find w.1).map (fun e => e.pageSeq)).getD 0 < w.2)).map (fun w => w.1))

/-- The dirty pages of a cache that has no more room (R167). -/
def Dev.pagesCrowded (s : Dev) : List Nat := if s.cachePages ≤ s.mp.cached.length then s.mp.dirty else []

/-! ### Checkpoint rings (R184) -/

/-- The LUN of a checkpoint ring: 0 A, 1 B. -/
def Dev.ringLun (s : Dev) (ring : Nat) : Nat := 32 * (if ring = 0 then s.nand.ringA else s.nand.ringB)
/-- Its block groups: the system ones below the health ring's that are not retired. -/
def Dev.ringBlocks (s : Dev) (lun : Nat) : List Nat := (List.range 32).filter (fun b => (s.entry lun b).state == .system)

/-- The newest ring set on a LUN, on flash or on its way: its program sequence and place. -/
def Dev.ringNewest (s : Dev) (lun : Nat) : Option (Nat × Nat) :=
  let all := (s.nand.sets.filter (fun e => e.2.kind == .checkpoint)).map (fun e => (e.2.seq, e.1))
    ++ (s.ms.sets.filter (fun x => x.kind == .checkpoint)).map (fun x => (x.seq, x.place))
  (all.filter (fun x => Pga.dieLun x.2 = lun)).foldl (fun b x => match b with
    | none => some x
    | some y => if y.1 < x.1 then some x else some y) none

/-- The block group and word line that a ring's next set takes. -/
def Dev.ringNext (s : Dev) (lun : Nat) : Option (Nat × Nat) :=
  let blocks := s.ringBlocks lun
  match s.ringNewest lun with
  | none => blocks.head?.map (fun b => (b, 0))
  | some (_, a) =>
    if Pga.wl a + 1 < s.wordLines && blocks.contains (Pga.block a) then some (Pga.block a, Pga.wl a + 1)
    else ((blocks.find? (fun b => Pga.block a < b)).or blocks.head?).map (fun b => (b, 0))

/-- One copy of a record on its way: the ring's next word-line set, whose block group is erased as its first set is placed. -/
def Dev.ringSet (s : Dev) (ring : Nat) (r : CkptRec) : Dev × Option Nat :=
  let lun := s.ringLun ring
  match (if s.lunFailed lun then none else s.ringNext lun) with
  | none => (s, none)
  | some (b, wl) =>
    let seq := s.ms.progSeq + 1
    let s := if wl = 0 then s.queueErase lun b else s
    (s.addSet { seq := seq, kind := .checkpoint, stream := 9, place := Pga.mk lun b wl 0, stripe := noStripe, slots := [], padded := false,
                sealedAt := s.now, needed := true, successor := noStripe, ckptSeq := s.get MP_CKPT_SEQ.seq, opt := s.opt, record := some r }, some seq)

/-! ### Checkpoints (R182, R183) -/

/-- The lowest word line of an open stripe whose recorded versions sit in dirty pages: replay_from (R183). Sets that have been
sealed and not yet recorded count as well, and without either it is the row being filled (log 87). -/
def Dev.replayFrom (s : Dev) (t : Stripe) : Nat :=
  let dirtyWls := s.mp.map.filterMap (fun e =>
    if Ent.mapped e.2 && s.mp.dirty.contains (pageOf e.1) && Pga.block (Ent.pga e.2) = t.block
        && t.members.contains (Pga.dieLun (Ent.pga e.2)) then some (Pga.wl (Ent.pga e.2)) else none)
  let oldest := (s.ms.sets.filter (fun x => x.stripe = t.id)).map (fun x => Pga.wl x.place)
  (dirtyWls ++ oldest).foldl min t.row.wl

/-- Dirty pages that step 2 must write: an entry recorded from a stripe no longer open, or from a set sealed before the
previous cut (R183); every one for a stop; and every dirty block-table page (R264). -/
def Dev.cutPages (s : Dev) (all : Bool) : List Nat :=
  (if all then s.mp.dirty
  else s.mp.dirty.filter (fun pg => (s.pageEntries pg).any (fun e =>
    if Ent.mapped e.2 then
      let a := Ent.pga e.2
      !s.ms.stripes.any (fun t => t.row.wl < s.wordLines && t.block = Pga.block a && t.members.contains (Pga.dieLun a))
        || (match s.nand.sets.find (Pga.set a) with | some x => x.seq ≤ s.mp.prevCut | none => false)
    else true))) ++ s.dirtyTable

/-- The wall time carried forward, in ms (R156). -/
def Dev.wallNow (s : Dev) : Option Nat := s.host.wall.map (fun w => w.1 + (s.now - w.2) / 1000)

/-- The record of a checkpoint (R185, R282). -/
def Dev.ckptRecord (s : Dev) (r : CkptRun) : CkptRec := {
  seq := r.seq, stop := false, bits := s.bitsPerCell, wall := r.wall, cutSeq := r.cutSeq, opt := r.opt, pcc := s.pcc
  roots := s.mp.rootTable, ns := s.mp.ns, epochs := s.mp.epochs, replay := r.replay
  sealed := s.bit RC_STATUS.sealed, failed := s.rc.failed, rebuilt := s.rc.rebuilt, tableExtent := s.rc.tableExtent, q := s.rc.q
  spareFormat := s.get RC_SPARE_FORMAT.spare, sealedOpt := if s.bit RC_STATUS.sealed then s.rc.sealedOpt else 0
  moved := s.get RC_MOVED.moved, witnessFailed := [], prepareMs := 0 }

/-- Step 4: the record goes to both rings. -/
def Dev.writeRecord (s : Dev) (r : CkptRun) : Dev :=
  let a := s.ringSet 0 (s.ckptRecord r)
  let b := a.1.ringSet 1 (s.ckptRecord r)
  b.1.modMp (fun m => { m with ckpt := m.ckpt.map (fun x => { x with
    writing := true
    copies := a.2.toList ++ b.2.toList }) })

/-- What a running checkpoint does next (R183): the pages of step 2, the directory pages and root pages of step 3, and the
record, again where both copies have failed. -/
def Dev.driveCkpt (s : Dev) : Dev :=
  match s.mp.ckpt with
  | none => s
  | some r =>
    if !r.pages.isEmpty then s.writeBack r.pages
    else if r.writing then (if r.copies.isEmpty && !s.nand.recs.any (fun x => x.seq = r.seq) then s.writeRecord r else s)
    else if !s.dirtyDirs.isEmpty then s.writeBack s.dirtyDirs
    else if !s.dirtyRoots.isEmpty then s.writeBack s.dirtyRoots
    else s.writeRecord r

/-- Take the cut (R183 step 1) and begin the write-back; a trigger while one runs starts the next when it ends (R182). -/
def Dev.beginCkpt (s : Dev) (stop : Bool) : Dev :=
  if s.mp.ckpt.isSome then s.modMp (fun m => { m with again := true })
  else
    let pages := s.cutPages stop
    let replay := if stop then [] else (s.ms.stripes.filter (fun t => t.row.wl < s.wordLines || !t.unverified.isEmpty)).map
      (fun t => (⟨t.id, t.stream, s.replayFrom t⟩ : ReplayEntry))
    let run : CkptRun := { seq := s.get MP_CKPT_SEQ.seq + 1, cutSeq := s.ms.progSeq, replay := replay, stop := stop, pages := pages
                           opt := s.opt, wall := s.wallNow }
    (s.modMp (fun m => { m with ckpt := some run, cutTick := s.now, hostBlocks := 0, mediaBytes := 0 })).driveCkpt

/-! ### Durability (R131, R176, R234, R507) -/

/-- Stripes that the newest durable checkpoint leads replay to: those of its list and, from footers on flash, their
successors (R507). -/
def reachStep (sets : List OnFlash) (l : List Nat) : List Nat :=
  sets.foldl (fun l x => if l.contains x.stripe && !l.contains x.successor && x.successor != noStripe then l ++ [x.successor] else l) l
def Dev.ledTo (s : Dev) : List Nat :=
  match s.newestRec with
  | none => []
  | some r => (List.range 64).foldl (fun l _ => reachStep s.nand.sets.vals l) (r.replay.map (fun e => e.stripe))

/-- The row of a set is closed and its parity durable: neither the stripe's current row nor one still unverified (R131). -/
def Dev.rowDone (s : Dev) (seq stripe : Nat) : Bool :=
  match s.stripe stripe with
  | some t => !t.row.sets.contains seq && !t.unverified.any (fun r => r.sets.contains seq)
  | none => true

/-- A wake would find a map page as it is: it is not dirty, and the newest durable record's directory names its newest
copies, or replay is led to one of them (R188). -/
def Dev.pageKept (s : Dev) (pg : Nat) : Bool :=
  !s.mp.dirty.contains pg && (match s.mp.dir.find pg with
    | none => true
    | some e =>
      let named : Bool := match s.newestRec.bind (fun r => s.recEntry r pg) with
        | some x => x.pageSeq = e.pageSeq
        | none => false
      named || [e.addrA, e.addrB].any (fun a => match s.nand.sets.find (Pga.set (a / 16)) with
        | some x => s.ledTo.contains x.stripe
        | none => false))

/-- A version is durable in the sense of R131; a whole-granule mark, when its map page is kept. -/
def Dev.verDurable (s : Dev) (u : Undurable) : Bool :=
  u.recorded && (let kept := s.pageKept (pageOf u.key) && !s.bm.marks.has u.key
    if u.trim then kept else (u.copy || s.rowDone u.set u.stripe) && (kept || s.ledTo.contains u.stripe))

/-- Versions that have become durable leave the list. -/
def Dev.prune (s : Dev) : Dev := s.modBm (fun b => { b with undurable := b.undurable.filter (fun u => !s.verDurable u) })

/-- The host's versions of a scope that are not durable: namespace 0 is every namespace (R134). -/
def Dev.undurableIn (s : Dev) (ns : Nat) : List Nat :=
  (s.bm.undurable.filter (fun u => (ns = 0 || gkeyNs u.key = ns) && !u.copy)).map (fun u => u.vid)
/-- What a command waits for is durable. -/
def Dev.covered (s : Dev) (c : Command) : Bool := c.cover.all (fun v => !s.bm.undurable.any (fun u => u.vid = v))

/-- Ask for one version's durability (R134, R178, R234, R507): seal its set, close its row early, write its page back, or
begin a checkpoint. -/
def Dev.pushUnsealed (s : Dev) (acc vid : Nat) : Dev :=
  match s.ms.openSets.find? (fun o => o.vids.contains vid) with
  | none => s
  | some o =>
    let s := if !o.sealing && o.size < s.slotCount then s.modCmd acc (fun c => { c with padded := c.padded + 1 }) else s
    (s.modOpenSet o.stream (fun o => { o with sealing := true, needed := true })).trySeal o.stream

def Dev.pushSealed (s : Dev) (acc : Nat) (u : Undurable) : Dev :=
  let s := s.modMs (fun m => { m with sets := m.sets.map (fun x => if x.seq = u.set || x.covered.contains u.set then { x with needed := true } else x) })
  match s.stripe u.stripe with
  | some t =>
    if t.row.sets.contains u.set then
      (s.closeRow t true).modCmd acc (fun c => { c with closed := c.closed + 1 })
    else if u.recorded && s.rowDone u.set u.stripe && !s.ledTo.contains u.stripe && s.mp.ckpt.isNone then s.beginCkpt false
    else s
  | none => if u.recorded && !s.ledTo.contains u.stripe && s.mp.ckpt.isNone then s.beginCkpt false else s

/-- A mark's page is written back; where nothing then leads a wake to the copies, a checkpoint begins. -/
def Dev.pushMark (s : Dev) (pg : Nat) : Dev :=
  if s.mp.dirty.contains pg then s.writeBack [pg]
  else if s.pageKept pg || s.mp.ckpt.isSome then s
  else s.beginCkpt false

/-- A recorded copy's map entry is committed by a checkpoint, where nothing leads a wake to it yet (R141, R507). -/
def Dev.pushEntry (s : Dev) (u : Undurable) : Dev :=
  if s.mp.ckpt.isSome || s.pageKept (pageOf u.key) || s.ledTo.contains u.stripe then s else s.beginCkpt false

def Dev.pushVid (s : Dev) (acc vid : Nat) : Dev :=
  match s.bm.undurable.find? (fun u => u.vid = vid) with
  | none => s
  | some u =>
    if u.trim then s.pushMark (pageOf u.key)
    else if u.copy then s.pushEntry u
    else if u.set = 0 then s.pushUnsealed acc vid
    else s.pushSealed acc u

/-- A FUA write whose versions are all durable posts its completion (R131); so do Seal and Namespace Manage when their
checkpoint is (R157, R187). A Refresh whose pass has ended completes when its map entries are committed (R141). -/
def Dev.finishFua (s : Dev) (acc : Nat) : Dev :=
  match s.cmd acc with
  | some c =>
    if c.phase == .durable && s.covered c && c.waitOn ≤ s.get MP_CKPT_SEQ.seq then s.finishWaiting acc
    else match c.phase, c.done with
      | .running, some d => if s.covered c then s.commitWith acc d [] else s
      | _, _ => s
  | none => s

/-- A command asks for the durability of everything it covers. -/
def Dev.pushCmd (s : Dev) (acc : Nat) : Dev :=
  match s.cmd acc with
  | some c => s.each c.cover (fun s v => s.pushVid acc v)
  | none => s

/-- What Hasp Prepare asks: every version durable (R150), and then every open row closed (R299). -/
def Dev.pushAll (s : Dev) : Dev :=
  let s := s.each (s.undurableIn 0) (fun s v => s.pushVid 0 v)
  if s.bm.opens.isEmpty && s.ms.openSets.isEmpty then
    s.each (s.ms.stripes.filter (fun t => !t.row.sets.isEmpty)) (fun s t => s.closeRow t true)
  else s

/-! ### Reclaim copies on their way (R265, R269) -/

def Dev.modCopy (s : Dev) (unit pga : Nat) (f : Copy → Copy) : Dev :=
  s.modRc (fun r => { r with units := r.units.map (fun u =>
    if u.id = unit then { u with copies := u.copies.map (fun c => if c.pga = pga then f c else c) } else u) })

/-- The stream of a copy: 4 plus the age class of its source block group (R265). -/
def Dev.copyStream (s : Dev) (pga : Nat) : Nat :=
  let hours := (s.optSeconds - (s.entry (Pga.dieLun pga) (Pga.block pga)).born) / 3600
  4 + ([RC_AGE_CFG.a1_h, RC_AGE_CFG.a2_h, RC_AGE_CFG.a3_h].filter (fun f => s.get f ≤ hours)).length

/-- The codewords of a started unit that are neither read nor asked for are read. -/
def Dev.readCopy (s : Dev) (u : Unit_) (c : Copy) : Dev :=
  if c.placed || c.settled then s
  else s.each (List.range 16) (fun s i =>
    if (c.blocks.getD i none).isSome || s.cd.reqs.any (fun r => r.who == .reclaim u.id c.pga i) then s
    else s.newReq (c.pga * 16 + i) (.reclaim u.id c.pga i) 0 u.startNo)

def Dev.readUnits (s : Dev) : Dev :=
  s.each (s.rc.units.filter (fun u => u.started)) (fun s u => s.each u.copies (fun s c => s.readCopy u c))

/-- A copy whose 16 blocks are in read staging takes a slot of its stream's set. -/
def Dev.placeCopy (s : Dev) (u : Unit_) (c : Copy) : Dev :=
  let stream := s.copyStream c.pga
  if c.placed || c.settled || !c.blocks.all Option.isSome || c.blocks.length < 16 || !s.hasRoom stream then s
  else
    let e : SlotEntry := { kind := 2, key := c.key, stamp := c.stamp, epoch := (s.mp.epochs.find (gkeyNs c.key)).getD 0,
                           sub := Ent.sub (s.ent c.key), source := c.pga, blocks := c.blocks.map (fun b => b.getD .zero) }
    ((s.enterSet stream [] [e]).modCopy u.id c.pga (fun c => { c with placed := true })).trySeal stream

def Dev.placeCopies (s : Dev) : Dev :=
  s.each (s.rc.units.filter (fun u => u.started)) (fun s u => s.each u.copies (fun s c => s.placeCopy u c))

/-! ### Recording (R172, R269) -/

/-- A host version's set is verified: MP records it if its stamp is newer than the entry's, and BM frees its space. -/
def Dev.recordVersion (s : Dev) (place k : Nat) (e : SlotEntry) : Dev :=
  let old := s.ent e.key
  let alive := (s.mp.epochs.find (gkeyNs e.key)).getD 0 = e.epoch && s.mp.ns.has (gkeyNs e.key)
  let s := if alive && stampNewer e.stamp (BitVec.ofNat 16 (Ent.stamp old)) then
    s.putEnt e.key (Ent.mk (place + k) e.stamp.toNat false false e.sub false) else s
  let s := s.modBm (fun b => { b with
    sealeds := b.sealeds.filter (fun v => v.vid != e.vid)
    undurable := b.undurable.map (fun u => if u.vid = e.vid then { u with recorded := true } else u) })
  (s.releaseBuffer 1).settleStamp e.key

/-- A reclaim copy's set is verified: recorded only if the entry still holds the source stamp and place (R172) and no commit has
overtaken the copy (R272). Answers whether it was. -/
def Dev.recordCopy (s : Dev) (place k : Nat) (e : SlotEntry) : Dev × Bool :=
  let old := s.ent e.key
  let stale := s.rc.units.any (fun u => u.started && u.copies.any (fun c => c.pga = e.source && c.stale))
  if Ent.mapped old && Ent.pga old = e.source && Ent.stamp old = e.stamp.toNat && !stale then
    ((s.putEnt e.key (Ent.mk (place + k) e.stamp.toNat false false (Ent.sub old) (Ent.pinned old))).add RC_MOVED.moved 1, true)
  else (s, false)

/-- A copy is settled: recorded, or rejected under step 4 of R269. -/
def Dev.settleCopy (s : Dev) (pga : Nat) (recorded : Bool) : Dev :=
  s.modRc (fun r => { r with units := r.units.map (fun u => { u with copies := u.copies.map (fun c =>
    if c.pga = pga && c.placed && !c.settled then { c with settled := true, recorded := recorded } else c) }) })

/-- A recorded copy of a Refresh command's pass: the command waits until its map entry is committed (R141, R507). -/
def Dev.coverCopy (s : Dev) (place : Nat) (e : SlotEntry) : Dev :=
  match s.rc.units.findSome? (fun u => match u.why with
    | .refreshCommand acc => if u.copies.any (fun c => c.pga = e.source && c.placed) then some acc else none
    | _ => none) with
  | none => s
  | some acc =>
    let vid := s.bm.nextVid
    let set := ((s.nand.sets.find place).map (fun x => (x.seq, x.stripe))).getD (0, noStripe)
    (s.modBm (fun b => { b with
      nextVid := vid + 1
      undurable := b.undurable ++ [{ vid := vid, key := e.key, set := set.1, stripe := set.2, recorded := true, copy := true }] })).modCmd acc
        (fun c => { c with cover := c.cover ++ [vid] })

/-- One slot of a verified data set, whose map page is in the cache or lost. -/
def Dev.recordNow (s : Dev) (place k : Nat) (e : SlotEntry) : Dev :=
  if e.kind = 1 then s.recordVersion place k e
  else if e.kind = 2 then
    let r := s.recordCopy place k e
    (if r.2 then r.1.coverCopy place e else r.1).settleCopy e.source r.2
  else s

/-- A page's entries can be changed now. -/
def Dev.pageOpen (s : Dev) (pg : Nat) : Bool := s.pageReady pg || s.pageLost pg

/-- One slot of a verified data set: recorded, once its map page has been read (R168, R172). -/
def Dev.recordSlot (s : Dev) (place k : Nat) (e : SlotEntry) : Dev :=
  if e.kind = 0 || s.pageOpen (pageOf e.key) then s.recordNow place k e
  else (s.modMp (fun m => { m with records := m.records ++ [(place, k, e)] })).loadPage (pageOf e.key) 0 0

/-- Slots whose map page has come are recorded. -/
def Dev.applyRecords (s : Dev) : Dev :=
  let now := s.mp.records.filter (fun r => s.pageOpen (pageOf r.2.2.key))
  let s := s.modMp (fun m => { m with records := m.records.filter (fun r => !s.pageOpen (pageOf r.2.2.key)) })
  s.each now (fun s r => s.recordNow r.1 r.2.1 r.2.2)

/-- After anything that may bring a version nearer to flash: waiting sets seal, versions that became durable are noted,
waiting commands ask again, and those that have what they need finish. -/
def Dev.advance (s : Dev) : Dev :=
  let s := s.applyRecords.rehome.closeShort.readUnits.placeCopies.trySealAll.prune
  let s := (s.driveCkpt.writeBack s.pagesWanted).writeBack s.pagesCrowded
  let waiting := (s.qe.cmds.filter (fun c => !c.cover.isEmpty || c.phase == .durable)).map (fun c => c.acc)
  let s := s.each waiting (fun s a => s.pushCmd a)
  let s := if s.pw.phase == .preparing then s.pushAll else s
  s.prune.each waiting (fun s a => s.finishFua a)

end Sys2Proof.Machine
end

