-- ==== Sys2Proof/Machine/Arbiter.lean ====
section
/-! DEFINITION. Arbitration (R87 to R97), COMMAND_START, PROMOTION_AGE and HARD_AGE. -/

namespace Sys2Proof.Machine
open Reg

/-! ### Candidates (R87 to R97) -/

/-- Start-window entries in use: ordinary ones and reserved ones. A command that never started holds none (R87). -/
def Dev.entriesUsed (s : Dev) : Nat :=
  (s.qe.cmds.filter (fun c => c.startNo != 0 && !c.reservedEntry)).length + (s.rc.units.filter (fun u => u.started)).length
def Dev.reservedUsed (s : Dev) : Nat := (s.qe.cmds.filter (fun c => c.startNo != 0 && c.reservedEntry)).length

/-- What may be started. -/
inductive Pick where
  | cmd (c : Command)
  | unit (u : Unit_)
deriving DecidableEq, Repr

/-- One deficit round-robin (R91 to R93): the holder of the turn goes on while its deficit covers its candidate's cost;
otherwise the turn passes to the next key in ascending order, which gets its quantum. `turn` is the holder's key plus one,
0 before the first turn (log 13). -/
def drr {α : Type} (cands : List (Nat × Nat × α)) (deficit : Nat → Nat) (turn : Nat) (quantum : Nat → Nat) : Option (Nat × Nat × α) :=
  match cands.find? (fun c => c.1 + 1 = turn && c.2.1 ≤ deficit c.1) with
  | some c => some (c.1, deficit c.1 - c.2.1, c.2.2)
  | none =>
    match (cands.find? (fun c => turn ≤ c.1)).or cands.head? with
    | some c => some (c.1, deficit c.1 + quantum c.1 - c.2.1, c.2.2)
    | none => none

/-- The state of the three deficit levels after a choice: the winner's key and deficit at each level it competed in. -/
structure Turn where
  pick : Pick
  queue : Option (Nat × Nat × Nat) := none
  cls : Option (Nat × Nat × Nat) := none
deriving DecidableEq, Repr

/-- A queue-level choice among candidates of one class on one port (R91); `ring` names the round-robin. A queue has one deficit,
which it keeps when its candidate is promoted (log 81). -/
def Dev.queueLevel (s : Dev) (p ring : Nat) (cs : List (Nat × Command)) (rec_ : Option Unit_) : Option Turn :=
  let items : List (Nat × Nat × Pick) := cs.map (fun c => (c.1, c.2.cost, Pick.cmd c.2)) ++
    (match rec_ with | some u => [(reclaimKey, min 64 u.copies.length, Pick.unit u)] | none => [])
  match drr items (fun k => (s.qe.arb.queueDeficit.find (qkey p k)).getD 0) ((s.qe.arb.queueTurn.find (p * 8 + ring)).getD 0) (fun _ => 64) with
  | some (k, left, pick) => some { pick := pick, queue := some (ring, k, left) }
  | none => none

/-- A port's candidate (R92): Urgent candidates first, then the weighted classes and Reclaim by deficit round-robin. A
Reclaim unit is Urgent below the floor (R97), and where R268 makes it so. -/
def Dev.portLevel (s : Dev) (p : Nat) (cs : List (Nat × QClass × Command)) (off : Option Unit_) : Option Turn :=
  let urgentUnit : Bool := s.bit QE_PORT_SHARE.reclaim_urgent || (match off with | some u => u.urgent | none => false)
  let urgent := cs.filter (fun c => c.2.1 == .urgent || c.2.2.rank != .normal)
  match s.queueLevel p 0 (urgent.map (fun c => (c.1, c.2.2))) (if urgentUnit then off else none) with
  | some t => some t
  | none =>
    let ofClass (k : Nat) := (cs.filter (fun c => classNo c.2.1 = k)).map (fun c => (c.1, c.2.2))
    let weight (k : Nat) : Nat :=
      if k = 1 then s.get (qeReg p QE_ARB_WEIGHT.w0) else if k = 2 then s.get (qeReg p QE_ARB_WEIGHT.w1)
      else if k = 3 then s.get (qeReg p QE_ARB_WEIGHT.w2) else if k = 4 then s.get (qeReg p QE_ARB_WEIGHT.w3)
      else s.get QE_PORT_SHARE.reclaim_weight
    let cls : List (Nat × Nat × Turn) := ([1, 2, 3, 4].filterMap (fun k =>
      (s.queueLevel p k (ofClass k) none).map (fun t => (k, (match t.pick with | .cmd c => c.cost | .unit u => min 64 u.copies.length), t))))
      ++ (match off with | some u => [(5, min 64 u.copies.length, { pick := .unit u })] | none => [])
    match drr cls (fun k => (s.qe.arb.classDeficit.find (p * 8 + k)).getD 0) ((s.qe.arb.classTurn.find p).getD 0) (fun k => 64 * weight k) with
    | some (k, left, t) => some { t with cls := some (k, left, 0) }
    | none => none

/-- Write the winner's deficits and turns back. -/
def Arbiter.take (a : Arbiter) (p : Nat) (t : Turn) (portLeft : Nat) : Arbiter :=
  let a := match t.queue with
    | some (ring, k, left) => { a with
        queueDeficit := a.queueDeficit.put (qkey p k) left
        queueTurn := a.queueTurn.put (p * 8 + ring) (k + 1) }
    | none => a
  let a := match t.cls with
    | some (k, left, _) => { a with
        classDeficit := a.classDeficit.put (p * 8 + k) left
        classTurn := a.classTurn.put p (k + 1) }
    | none => a
  { a with
    portDeficit := a.portDeficit.put p portLeft
    portTurn := p + 1 }

/-- The next start (R87 to R96): the oldest master-key candidate where it may have an entry, else by deficit round-robin
of ports, classes and queues. Answers the choice and the arbiter after it. -/
def Dev.arbitrate (s : Dev) : Option (Pick × Bool × Arbiter) :=
  let cs := s.candidates
  let ordinary := s.entriesUsed < 8128
  let masters := (cs.filter (fun c => c.2.2.2.rank == .master)).map (fun c => c.2.2.2)
  match masters.foldl (fun b c => match b with | none => some c | some x => if c.acc < x.acc then some c else b) none with
  | some m =>
    if ordinary then some (.cmd m, false, s.qe.arb)
    else if s.reservedUsed < 64 then some (.cmd m, true, s.qe.arb)
    else none
  | none =>
    if !ordinary then none
    else
      let off := s.offered
      let ports := s.portList.filterMap (fun p =>
        (s.portLevel p ((cs.filter (fun c => c.1 = p)).map (fun c => c.2)) off).map (fun t =>
          (p, (match t.pick with | .cmd c => c.cost | .unit u => min 64 u.copies.length), t)))
      match drr ports (fun p => (s.qe.arb.portDeficit.find p).getD 0) s.qe.arb.portTurn
          (fun p => 64 * (if p = 0 then s.get QE_PORT_SHARE.share0 else s.get QE_PORT_SHARE.share1)) with
      | some (p, left, t) => some (t.pick, false, s.qe.arb.take p t left)
      | none => none

/-- A command leaves its FIFO with the next start number and a start-window entry; a failing check of R56, or a Sealed-state
rejection, completes it at once (R85, R56, R126), as does a FIFO line that fails its check (R389). -/
def Dev.startCmd (s : Dev) (c : Command) (reserved : Bool) : Dev :=
  let bad := s.startStatus c
  let s := s.modCmd c.acc (fun c => { c with
    phase := .started
    startNo := s.qe.nextStart
    reservedEntry := reserved
    seen := s.qe.nextAcc })
  let s := s.modQe (fun e => { e with nextStart := e.nextStart + 1 })
  let s := if reserved then s.raise (Irq.qe c.port 5) else s
  if s.armedFor Src.qeFifo then (s.lineFails c.acc Src.qeFifo).unitLine Src.qeFifo 1 0x30
  else match bad with
  | some st => s.fail c.acc st
  | none => s

/-- A Reclaim unit starts (R87, R90). -/
def Dev.startUnit (s : Dev) (u : Unit_) : Dev :=
  let n := s.qe.nextStart
  (s.modRc (fun r => { r with units := r.units.map (fun v => if v.id = u.id then { v with started := true, startNo := n } else v) })).modQe
    (fun e => { e with nextStart := e.nextStart + 1 })

/-- Arbitration reads the deficit tables; a line that fails its check restarts at zero, and the access completes (R389). -/
def Dev.readDeficits (s : Dev) : Dev :=
  if s.armedFor Src.qeDeficits then s.loseDeficits.unitLine Src.qeDeficits 0 0x30 else s

/-- COMMAND_START: arbitration grants one start (R85, R87). -/
def execCommandStart (s : State) : Res :=
  run s (fun d =>
    let d := d.readDeficits.zeroDeficits
    match d.arbitrate with
    | none => d
    | some (.cmd c, reserved, arb) => ((d.modQe (fun e => { e with arb := arb })).startCmd c reserved).zeroDeficits
    | some (.unit u, _, arb) => (((d.modQe (fun e => { e with arb := arb })).startUnit u).readUnits).zeroDeficits)

/-- Whether an age has reached a limit in ms: measured from the command's age origin, which needs its port in Running
(R95). -/
def Dev.aged (s : Dev) (c : Command) (ms : Nat) : Bool := (s.port c.port).state == .running && s.expired c.origin (msTicks ms)

/-- PROMOTION_AGE: a command's age reaches promotion_ms, and it ranks as Urgent (R95). -/
def execPromotionAge (acc : Nat) (s : State) : Res :=
  actOn s (fun d => d.cmd acc) (fun d c =>
    if c.rank == .normal && d.aged c (d.get (qeReg c.port QE_AGE_CFG.promotion_ms)) then d.modCmd acc (fun c => { c with rank := .urgent })
    else d)

/-- HARD_AGE: a command's age reaches hard_age_ms, and it ranks as master-key (R95); an operation of it that waits for tokens becomes the
claim (R217). -/
def execHardAge (acc : Nat) (s : State) : Res :=
  actOn s (fun d => d.cmd acc) (fun d c =>
    if c.rank != .master && d.aged c (d.get (qeReg c.port QE_AGE_CFG.hard_age_ms)) then
      (d.modCmd acc (fun c => { c with rank := .master })).claimMasters
    else d)

end Sys2Proof.Machine
end

