-- ==== Sys2Proof/Machine/Ingress.lean ====
section
/-! DEFINITION. Packets that reach a queue's ingress window: INGRESS_PACKET and RING_RELEASE (R50 to R57, R60, R84). -/

namespace Sys2Proof.Machine
open Reg

/-- Whether port p takes memory requests: Memory Space Enable, D0, no FLR in progress, the endpoint released (R315, R334,
log 17). -/
def Dev.takesMemory (s : Dev) (p : Nat) : Bool :=
  p < s.ports && (s.port p).mse && !(s.port p).d3hot && (s.port p).flrStart.isNone && s.image.loaded

/-- Record an AER error at a port (R320, R330, R331, R337): source 32 + 4p + 3. -/
def Dev.aerError (s : Dev) (p : Nat) (e : AerError) : Dev :=
  (s.modPort p (fun pt => { pt with aer := pt.aer ++ [e] })).raise (Irq.hp p 3)

/-- A packet dropped under R52: counted in stray, saturating; source 40 + 6p + 3. -/
def Dev.stray (s : Dev) (p : Nat) : Dev :=
  (s.modPort p (fun pt => { pt with stray := min (pt.stray + 1) 0xffff })).raise (Irq.qe p 3)

/-- QE takes a release count V where it lies between the last one and the posted count, and ignores it otherwise (R60). -/
def Queue.release (u : Queue) (v : Nat) : Queue :=
  if (v + 65536 - u.released % 65536) % 65536 ≤ (u.posted + 65536 - u.released % 65536) % 65536 then { u with released := v } else u

/-- The reason a TLP that is no proper packet is dropped, the first of the table (R51): its form, then its check. -/
def packetFault (off len : Nat) (be poisoned pcheck : Bool) (pkt : Packet) : Option (BitVec 16) :=
  if len ≠ 64 || off % 64 ≠ 0 || !be || poisoned then some St.invalidPacket
  else if pcheck && !Pkt.checkOk pkt then some St.packetCheckFailed
  else none

/-- A Ring Release packet carries only release and, where packet check is enabled, check (R57). -/
def releaseClean (pcheck : Bool) (pkt : Packet) : Bool :=
  let rest := pkt.toNat - (Pkt.release pkt) <<< 448 - (if pcheck then (Pkt.check pkt) <<< 480 else 0)
  rest = 0

/-- QE accepts a packet: the command enters the queue's FIFO with the next acceptance number (R84), and its release count
is taken (R60). A Flush covers what is not yet durable now (R134). -/
def Dev.accept (s : Dev) (p q : Nat) (pkt : Packet) (peer : Option PeerSrc) : Dev :=
  let scope := s.bm.undurable.filter (fun u => Pkt.nsid pkt = 0 || gkeyNs u.key = Pkt.nsid pkt)
  let c : Command := { acc := s.qe.nextAcc, port := p, queue := q, pkt := pkt, origin := s.now, order := s.qe.nextOrder, peer := peer
                       cover := if Pkt.opcode pkt = 0x03 then scope.map (fun u => u.vid) else [] }
  s.modQe (fun e => { e with
    cmds := e.cmds ++ [c]
    nextAcc := e.nextAcc + 1
    nextOrder := e.nextOrder + 1 })

/-- A Ring Release packet at queue q (R57): processed even while the queue is frozen, being deleted, or Deadbolt posts its
last completions (R112, R121, R124). One with a byte elsewhere is dropped as Invalid Packet; in Deadbolt, where no Freeze packet is
posted, it is counted in stray (log 81). -/
def Dev.ringRelease (s : Dev) (p q : Nat) (pkt : Packet) : Dev :=
  match s.queue p q with
  | none => s.stray p
  | some u =>
    if (s.port p).state == .booting || (s.port p).state == .deadbolt || s.qe.haspDrop then s.stray p
    else if !releaseClean u.pcheck pkt then (if s.qe.dead then s.stray p else s.dropPacket p q St.invalidPacket)
    else s.modQueue p q (fun u => u.release (Pkt.release pkt))

/-- A command packet at queue q: the checks of R51 in the order of the table, then acceptance. A tag array line that fails its
check is fatal (R389). The release count of a packet that is dropped is not taken (log 81). -/
def Dev.commandPacket (s : Dev) (p q : Nat) (u : Queue) (pkt : Packet) : Dev :=
  if u.depth ≤ (s.cmdsOf p q).length then s.dropPacket p q St.ingressOverflow
  else if s.armedFor Src.qeTags then s.unitLine Src.qeTags 2 0x30
  else if (s.cmdsOf p q).any (fun c => Pkt.tag c.pkt = Pkt.tag pkt) then s.dropPacket p q St.duplicateTag
  else (s.modQueue p q (fun u => u.release (Pkt.release pkt))).accept p q pkt none

/-- A write to ingress window q of port p. At a queue being deleted a TLP that is no proper packet goes to stray with the command
packets (log 81). -/
def Dev.ingress (s : Dev) (p q off len : Nat) (be poisoned : Bool) (pkt : Packet) : Dev :=
  let s := if poisoned then s.aerError p .poisonedTlp else s
  match s.queue p q with
  | none => s.stray p
  | some u =>
    if (s.port p).state == .booting || (s.port p).state == .deadbolt || s.qe.haspDrop then s.stray p
    else
      match packetFault off len be poisoned u.pcheck pkt with
      | some r => if s.qe.dead || u.state == .deleting then s.stray p else s.dropPacket p q r
      | none =>
        if Pkt.opcode pkt = 0 then s.ringRelease p q pkt
        else if s.qe.dead || u.state == .deleting then s.stray p
        else s.commandPacket p q u pkt

/-- INGRESS_PACKET: a memory write TLP of `len` bytes at offset `off` of queue q's window (R50). -/
def execIngressPacket (p q off len : Nat) (be poisoned : Bool) (pkt : Packet) (s : State) : Res :=
  act s (fun d => d.takesMemory p && q < 512) (fun d => d.ingress p q off len be poisoned pkt)

/-- RING_RELEASE: a well-formed Ring Release packet reaches queue q's window (R57). -/
def execRingRelease (p q : Nat) (pkt : Packet) (s : State) : Res :=
  act s (fun d => d.takesMemory p && q < 512 && Pkt.opcode pkt = 0) (fun d => d.ingress p q 0 64 true false pkt)

end Sys2Proof.Machine
end

