-- ==== Sys2Proof/Machine/Transfer.lean ====
section
/-! DEFINITION. Data between the device and host memory as shared operations: extents and gather segments (R73, R74), read
data TLPs (R75, R327), serving read-class commands (R108, R132, R168), and the transition to Sealed (R280). -/

namespace Sys2Proof.Machine
open Reg

/-! ### Free choices (log 6) -/

/-- A member of a list that the spec leaves to the device: the model leaves it free. -/
def Dev.choose (s : Dev) (l : List Nat) : Option Nat × Dev :=
  match l with
  | [] => (none, s)
  | [x] => (some x, s)
  | _ => (l[(Config.freeWord s.freeCtr).toNat % l.length]?, { s with freeCtr := s.freeCtr + 1 })

/-! ### Sealed (R279, R280) -/

/-- The transition: RC stops offering units, begins a checkpoint and posts Notice Sealed once that is durable. -/
def Dev.becomeSealed (s : Dev) : Dev :=
  if s.isSealed then s
  else
    let s := (s.flag RC_STATUS.sealed true).event 0x0a01 Src.rc (s.spareLeft % 2 ^ 32).toNat 0 0
    let s := s.raise (Irq.rc 3)
    let seq := s.get MP_CKPT_SEQ.seq + (if s.mp.ckpt.isSome then 2 else 1)
    (s.modRc (fun r => { r with sealedOpt := s.opt, sealSeq := some seq })).beginCkpt false

/-- A write-class admission with no spare left: the command completes with Capacity Sealed and the device is Sealed (R279). -/
def Dev.sealBy (s : Dev) (acc : Nat) : Dev := s.becomeSealed.fail acc St.capacitySealed

/-! ### Commands in the state a meaning needs -/

/-- Command acc, started by arbitration, its own row not yet run, and of opcode op. -/
def Dev.startedOp (s : Dev) (acc op : Nat) : Option Command :=
  (s.cmd acc).filter (fun c => c.phase == .started && c.op = op && !s.isDead)
/-- Command acc at work. -/
def Dev.runningCmd (s : Dev) (acc : Nat) : Option Command := (s.cmd acc).filter (fun c => c.phase == .running && !s.isDead)

/-- The host memory a command names: its extent, or its first gather segment. -/
def fetchOf (p : Packet) (need : Nat) : Fetch :=
  if Pkt.gather p then { need := need, seg := some (Pkt.addr p, Pkt.gcount p) }
  else { need := need, extents := [(Pkt.addr p, need)], listed := need }

/-! ### Gather segments (R73, R74) -/

/-- An entry of a gather segment out of its four words. -/
def gatherEntry (f : Fetch) (i : Nat) : Nat :=
  ofBytes ((List.range 4).flatMap (fun k => bytesOf ((f.segBuf.find (4 * i + k)).getD 0).toNat 4))

/-- One entry into the fetch: none where it breaks a rule of R73 or R74. `last` is whether it ends its segment. -/
def addEntry (f : Fetch) (e : Nat) (last : Bool) : Option Fetch :=
  let addr := bitsOf e 0 64
  let len := bitsOf e 64 32
  if bitsOf e 97 31 ≠ 0 then none
  else if bitsOf e 96 1 = 1 then
    if last && addr % 16 = 0 && 1 ≤ len && len ≤ 256 && f.segs < 63 then some { f with seg := some (addr, len) } else none
  else if addr % 4 = 0 && len % 4 = 0 && 4 ≤ len && len ≤ 4194304 && f.listed + len ≤ f.need then
    some { f with extents := f.extents ++ [(addr, len)], listed := f.listed + len }
  else none

/-- A fetched segment is checked before data moves through it (R74). A segment that the transfer never reaches, because the lengths
already add up, is neither fetched nor checked (log 81). -/
def checkSegment (f : Fetch) : Option Fetch :=
  match f.seg with
  | none => some f
  | some (_, n) =>
    let start : Option Fetch := some { f with seg := none, asked := false }
    let r := (List.range n).foldl (fun r i => r.bind (fun g => addEntry g (gatherEntry f i) (i + 1 = n))) start
    r.bind (fun g =>
      let g := { g with segs := g.segs + 1, segBuf := [] }
      if g.seg.isNone && g.listed < g.need then none else some g)

/-- The host address of a transfer position, and the bytes left in its extent. -/
def extentAt : List (Nat × Nat) → Nat → Option (Nat × Nat)
  | [], _ => none
  | (a, n) :: r, pos => if pos < n then some (a + pos, n - pos) else extentAt r (pos - n)

/-! ### Data out (R39, R75, R327, R328) -/

def blockBits : BlockData → Block
  | .data b => b
  | _ => 0

/-- The blocks of a read-class command in transfer order. -/
def Command.blockList (c : Command) : List (Option BlockData) := c.parts.flatMap (fun p => p.blocks)
/-- Leading bytes of a read whose blocks are all in read staging. -/
def Command.readyBytes (c : Command) : Nat := (c.blockList.takeWhile Option.isSome).length * 4096
/-- One byte of what a command writes to host memory: its blocks, or its log snapshot. -/
def Command.outByte (c : Command) (f : Fetch) (pos : Nat) : Nat :=
  if c.queue = 0 then fld ((f.buf.find (pos / 4)).getD 0) (8 * (pos % 4)) 8
  else match c.blockList.getD (pos / 4096) none with
    | some b => fld (blockBits b) (8 * (pos % 4096)) 8
    | none => 0

/-- The length of the next data TLP at an address (R39, R327). -/
def tlpLen (addr left pos mps : Nat) : Nat :=
  if pos = 0 then min left (min (min 256 mps) (4096 - addr % 4096)) else min left (mps - addr % mps)

/-- Write the next data TLP of a command, if its data and its extent are there. -/
def Dev.writeTlp (s : Dev) (acc limit : Nat) : Dev :=
  match s.cmd acc with
  | none => s
  | some c =>
    match c.fetch with
    | none => s
    | some f =>
      match extentAt f.extents f.issued with
      | none => s
      | some (addr, left) =>
        let pt := s.port c.port
        let n := min (tlpLen addr left f.issued pt.mps) (limit - f.issued)
        if n = 0 || !s.mayIssue c.port then s
        else
          let data := ofBytes ((List.range n).map (fun i => c.outByte f (f.issued + i)))
          let relaxed := match s.queue c.port c.queue with | some q => q.relaxed | none => false
          (s.modCmd acc (fun c => { c with fetch := some { f with issued := f.issued + n } })).emit
            (.memWrite c.port (BitVec.ofNat 64 addr) n (BitVec.ofNat 4096 data) (pt.roEnable && relaxed) pt.idoEnable (.readData acc))

/-- Write everything that is ready (R75). -/
def Dev.writeData (s : Dev) (acc : Nat) : Dev :=
  match s.cmd acc with
  | some c =>
    match c.fetch with
    | some f =>
      let limit := if c.queue = 0 then f.need else min f.need c.readyBytes
      s.each (List.range (f.need / 4 + 1)) (fun s _ => s.writeTlp acc limit)
    | none => s
  | none => s

/-! ### Serving read-class commands (R108, R132, R136, R168) -/

/-- Take one block of a part, or send for it. -/
def Dev.takeBlock (s : Dev) (c : Command) (p : Part) (k : Nat) : Dev :=
  let key := gkey (Pkt.nsid c.pkt) p.granule
  let i := p.first + k
  let give (b : Option BlockData) (f : Option (Nat × BitVec 16)) : Dev :=
    s.modCmd c.acc (fun c => { c with parts := c.parts.map (fun q => if q.granule = p.granule then
      { q with blocks := q.blocks.set k b, fail := match q.fail, f with
          | some a, some b => some (if b.1 < a.1 then b else a)
          | none, f => f
          | a, none => a } else q) })
  match p.blocks.getD k none with
  | some _ => s
  | none =>
    match s.lookBlock key i with
    | .buffer .poisoned => give (some .poisoned) (some (k, St.unrecoveredRead))
    | .buffer b => give (some b) none
    | .zero => give (some .zero) none
    | .lost | .lostPage => give (some .poisoned) (some (k, St.unrecoveredMapRead))
    | .needPage => s.loadPage (pageOf key) c.acc c.startNo
    | .flash a =>
      if s.cd.reqs.any (fun r => r.who == .host c.acc p.granule k) then s
      else (s.touch (pageOf key)).newReq a (.host c.acc p.granule k) c.acc c.startNo

/-- Serve one part, unless an earlier write-class command still holds one of its blocks (R108). -/
def Dev.servePart (s : Dev) (acc g : Nat) : Dev :=
  match s.cmd acc with
  | none => s
  | some c =>
    match c.parts.find? (fun p => p.granule = g) with
    | none => s
    | some p =>
      if p.st == .ready || s.readWaits c (16 * g + p.first) (16 * g + p.first + p.count) then s
      else
        let s := s.each (List.range p.count) (fun s k =>
          match s.cmd acc with
          | some c => match c.parts.find? (fun p => p.granule = g) with
            | some p => s.takeBlock c p k
            | none => s
          | none => s)
        s.modCmd acc (fun c => { c with parts := c.parts.map (fun q => if q.granule = g then
          { q with st := if q.blocks.all Option.isSome then .ready else .busy } else q) })

/-- The first failing block of a read-class command: its LBA and status (R133). -/
def Command.failure (c : Command) : Option (Nat × BitVec 16) :=
  (c.parts.filterMap (fun p => p.fail.map (fun f => (16 * p.granule + p.first + f.1, f.2)))).head?
/-- The highest tier any of its blocks needed. -/
def Command.tier (c : Command) : Nat := (c.parts.map (fun p => p.tier)).foldl max 0

/-- A read-class command fails at its first failing block; a media status carries the block's LBA and the highest tier the ladder
tried for the command (R113, R129, R133, R140). -/
def Dev.failBlock (s : Dev) (acc : Nat) (f : Nat × BitVec 16) : Dev :=
  let n := ((s.cmd acc).map (fun c => c.peerCount)).getD 0
  let tier := ((s.cmd acc).map (fun c => c.tier)).getD 0
  if St.media f.2 then s.failWith acc { status := f.2, lba := some (BitVec.ofNat 64 f.1), result := BitVec.ofNat 64 n } tier
  else s.failWith acc { status := f.2, result := BitVec.ofNat 64 n } 0

/-! ### Peer Copy Out (R138 to R140, R339) -/

def Command.targetNode (c : Command) : Nat := Pkt.cdwA c.pkt % 512
def Command.targetBar (c : Command) : Nat := Pkt.cdwB c.pkt 36 64
def Command.targetSlba (c : Command) : Nat := Pkt.cdwB c.pkt 44 48
def Command.targetNs (c : Command) : Nat := Pkt.cdwB c.pkt 50 16
/-- The request ID of an outstanding peer write request of a command. -/
def Command.peerRequest (c : Command) : Option (BitVec 16) :=
  match c.peerStep with
  | .waitReady r _ => some r
  | .granted r _ _ => some r
  | .waitDone r _ => some r
  | .idle => none
/-- The granule a Peer Copy Out is at. -/
def Command.peerPart (c : Command) : Option Part := c.parts[c.peerCount]?

/-- The requests outstanding to a target. -/
def Dev.peerRequests (s : Dev) (node : Nat) : List (BitVec 16) :=
  (s.qe.cmds.filter (fun c => c.op = 0x08 && c.targetNode = node && !c.committed)).filterMap (fun c => c.peerRequest)

/-- A peer write request for one granule (R339). -/
def Dev.peerRequestPkt (s : Dev) (c : Command) (p : Part) (req : Nat) : Packet :=
  let slba := c.targetSlba + (16 * p.granule + p.first - c.lo)
  let dom := (s.host.domain).getD (0, 0)
  let body := pack [(0, 8, 1), (8, 8, Pkt.flags c.pkt &&& 0x74), (16, 16, req), (32, 16, c.targetNs), (48, 9, dom.2), (64, 64, slba),
    (128, 32, p.count), (160, 64, dom.1.toNat), (224, 64, (s.port c.port).bar4.toNat)]
  BitVec.ofNat 512 (body + (crc32c (bytesOf body 60)) <<< 480)

/-- Write the request into the target's window, at a 64-byte-aligned offset the device chooses; the wait starts (R140). -/
def Dev.sendRequest (s : Dev) (c : Command) (p : Part) : Dev :=
  let busy := s.peerRequests c.targetNode
  let req := ((List.range 65).map (fun i => (s.host.nextRequest + i) % 65536)).find? (fun n => !busy.contains (BitVec.ofNat 16 n))
  match req with
  | none => s
  | some req =>
    let node := ((s.host.domain).map (fun d => d.2)).getD 0
    let off := (Config.freeWord s.freeCtr).toNat % 64 * 64
    let pkt := s.peerRequestPkt c p req
    let s := { s with freeCtr := s.freeCtr + 1, host := { s.host with nextRequest := (req + 1) % 65536 } }
    let s := s.emit (.memWrite c.port (BitVec.ofNat 64 (c.targetBar + node * 0x1000 + off)) 64 (pkt.setWidth 4096) false (s.port c.port).idoEnable .peerRequest)
    s.modCmd c.acc (fun c => { c with peerStep := .waitReady (BitVec.ofNat 16 req) s.now })

/-- Write a granule's data to the granted slot. -/
def Dev.sendData (s : Dev) (c : Command) (p : Part) (req : BitVec 16) (slot off : Nat) : Dev :=
  let pt := s.port c.port
  let base := c.targetBar + 0x800000 + slot * 65536 + off
  let total := p.count * 4096
  let byte (i : Nat) : Nat := match p.blocks.getD (i / 4096) none with | some b => fld (blockBits b) (8 * (i % 4096)) 8 | none => 0
  let go (a : Dev × Nat) (_ : Nat) : Dev × Nat :=
    let n := tlpLen (base + a.2) (total - a.2) a.2 pt.mps
    if n = 0 then a
    else (a.1.emit (.memWrite c.port (BitVec.ofNat 64 (base + a.2)) n (BitVec.ofNat 4096 (ofBytes ((List.range n).map (fun i => byte (a.2 + i)))))
            pt.roEnable pt.idoEnable .peerData), a.2 + n)
  let s := ((List.range (total / 128 + 2)).foldl go (s, 0)).1
  s.modCmd c.acc (fun c => { c with peerStep := .waitDone req s.now })

/-- The next thing a Peer Copy Out does: fail at an unreadable granule, send its request, send its data. -/
def Dev.peerPush (s : Dev) (acc : Nat) : Dev :=
  match s.runningCmd acc with
  | none => s
  | some c =>
    match c.peerPart with
    | none => s
    | some p =>
      match c.peerStep, p.fail with
      | .idle, some f => if p.st == .ready then s.failBlock acc (16 * p.granule + p.first + f.1, f.2) else s
      | .idle, none =>
        if p.st == .ready && s.mayIssue c.port && (s.peerRequests c.targetNode).length < 64 then s.sendRequest c p else s
      | .granted r slot off, _ => if s.mayIssue c.port then s.sendData c p r slot off else s
      | _, _ => s

/-- Serve a read-class command; a Read's data goes out as it becomes ready, a Peer Copy Out goes granule by granule. -/
def Dev.serve (s : Dev) (acc : Nat) : Dev :=
  match s.runningCmd acc with
  | some c =>
    if readClass c.op then
      let parts := if c.op = 0x08 then (c.peerPart).toList else c.parts
      let s := s.each (parts.map (fun p => p.granule)) (fun s g => s.servePart acc g)
      if c.op = 0x02 then s.writeData acc else if c.op = 0x08 then s.peerPush acc else s
    else s
  | none => s

/-- Every read-class command that waits looks again: after a commit, a failure, a decode or a page load (R108). In Deadbolt no
command is at work any more (R124). -/
def Dev.serveAll (s : Dev) : Dev :=
  if s.isDead then s else s.each ((s.qe.cmds.filter (fun c => c.phase == .running && readClass c.op)).map (fun c => c.acc)) (fun s a => s.serve a)

/-- Everything that waits moves on; in Deadbolt nothing does (R427). -/
def Dev.stir (s : Dev) : Dev := if s.isDead then s else s.advance.serveAll

end Sys2Proof.Machine
end

