-- ==== Sys2Proof/Machine/Buffer.lean ====
section
/-! DEFINITION. Write data in: WRITE, BUFFER_RESERVATION, SLOT_WRITE, DATA_TIMEOUT, SLOT_QUARANTINE_EXPIRY,
PULL_READ_REQUEST, COMPLETION_TLP, COMPLETION_TIMEOUT and TAG_QUARANTINE_EXPIRY (R64 to R77, R320, R325 to R331, R335). -/

namespace Sys2Proof.Machine
open Reg

/-! ### Write -/

/-- WRITE: the command's granules wait for buffer space; in pull mode its host memory is named (R64, R71, R130). -/
def Dev.beginWrite (s : Dev) (c : Command) : Dev :=
  s.modCmd c.acc (fun c => { c with
    phase := .running
    parts := partsOf (Pkt.slba c.pkt) (Pkt.nlb c.pkt)
    fetch := if Pkt.pull c.pkt then some (fetchOf c.pkt (Pkt.nlb c.pkt * 4096)) else none })

def execWrite (acc : Nat) (s : State) : Res := actOn s (fun d => d.startedOp acc 0x01) (fun d c => d.beginWrite c)

/-! ### Reservation (R24, R66, R267, R279, R318) -/

/-- Slots of a BAR: R67, R338. -/
def Dev.slotTotal (s : Dev) (bar : Nat) : Nat := if bar = 4 then 128 else 2 ^ s.image.bar2Log2 / 65536
/-- Slots that are neither live nor quarantined (R318). -/
def Dev.freeSlots (s : Dev) (p bar : Nat) : List Nat :=
  (List.range (s.slotTotal bar)).filter (fun n =>
    !s.qe.grants.any (fun g => g.port == p && g.bar == bar && g.slot == n && !g.complete)
      && !s.qe.slotQ.any (fun q => q.port == p && q.bar == bar && q.slot == n))
/-- Grants of a port that are live (R66). -/
def Dev.liveGrants (s : Dev) (p : Nat) : List Grant := s.qe.grants.filter (fun g => g.port == p && !g.complete)
/-- Live grants of one queue. -/
def Dev.liveOf (s : Dev) (p q : Nat) : Nat :=
  ((s.liveGrants p).filter (fun g => match s.cmd g.acc with | some c => c.queue = q | none => false)).length
/-- The most grants of one queue that may be live: its depth, or 4096 of the peer queue (R66, R139). -/
def Dev.grantLimit (s : Dev) (p q : Nat) : Nat := if q = peerQ then 4096 else ((s.queue p q).map (fun u => u.depth)).getD 0
def Dev.freeGids (s : Dev) (p : Nat) : List Nat :=
  (List.range 65536).filter (fun n => !(s.liveGrants p).any (fun g => g.gid == n))

/-- A Deallocate or Write Zeroes acts on this granule as a partial one: it covers it in part, or a later command has committed
into it (R135, R173). -/
def Command.isPartial (c : Command) (p : Part) : Bool :=
  p.count < 16 || (List.range 16).any (fun i => c.passedAt (16 * p.granule + i))

/-- The part that waits for space: of a Write the next in order, of a Deallocate or Write Zeroes the next partly covered. -/
def Command.nextPart (c : Command) : Option Part :=
  c.parts.find? (fun p => !p.reserved && (c.op = 0x01 || c.isPartial p))
/-- Buffer space and the seal reserve allow a reservation (R24, R267). -/
def Dev.spaceFree (s : Dev) : Bool := s.bm.used < s.bm.gib * 16384 && !(s.freeCount ≤ s.get RC_SEAL_CFG.reserve)

/-- The kind of grant a command's part gets: BAR4 for a peer write, none on the wire for pull, else BAR2. -/
def Command.bar (c : Command) : Nat := if c.peer.isSome then 4 else if Pkt.pull c.pkt then 0 else 2

/-- Issue the grant of a reserved part: a slot and grant ID, and for push its Transfer-Ready packet (R64, R65, R71). -/
def Dev.issueGrant (s : Dev) (c : Command) (p : Part) : Dev :=
  let slots := if c.bar = 0 then [0] else s.freeSlots c.port c.bar
  let a := s.choose slots
  let b := a.2.choose (s.freeGids c.port)
  match a.1, b.1 with
  | some slot, some gid =>
    let pos := (16 * p.granule + p.first - Pkt.slba c.pkt) * 4096
    let limit := s.get (qeReg c.port QE_DATA_TIMEOUT.timeout_ms)
    let g : Grant := { gid := gid, port := c.port, bar := c.bar, slot := slot, acc := c.acc, granule := p.granule,
                       first := p.first, count := p.count, pos := pos, limitMs := limit }
    let s := b.2.modQe (fun e => { e with grants := e.grants ++ [g] })
    let s := s.modCmd c.acc (fun c => { c with parts := c.parts.map (fun q =>
      if q.granule = p.granule then { q with reserved := true, st := .busy, grant := some gid } else q) })
    let tag := match c.peer with | some src => src.request.toNat | none => Pkt.tag c.pkt
    let q := if c.peer.isSome then 0xffff else c.queue
    if c.bar = 0 then s
    else s.toRing c.port c.queue { bits := readyPkt tag gid q slot (p.first * 4096) (p.count * 4096) pos limit, grant := some gid, owner := c.acc,
                                        dest := c.peer.map (fun x => x.bar4) }
  | _, _ => s

/-- Whether a grant may be issued now (R66, R318). -/
def Dev.grantFree (s : Dev) (c : Command) : Bool :=
  s.liveOf c.port c.queue < s.grantLimit c.port c.queue && (s.liveGrants c.port).length < 65536
    && (c.bar = 0 || !(s.freeSlots c.port c.bar).isEmpty)

/-- Reserve one buffer granule. -/
def Dev.takeSpace (s : Dev) : Dev := (s.modBm (fun b => { b with used := b.used + 1 })).notePressure

/-- Reserve for the command's next part. A Write's first reservation is its admission (R279). -/
def Dev.reserve (s : Dev) (c : Command) (p : Part) : Dev :=
  if c.op = 0x01 then
    if !c.parts.any (fun q => q.reserved) && s.spareLeft ≤ 0 then s.sealBy c.acc
    else if s.grantFree c then s.takeSpace.issueGrant c p else s
  else s.takeSpace.modCmd c.acc (fun c => { c with parts := c.parts.map (fun q =>
    if q.granule = p.granule then { q with reserved := true } else q) })

/-- BUFFER_RESERVATION: the next part of a command that waits gets its buffer granule, unless an earlier read still holds
the granule's data (R108). -/
def execBufferReservation (acc : Nat) (s : State) : Res :=
  actOn s (fun d => (d.runningCmd acc).filter (fun c => writeClass c.op)) (fun d c =>
    match c.nextPart with
    | some p => if d.writeWaits c p.granule || !d.spaceFree then d else d.reserve c p
    | none => d)

/-! ### Arrival of data (R67, R68) -/

/-- The words of a grant's range, as a mask of its `have_` bits. -/
def Grant.mask (g : Grant) : BitVec 16384 := BitVec.ofNat 16384 ((2 ^ (g.count * 1024) - 1) <<< (g.first * 1024))
/-- Every line of the range has arrived. -/
def Grant.full (g : Grant) : Bool := g.have_ &&& g.mask == g.mask
/-- Put n words at word w of the granule. -/
def Grant.store (g : Grant) (w : Nat) (words : List Dword) : Grant :=
  let n := words.length
  let v := ofBytes (words.flatMap (fun d => bytesOf d.toNat 4))
  let m := BitVec.ofNat 524288 ((2 ^ (32 * n) - 1) <<< (32 * w))
  { g with
    data := (g.data &&& ~~~ m) ||| BitVec.ofNat 524288 (v <<< (32 * w))
    have_ := g.have_ ||| BitVec.ofNat 16384 ((2 ^ n - 1) <<< w) }

/-- GRANT_COMPLETE (R67): the timer stops and the part is in the DRAM buffer. BM's read of ingress staging for the DRAM copy is
its only one: a line that fails its check there fails the command (R389). -/
def Dev.settleGrant (s : Dev) (p gid : Nat) : Dev :=
  match s.qe.grants.find? (fun g => g.port == p && g.gid == gid && !g.complete) with
  | none => s
  | some g =>
    if g.full && s.armedFor Src.ingressStaging then
      (((s.lineFails g.acc Src.ingressStaging).raise Irq.stagingCrc).unitLine Src.ingressStaging 1 0x31).stir
    else if g.full then
      let s := s.modQe (fun e => { e with grants := e.grants.map (fun x =>
        if x.port == p && x.gid == gid && !x.complete then { x with complete := true, timer := none } else x) })
      s.modCmd g.acc (fun c => { c with parts := c.parts.map (fun q => if q.granule = g.granule then { q with st := .ready } else q) })
    else s

/-- Store words into a live grant and see whether it is complete. -/
def Dev.arrive (s : Dev) (p gid w : Nat) (words : List Dword) : Dev :=
  (s.modQe (fun e => { e with grants := e.grants.map (fun g =>
    if g.port == p && g.gid == gid && !g.complete then g.store w words else g) })).settleGrant p gid

/-- The live grant whose range holds slot bytes [off, off + len) of a BAR's slots (R68). -/
def Dev.grantAt (s : Dev) (p bar off len : Nat) : Option Grant :=
  s.qe.grants.find? (fun g => g.port == p && g.bar == bar && !g.complete && g.slot * 65536 + g.first * 4096 ≤ off
    && off + len ≤ g.slot * 65536 + (g.first + g.count) * 4096)

/-- The 32-bit words of 64-byte lines. -/
def lineWords (l : List Line) : List Dword := l.flatMap (fun x => (List.range 16).map (fun i => BitVec.ofNat 32 (fld x (32 * i) 32)))

/-- SLOT_WRITE: BM stores the lines of a write to ingress slots, or drops and counts it (R67, R68, R320, R338). -/
def Dev.slotWrite (s : Dev) (p bar off len : Nat) (be poisoned : Bool) (lines : List Line) : Dev :=
  let s := if poisoned then s.aerError p .poisonedTlp else s
  match s.grantAt p bar off len with
  | some g =>
    if be && !poisoned && off % 64 = 0 && len % 64 = 0 then
      s.arrive p g.gid ((off - g.slot * 65536) / 4) (lineWords (lines.take (len / 64)))
    else s.addSat (hpReg p HP_BAR_DROPS.slot) 1
  | none => s.addSat (hpReg p HP_BAR_DROPS.slot) 1

/-- The byte offset within the slots of a BAR: BAR4's begin at 0x80_0000 (R338). -/
def slotOffset (bar off : Nat) : Option Nat :=
  if bar = 2 then some off else if bar = 4 && 0x800000 ≤ off && off < 0x1000000 then some (off - 0x800000) else none

def execSlotWrite (p bar off len : Nat) (be poisoned : Bool) (lines : List Line) (s : State) : Res :=
  actOn s (fun d => if d.takesMemory p && (bar = 2 || d.image.bar4) then slotOffset bar off else none)
    (fun d o => d.slotWrite p bar o len be poisoned lines)

/-- DATA_TIMEOUT: the grant's data timer expires and the command fails (R77). -/
def execDataTimeout (p gid : Nat) (s : State) : Res :=
  actOn s (fun d => d.qe.grants.find? (fun g => g.port == p && g.gid == gid && !g.complete && !d.isDead)) (fun d g =>
    match g.timer with
    | some c => if d.expired c (msTicks g.limitMs) then (d.failWith g.acc { status := St.dataTimeout } gid).stir else d
    | none => d)

/-- SLOT_QUARANTINE_EXPIRY: 100 ms after its grant ended, a slot is free again (R70). -/
def execSlotQuarantineExpiry (p bar slot : Nat) (s : State) : Res :=
  run s (fun d => d.modQe (fun e => { e with slotQ := e.slotQ.filter (fun q =>
    !(q.port == p && q.bar == bar && q.slot == slot && d.expired q.start (msTicks 100))) }))

/-! ### Pull reads (R71 to R74, R325, R326) -/

/-- The tags a port may use (R325). -/
def Port.tags (pt : Port) : List Nat :=
  if pt.tag14 then (List.range 1024).map (fun i => i + 1)
  else if pt.tag10 then (List.range 1024).filter (fun t => t / 256 ≠ 0)
  else List.range 256
/-- Tags of a port that are free, none while 1024 requests are outstanding or quarantined. -/
def Dev.freeTags (s : Dev) (p : Nat) : List Nat :=
  let used := (s.qe.reqs.filter (fun r => r.port == p)).map (fun r => r.tag) ++ (s.qe.tagQ.filter (fun r => r.port == p)).map (fun r => r.tag)
  if 1024 ≤ used.length then [] else (s.port p).tags.filter (fun t => !used.contains t)

/-- Issue one read request under a free tag (R328: relaxed ordering and ID ordering as the port enables them). -/
def Dev.issueRequest (s : Dev) (r : Request) : Dev :=
  let a := s.choose (s.freeTags r.port)
  match a.1 with
  | none => s.modQe (fun e => { e with reissue := e.reissue ++ [r] })
  | some tag =>
    let pt := s.port r.port
    (a.2.modQe (fun e => { e with reqs := e.reqs ++ [{ r with tag := tag, start := s.now, got := 0 }] })).emit
      (.memRead r.port tag (BitVec.ofNat 64 r.addr) r.len pt.roEnable pt.idoEnable)

/-- The length of a request: Max_Read_Request_Size, the 4 KiB boundary and the extent bound it (R326). -/
def requestLen (addr left mrrs : Nat) : Nat := min left (min mrrs (4096 - addr % 4096))

/-- Bytes of a command's transfer that it has grants for; a firmware piece needs none. -/
def Command.grantedBytes (c : Command) (f : Fetch) : Nat :=
  if c.queue = 0 then f.need else ((c.parts.takeWhile (fun p => p.reserved)).map (fun p => p.count * 4096)).sum

/-- A grant's data timer starts: at a pull grant's first read request, at the posting of a push grant's own Transfer-Ready packet
(R76). -/
def Dev.startPullTimer (s : Dev) (p gid acc : Nat) : Dev :=
  s.modQe (fun e => { e with grants := e.grants.map (fun g =>
    if g.port == p && g.gid == gid && g.acc = acc && !g.complete && g.timer.isNone then { g with timer := some s.now } else g) })

/-- The request for the next bytes of a pull transfer. -/
def Dev.pullData (s : Dev) (c : Command) (f : Fetch) : Dev :=
  match extentAt f.extents f.issued with
  | none => s
  | some (addr, left) =>
    let part := c.parts.find? (fun p =>
      (16 * p.granule + p.first - Pkt.slba c.pkt) * 4096 ≤ f.issued && f.issued < (16 * p.granule + p.first + p.count - Pkt.slba c.pkt) * 4096)
    let room := match part with
      | some p => (16 * p.granule + p.first + p.count - Pkt.slba c.pkt) * 4096 - f.issued
      | none => c.grantedBytes f - f.issued
    let n := min room (requestLen addr left (s.port c.port).mrrs)
    let gid := part.bind (fun p => p.grant)
    if n = 0 || (s.freeTags c.port).isEmpty then s
    else
      let s := s.modCmd c.acc (fun c => { c with fetch := some { f with issued := f.issued + n } })
      let s := match gid with | some g => s.startPullTimer c.port g c.acc | none => s
      s.issueRequest { port := c.port, tag := 0, acc := c.acc, grant := gid, pos := f.issued, addr := addr, len := n, start := 0 }

/-- The requests for a gather segment, split at 4 KiB boundaries (R326). -/
def Dev.pullSegment (s : Dev) (c : Command) (f : Fetch) (addr n : Nat) : Dev :=
  let mrrs := (s.port c.port).mrrs
  let total := n * 16
  let s := s.modCmd c.acc (fun c => { c with fetch := some { f with asked := true, segBuf := [] } })
  let go (a : Dev × Nat) (_ : Nat) : Dev × Nat :=
    let len := requestLen (addr + a.2) (total - a.2) mrrs
    if len = 0 then a
    else (a.1.issueRequest { port := c.port, tag := 0, acc := c.acc, grant := none, pos := a.2, addr := addr + a.2, len := len, start := 0, seg := true },
          a.2 + len)
  ((List.range (total / 64 + 2)).foldl go (s, 0)).1

/-- The commands that read from host memory: pull Writes and firmware pieces read data; any may read segments. -/
def Command.pulls (c : Command) : Bool := c.op = 0x01 || c.op = 0x88

/-- The next request of one command: a segment when the transfer reaches it, else data it has a grant for. -/
def Dev.pull (s : Dev) (c : Command) (f : Fetch) : Dev :=
  if f.issued = f.listed && f.issued < f.need then
    match f.seg with
    | some (addr, n) => if f.asked then s else s.pullSegment c f addr n
    | none => s
  else if c.pulls && f.issued < min f.need (c.grantedBytes f) then s.pullData c f else s

/-- Requests that wait to be issued again go first (R72). -/
def Dev.reissueOne (s : Dev) (acc : Nat) : Option Request := s.qe.reissue.find? (fun r => r.acc = acc)

/-- PULL_READ_REQUEST: the next read request of a command, within the tag and non-posted limits (R71, R325). -/
def execPullReadRequest (acc : Nat) (s : State) : Res :=
  actOn s (fun d => (d.runningCmd acc).filter (fun c => d.mayIssue c.port)) (fun d c =>
    match d.reissueOne acc with
    | some r => if (d.freeTags r.port).isEmpty then d
                else (d.modQe (fun e => { e with reissue := e.reissue.erase r })).issueRequest r
    | none => match c.fetch with
      | some f => d.pull c f
      | none => d)

/-! ### Completions (R72, R326, R329 to R331, R335) -/

/-- The completion timer's limit in µs (R329). -/
def ctoMicros (v : Nat) : Nat :=
  if v = 1 then 80 else if v = 2 then 8000 else if v = 6 then 160000 else if v = 9 then 700000 else if v = 10 then 3000000
  else if v = 13 then 10000000 else if v = 14 then 50000000 else 40000

/-- Quarantine a tag for the device value in force plus 50 ms (R330). -/
def Dev.quarantineTag (s : Dev) (p tag : Nat) : Dev :=
  s.modQe (fun e => { e with
    reqs := e.reqs.filter (fun r => !(r.port == p && r.tag == tag))
    tagQ := e.tagQ ++ [⟨p, tag, s.now, ctoMicros (s.port p).ctoValue + 50000, false⟩] })

/-- A request timed out: the tag is quarantined, and it is issued again while retries are left, or its command fails (R72,
R330). -/
def Dev.requestTimeout (s : Dev) (r : Request) : Dev :=
  let s := s.quarantineTag r.port r.tag
  match s.cmd r.acc with
  | none => s
  | some c =>
    if c.phase != .running then s
    else if r.tries < s.get (qeReg r.port QE_PULL_CFG.retries) then
      (if s.mayIssue r.port then s.issueRequest { r with tries := r.tries + 1 }
       else s.modQe (fun e => { e with reissue := e.reissue ++ [{ r with tries := r.tries + 1 }] }))
    else (s.fail r.acc St.hostAccessError).stir

/-- Words into a table from index i on. -/
def putWords (t : Tbl Dword) (i : Nat) (ws : List Dword) : Tbl Dword :=
  (ws.foldl (fun a w => (a.1.put a.2 w, a.2 + 1)) (t, i)).1

/-- A gather segment has arrived: it is checked, and a breach fails the command (R74). -/
def Dev.segmentArrived (s : Dev) (acc : Nat) : Dev :=
  match s.cmd acc with
  | none => s
  | some c =>
    match c.fetch with
    | none => s
    | some f =>
      if s.qe.reqs.any (fun r => r.acc = acc && r.seg) || s.qe.reissue.any (fun r => r.acc = acc && r.seg) then s
      else match checkSegment f with
        | none => (s.fail acc St.invalidGatherList).stir
        | some g =>
          let s := s.modCmd acc (fun c => { c with fetch := some g })
          if c.pulls then s else s.writeData acc

/-- Data of a request is placed by its address (R326). -/
def Dev.placeData (s : Dev) (r : Request) (words : List Dword) : Dev :=
  let at_ := r.pos + r.got
  if r.seg then
    (s.modCmd r.acc (fun c => { c with fetch := c.fetch.map (fun f => { f with segBuf := putWords f.segBuf (at_ / 4) words }) }))
  else match r.grant with
    | some gid =>
      match s.qe.grants.find? (fun g => g.port == r.port && g.gid == gid && g.acc = r.acc) with
      | some g => s.arrive r.port gid ((at_ - g.pos) / 4 + g.first * 1024) words
      | none => s
    | none => s.modCmd r.acc (fun c => { c with fetch := c.fetch.map (fun f => { f with buf := putWords f.buf (at_ / 4) words }) })

/-- The data of a successful completion are not a part of what the request still awaits: the wrong length (R331). -/
def Request.wrongLength (r : Request) (status : CplStatus) (poisoned : Bool) (data : List Dword) : Bool :=
  status == .successful && !poisoned && (data.isEmpty || r.len < r.got + 4 * data.length)

/-- A completion that matches an outstanding request; malformed: it carries another wrong length or a wrong address (R331). -/
def Dev.matched (s : Dev) (r : Request) (status : CplStatus) (poisoned malformed : Bool) (data : List Dword) : Dev :=
  let drop (s : Dev) : Dev := s.modQe (fun e => { e with reqs := e.reqs.filter (fun x => !(x.port == r.port && x.tag == r.tag)) })
  if malformed || r.wrongLength status poisoned data then (s.aerError r.port .malformedTlp).requestTimeout r
  else if status != .successful then
    let s := drop s
    match s.runningCmd r.acc with
    | some _ => (s.fail r.acc St.hostAccessError).stir
    | none => s
  else if poisoned then
    let s := (drop s).aerError r.port .poisonedTlp
    match s.runningCmd r.acc with
    | some _ => (s.fail r.acc St.hostDataPoisoned).stir
    | none => s
  else
    let done := r.len ≤ r.got + 4 * data.length
    let s := if done then drop s
      else s.modQe (fun e => { e with reqs := e.reqs.map (fun x =>
        if x.port == r.port && x.tag == r.tag then { x with got := x.got + 4 * data.length } else x) })
    match s.runningCmd r.acc with
    | some _ =>
      let s := s.placeData r data
      if r.seg && done then s.segmentArrived r.acc else s
    | none => s

/-- COMPLETION_TLP: a completion arrives and is placed, or is dropped as late, unexpected or malformed. -/
def execCompletionTlp (p tag : Nat) (status : CplStatus) (poisoned malformed : Bool) (data : List Dword) (s : State) : Res :=
  run s (fun d =>
    match d.qe.reqs.find? (fun r => r.port == p && r.tag == tag) with
    | some r => d.matched r status poisoned malformed data
    | none =>
      match d.qe.tagQ.find? (fun q => q.port == p && q.tag == tag) with
      | some q =>
        if q.flr then (d.addSat (hpReg p HP_CPL_EVENTS.unexpected) 1).event 0x0302 (Src.port p) p tag 0
        else (d.addSat (hpReg p HP_CPL_EVENTS.late) 1).event 0x0301 (Src.port p) p tag 0
      | none => d.aerError p .unexpectedCompletion)

/-- COMPLETION_TIMEOUT: a request's completion timer expires (R329, R330). -/
def execCompletionTimeout (p tag : Nat) (s : State) : Res :=
  actOn s (fun d => d.qe.reqs.find? (fun r => r.port == p && r.tag == tag)) (fun d r =>
    if !(d.port p).ctoDisable && d.expired r.start (ctoMicros (d.port p).ctoValue) then
      ((d.addSat (hpReg p HP_CTO.expiries) 1).aerError p .completionTimeout).requestTimeout r
    else d)

/-- TAG_QUARANTINE_EXPIRY: the tag returns to the pool (R330, R335). -/
def execTagQuarantineExpiry (p tag : Nat) (s : State) : Res :=
  run s (fun d => d.modQe (fun e => { e with tagQ := e.tagQ.filter (fun q =>
    !(q.port == p && q.tag == tag && d.expired q.start q.limitUs)) }))

end Sys2Proof.Machine
end

