-- ==== Sys2Proof/Machine/Ring.lean ====
section
/-! DEFINITION. Packets to host memory: RING_PACKET_POST and COALESCE_TIMEOUT (R58 to R63, R76, R85, R341). -/

namespace Sys2Proof.Machine
open Reg

/-- The coalescing limits of a queue: queue 0's are in QE_AQ_IRQ and take effect at once (R63, R83). -/
def Dev.irqCount (s : Dev) (p q : Nat) (u : Queue) : Nat := if q = 0 then s.get (qeReg p QE_AQ_IRQ.irq_count) else u.irqCount
def Dev.irqTime (s : Dev) (p q : Nat) (u : Queue) : Nat := if q = 0 then s.get (qeReg p QE_AQ_IRQ.irq_time) else u.irqTime

/-- Signal a queue's vector for everything posted since the last signal. -/
def Dev.signalQueue (s : Dev) (p q : Nat) : Dev :=
  match s.queue p q with
  | some u => (s.modQueue p q (fun u => { u with unsignalled := 0 })).signal p u.vector
  | none => s

/-- Judge the packets that wait for a signal against the count and a time of 0 (R63). -/
def Dev.judge (s : Dev) (p q : Nat) : Dev :=
  match s.queue p q with
  | some u => if 0 < u.unsignalled && (s.irqCount p q u ≤ u.unsignalled || s.irqTime p q u = 0) then s.signalQueue p q else s
  | none => s

/-- The packet that may be posted next: the first that waits for no other completion (R115, R117); in Deadbolt the packets keep
their order (R124). -/
def Dev.nextPacket (s : Dev) (u : Queue) : Option RingPkt :=
  let free (r : RingPkt) : Bool := r.after.all (fun a => (s.cmd a).isNone)
  if s.qe.dead then u.waiting.head?.filter free else u.waiting.find? free

/-- A ring has room for another packet (R60). -/
def Queue.room (u : Queue) : Bool := (u.posted + 65536 - u.released % 65536) % 65536 < u.ring

/-- The fields that are fixed as the packet is posted: a Freeze packet's held count, a Notice packet's lost count, and the
phase bit, 1 on the first pass and inverted on each later one (R59, R78, R81). -/
def Dev.finalBits (s : Dev) (p q : Nat) (u : Queue) (r : RingPkt) : Rec256 :=
  let b := r.bits.toNat
  let b := if ringType r.bits = 4 then b - (bitsOf b 80 16) <<< 80 + (min (s.fifo p q).length 65535) <<< 80 else b
  let b := if ringType r.bits = 3 then b - (bitsOf b 8 8) <<< 8 + (min (s.port p).lost 255) <<< 8 else b
  BitVec.ofNat 256 (if u.posted / max u.ring 1 % 2 = 0 then b + 2 ^ 255 else b)

/-- What posting a packet brings with it: the data timer of its grant starts (R76), its command is completed (R85), and the
lost count it carried starts again. -/
def Dev.posted (s : Dev) (p q : Nat) (r : RingPkt) : Dev :=
  let s := match r.grant with | some g => s.startPullTimer p g r.owner | none => s
  let s := if ringType r.bits = 3 then s.modPort p (fun pt => { pt with lost := 0 }) else s
  match r.cmd with
  | some a =>
    let s := (s.dropCmd a).modQe (fun e => { e with grants := e.grants.filter (fun g => g.acc != a) })
    (((s.settleDelete p q).settleRestarts p).settleDeadPort p)
  | none => s.settleDelete p q

/-- Post one packet to a queue's ring in host memory (R58, R60). -/
def Dev.postHost (s : Dev) (p q : Nat) (u : Queue) (r : RingPkt) : Dev :=
  let addr := u.base + BitVec.ofNat 64 (u.posted % max u.ring 1 * 32)
  let s := s.emit (.memWrite p addr 32 ((s.finalBits p q u r).setWidth 4096) false (s.port p).idoEnable (.ring q))
  let s := s.modQueue p q (fun u => { u with
    waiting := u.waiting.erase r
    posted := u.posted + 1
    unsignalled := u.unsignalled + 1
    oldest := if u.unsignalled = 0 then s.now else u.oldest })
  let s := if r.atOnce then s.signalQueue p q else s.judge p q
  s.posted p q r

/-- Write one peer reply into its source's notice window, at a 32-byte-aligned offset the device chooses (R341). -/
def Dev.postPeer (s : Dev) (p : Nat) (r : RingPkt) (dest : Qword) : Dev :=
  let node := ((s.host.domain).map (fun d => d.2)).getD 0
  let off := (Config.freeWord s.freeCtr).toNat % 128 * 32
  let s := { s with freeCtr := s.freeCtr + 1 }
  let s := s.emit (.memWrite p (dest + BitVec.ofNat 64 (0x200000 + node * 0x1000 + off)) 32 (r.bits.setWidth 4096) false (s.port p).idoEnable .peerReply)
  (s.modQueue p peerQ (fun u => { u with waiting := u.waiting.erase r })).posted p peerQ r

/-- RING_PACKET_POST: the next waiting packet goes out where the ring has room and Bus Master Enable allows it (R60, R332). -/
def execRingPacketPost (p q : Nat) (s : State) : Res :=
  actOn s (fun d => if d.mayIssue p then (d.queue p q).bind (fun u => (d.nextPacket u).map (fun r => (u, r))) else none)
    (fun d x =>
      match x.2.dest with
      | some dest => d.postPeer p x.2 dest
      | none => if x.1.room then d.postHost p q x.1 x.2 else d)

/-- COALESCE_TIMEOUT: the oldest unsignalled packet has waited for the coalescing time (R63). -/
def execCoalesceTimeout (p q : Nat) (s : State) : Res :=
  actOn s (fun d => d.queue p q) (fun d u =>
    if 0 < u.unsignalled && d.expired u.oldest (d.irqTime p q u) then d.signalQueue p q else d)

end Sys2Proof.Machine
end

