-- ==== Sys2Proof/Machine/Port.lean ====
section
/-! DEFINITION. The endpoint: ADMIN_QUEUE_ENABLE, ADMIN_QUEUE_DISABLE, CONFIGURATION_REQUEST, UNSUPPORTED_REQUEST,
BUS_MASTER_ENABLE_CLEARED, BUS_MASTER_ENABLE_SET, MSIX_UNMASK, LINK_STATE_CHANGE, UNMAPPED_BAR_WRITE (R80, R83, R309, R312 to
R319, R329, R332, R333, R336, R338). -/

namespace Sys2Proof.Machine
open Reg

/-! ### Queue 0 (R47, R80, R83) -/

/-- R47 for depth and ring. -/
def depthOk (d n : Nat) : Bool := 2 * d + 64 ≤ n

/-- The writable fields of QE_AQ_CFG but for enable; a reserved encoding leaves its field (R13). -/
def Dev.writeAqCfg (s : Dev) (p : Nat) (v : Dword) : Dev :=
  let s := if fld v 16 10 ≤ 512 then s.put (qeReg p QE_AQ_CFG.vector) (fld v 16 10) else s
  let s := if fld v 12 4 ≤ 9 then s.put (qeReg p QE_AQ_CFG.ring_code) (fld v 12 4) else s
  let s := if fld v 8 4 ≤ 8 then s.put (qeReg p QE_AQ_CFG.depth_code) (fld v 8 4) else s
  (s.put (qeReg p QE_AQ_CFG.pcheck) (fld v 1 1)).put (qeReg p QE_AQ_CFG.relaxed) (fld v 0 1)

/-- Queue 0 as its registers describe it. -/
def Dev.adminQueue (s : Dev) (p : Nat) : Queue := {
  depth := 16 * 2 ^ s.get (qeReg p QE_AQ_CFG.depth_code), ring := 64 * 2 ^ s.get (qeReg p QE_AQ_CFG.ring_code)
  base := BitVec.ofNat 64 (s.get (qeReg p QE_AQ_RING_BASE.base) * 4096), cls := .urgent
  relaxed := s.bit (qeReg p QE_AQ_CFG.relaxed), pcheck := s.bit (qeReg p QE_AQ_CFG.pcheck)
  vector := s.get (qeReg p QE_AQ_CFG.vector), irqCount := 1, irqTime := 0 }

/-- Enable queue 0 where the port state and R47 allow it; notices that waited are handed to its ring (R80, R83). -/
def Dev.enableAq (s : Dev) (p : Nat) : Dev :=
  let q := s.adminQueue p
  let st := (s.port p).state
  if (st == .holding || st == .running) && depthOk q.depth q.ring then
    let q := { q with waiting := (s.port p).notices.map (fun n => { bits := noticePkt n 0, atOnce := true }) }
    let s := s.put (qeReg p QE_AQ_CFG.enable) 1
    (s.modPort p (fun pt => { pt with notices := [] })).modQe (fun e => { e with queues := e.queues.put (qkey p 0) q })
  else s

def execAdminQueueEnable (p : Nat) (v : Dword) (s : State) : Res :=
  act s (fun d => d.takesMemory p && v.getLsbD 31 && !d.bit (qeReg p QE_AQ_CFG.enable)) (fun d => (d.writeAqCfg p v).enableAq p)

/-- A Notice packet that has not been posted, as a notice again (R80). -/
def noticeOf (r : RingPkt) : Option Notice :=
  if ringType r.bits = 3 then
    some ⟨fld r.bits 16 16, BitVec.ofNat 32 (fld r.bits 64 32), BitVec.ofNat 32 (fld r.bits 96 32),
      BitVec.ofNat 32 (fld r.bits 128 32), BitVec.ofNat 48 (fld r.bits 160 48)⟩
  else none

/-- Disable queue 0: its counts start again from zero; its notices stay waiting (R80, R83). -/
def Dev.disableAq (s : Dev) (p : Nat) : Dev :=
  let kept := match s.queue p 0 with | some q => q.waiting.filterMap noticeOf | none => []
  let s := (s.put (qeReg p QE_AQ_CFG.enable) 0).modPort p (fun pt => { pt with notices := pt.notices ++ kept })
  s.modQe (fun e => { e with queues := e.queues.erase (qkey p 0) })

/-- ADMIN_QUEUE_DISABLE: ignored while queue 0 has an outstanding command (R83). -/
def execAdminQueueDisable (p : Nat) (v : Dword) (s : State) : Res :=
  act s (fun d => d.takesMemory p && !v.getLsbD 31 && d.bit (qeReg p QE_AQ_CFG.enable)) (fun d =>
    if (d.cmdsOf p 0).isEmpty then d.disableAq p else d)

/-! ### Configuration space (R312 to R316, R329) -/

/-- A BAR register: its size's low bits read as the standard's type bits. -/
def barValue (v : Qword) (log2 typ : Nat) : Qword := BitVec.ofNat 64 (v.toNat / 2 ^ log2 * 2 ^ log2 + typ)

/-- The values of R309 and R313 in the codes of the standard (log 16). -/
def Dev.fixedField (s : Dev) : FixedField → Nat
  | .capabilityVersion => 2
  | .devicePortType => 0
  | .flitModeSupported => 1
  | .maxPayloadSupported => 2
  | .phantomFunctions => 0
  | .extendedTagSupported => 1
  | .roleBasedErrorReporting => 1
  | .flrCapable => 1
  | .supportedLinkSpeeds => 0x3f
  | .maxLinkSpeed => 6
  | .maxLinkWidth => if s.ports = 2 then 8 else 16
  | .aspmSupport => 3
  | .ctoRangesSupported => 15
  | .ctoDisableSupported => 1
  | .tag10CompleterSupported => 1
  | .tag10RequesterSupported => 1
  | .atomicOpCompleterSupported => 0
  | .ltrSupported => 0
  | .obffSupported => 0
  | .tphCompleterSupported => 0
  | .tag14CompleterSupported => 1
  | .tag14RequesterSupported => 1
  | .l0pSupported => 0
  | .noSoftReset => 1
  | .d1Supported => 0
  | .d2Supported => 0
  | .pmeSupport => 0
  | .msixTableSize => 512
  | .msixTableBir => 0
  | .msixTableOffset => 0x410000
  | .msixPbaBir => 0
  | .msixPbaOffset => 0x414000
  | .ecrcGenerationCapable => 1
  | .ecrcCheckCapable => 1

/-- A register of a standard structure of which the spec gives no field: what reset or the last write left in it. -/
def Port.standardReg (t : Port) (o : Nat) : Dword := (t.standard.find o).getD (Config.pcieStandard o)

/-- The value a configuration read returns. Fields the spec gives no value are the standard's (log 16); a register of a structure
that is absent reads 0 (R314). -/
def Dev.cfgRead (s : Dev) (p : Nat) (r : CfgReg) : Qword :=
  let pt := s.port p
  let b (x : Bool) : Qword := if x then 1 else 0
  let n (x : Nat) : Qword := BitVec.ofNat 64 x
  match r with
  | .vendorId => n s.image.vendorId
  | .deviceId => n s.image.deviceIdPci
  | .subsystemVendorId => n s.image.subVendor
  | .subsystemId => n s.image.subId
  | .revisionId => n Config.revisionId.toNat
  | .classCode => 0x018000
  | .memorySpaceEnable => b pt.mse
  | .maxPayloadSize => n (pt.mps / 256)
  | .maxReadRequestSize => n (Nat.log2 (pt.mrrs / 128))
  | .relaxedOrderingEnable => b pt.roEnable
  | .idoRequestEnable => b pt.idoEnable
  | .completionTimeoutValue => n pt.ctoValue
  | .completionTimeoutDisable => b pt.ctoDisable
  | .tag10Enable => b pt.tag10
  | .tag14Enable => b pt.tag14
  | .aspmControl => n pt.aspm
  | .powerState => if pt.d3hot then 3 else 0
  | .bar0 => barValue pt.bar0 28 0x4
  | .bar2 => barValue pt.bar2 s.image.bar2Log2 0xc
  | .bar4 => if s.image.bar4 then barValue pt.bar4 24 0xc else 0
  | .msixEnable => b pt.msixEnable
  | .msixFunctionMask => b pt.msixFnMask
  | .deviceSerial => Config.deviceId
  | .slotClock => b (s.bit PW_STRAPS.common_clock)
  | .fixed f => n (s.fixedField f)
  | .absent _ => 0
  | .busMasterEnable => b pt.bme
  | .other o => (pt.standardReg o).setWidth 64

/-- HP_CTO.value_ms after a change of the completion timeout (R329). -/
def Dev.noteCto (s : Dev) (p : Nat) : Dev :=
  s.put (hpReg p HP_CTO.value_ms) (if (s.port p).ctoDisable then 0 else ctoMicros (s.port p).ctoValue / 1000)

/-- The completion timeout values R329 lists. -/
def ctoValues : List Nat := [0, 1, 2, 5, 6, 9, 10, 13, 14]

/-- What a configuration write does to the port. A reserved value leaves the field (R13). -/
def cfgWrite (bar2Log2 : Nat) (bar4 : Bool) (r : CfgReg) (v : Qword) (pt : Port) : Port :=
  let x := v.toNat
  let b := v.getLsbD 0
  match r with
  | .memorySpaceEnable => { pt with mse := b }
  | .maxPayloadSize => if x ≤ 2 then { pt with mps := 128 * 2 ^ x } else pt
  | .maxReadRequestSize => if x ≤ 5 then { pt with mrrs := 128 * 2 ^ x } else pt
  | .relaxedOrderingEnable => { pt with roEnable := b }
  | .idoRequestEnable => { pt with idoEnable := b }
  | .completionTimeoutValue => if ctoValues.contains x then { pt with ctoValue := x } else pt
  | .completionTimeoutDisable => { pt with ctoDisable := b }
  | .tag10Enable => { pt with tag10 := b }
  | .tag14Enable => { pt with tag14 := b }
  | .aspmControl => if x ≤ 3 then { pt with aspm := x } else pt
  | .powerState => if x = 0 then { pt with d3hot := false } else if x = 3 then { pt with d3hot := true } else pt
  | .bar0 => { pt with bar0 := BitVec.ofNat 64 (x / 2 ^ 28 * 2 ^ 28) }
  | .bar2 => { pt with bar2 := BitVec.ofNat 64 (x / 2 ^ bar2Log2 * 2 ^ bar2Log2) }
  | .bar4 => if bar4 then { pt with bar4 := BitVec.ofNat 64 (x / 2 ^ 24 * 2 ^ 24) } else pt
  | .msixEnable => { pt with msixEnable := b }
  | .msixFunctionMask => { pt with msixFnMask := b }
  | .other o => { pt with standard := pt.standard.put o (Config.pcieWrite o (pt.standardReg o) (v.setWidth 32)) }
  | .vendorId | .deviceId | .subsystemVendorId | .subsystemId | .revisionId | .classCode | .deviceSerial | .slotClock | .fixed _ | .absent _
  | .busMasterEnable => pt

/-- The port answers configuration requests with Request Retry Status: before boot step 2 ends, and during an FLR (R312,
R334). -/
def Dev.cfgRetry (s : Dev) (p : Nat) : Bool := !s.image.loaded || (s.port p).flrStart.isSome
/-- The port's endpoint is released: PERST_N is high and the logic works. -/
def Dev.endpointOn (s : Dev) (p : Nat) : Bool := p < s.ports && !s.pw.perstLow && s.logicOn

/-- UNSUPPORTED_REQUEST: an AtomicOp or a deferrable memory write is answered Unsupported Request (R314). -/
def execUnsupportedRequest (p : Nat) (s : State) : Res :=
  act s (fun d => d.endpointOn p) (fun d => (d.aerError p .unsupportedRequest).emit (.requestReply p .unsupportedRequest))

/-! ### Bus Master Enable (R332, R333) -/

/-- A started command that needs the bus: a read outstanding or still to issue, or data still to write (R333). -/
def Dev.needsBus (s : Dev) (c : Command) : Bool :=
  c.started && (s.qe.reqs.any (fun r => r.acc = c.acc) || s.qe.reissue.any (fun r => r.acc = c.acc)
    || (match c.fetch with | some f => f.issued < f.need | none => false)
    || (c.phase == .started && (c.op = 0x02 || c.op = 0x80 || c.op = 0x81 || (c.op = 0x01 && Pkt.pull c.pkt)
          || (c.op = 0x88 && Pkt.nlb c.pkt != 0))))

/-- One command fails with Host Access Withdrawn; its tags are quarantined as if they had expired now. -/
def Dev.withdraw (s : Dev) (c : Command) : Dev :=
  let s := s.each (s.qe.reqs.filter (fun r => r.acc = c.acc)) (fun s r => s.quarantineTag r.port r.tag)
  let s := s.modQe (fun e => { e with reissue := e.reissue.filter (fun r => r.acc != c.acc) })
  (s.fail c.acc St.hostAccessWithdrawn).addSat (hpReg c.port HP_WITHDRAWN.commands) 1

/-- Bus Master Enable is cleared: the port's commands that need the bus fail (R333). -/
def Dev.busOff (d : Dev) (p : Nat) : Dev :=
  let d := ((d.modPort p (fun pt => { pt with bme := false })).addSat (hpReg p HP_WITHDRAWN.clears) 1).zeroDeficits
  let d := d.raise (Irq.hp p 2)
  (d.each (d.qe.cmds.filter (fun c => c.port == p && d.needsBus c)) (fun d c => d.withdraw c)).stir

/-- Bus Master Enable is set: what the clearing withheld may go again (R332, R336). -/
def Dev.busOn (d : Dev) (p : Nat) : Dev := ((d.modPort p (fun pt => { pt with bme := true })).resendAll p).serveAll

/-- BUS_MASTER_ENABLE_CLEARED. -/
def execBusMasterEnableCleared (p : Nat) (s : State) : Res :=
  act s (fun d => d.endpointOn p && !d.cfgRetry p && (d.port p).bme) (fun d => d.busOff p)

/-- BUS_MASTER_ENABLE_SET. -/
def execBusMasterEnableSet (p : Nat) (s : State) : Res :=
  act s (fun d => d.endpointOn p && !d.cfgRetry p && !(d.port p).bme) (fun d => d.busOn p)

/-! ### Requests -/

/-- A write of Bus Master Enable. -/
def Dev.setBus (s : Dev) (p : Nat) (b : Bool) : Dev := if b == (s.port p).bme then s else if b then s.busOn p else s.busOff p

/-- CONFIGURATION_REQUEST (R312). -/
def execConfigurationRequest (p : Nat) (isWrite : Bool) (r : CfgReg) (v : Qword) (s : State) : Res :=
  act s (fun d => d.endpointOn p) (fun d =>
    if d.cfgRetry p then d.emit (.cfgReply p .retry 0)
    else if isWrite && r == .busMasterEnable then (d.setBus p (v.getLsbD 0)).emit (.cfgReply p .successful 0)
    else if isWrite then
      (((d.modPort p (cfgWrite d.image.bar2Log2 d.image.bar4 r v)).noteCto p).resendAll p).emit (.cfgReply p .successful 0)
    else d.emit (.cfgReply p .successful (d.cfgRead p r)))

/-! ### MSI-X and link -/

/-- MSIX_UNMASK: the vector's mask is cleared and its pending message goes (R336). -/
def execMsixUnmask (p v : Nat) (s : State) : Res :=
  act s (fun d => d.takesMemory p && v < 513) (fun d =>
    (d.modPort p (fun pt => { pt with msixTable := pt.msixTable.put v { pt.vector v with masked := false } })).resend p v)

/-- The link enters L0s or L1 only where the host has enabled it in ASPM Control, and L0s only out of Flit Mode (R45, R313). -/
def Dev.linkMay (s : Dev) (p state : Nat) (flit : Bool) : Bool :=
  if state = 3 then (s.port p).aspm % 2 = 1 && !flit
  else if state = 4 then 2 ≤ (s.port p).aspm
  else state ≤ 2

/-- LINK_STATE_CHANGE (R309): reported in HP_LINK; source 32 + 4p. -/
def execLinkStateChange (p state speed width : Nat) (flit : Bool) (s : State) : Res :=
  act s (fun d => d.endpointOn p && d.linkMay p state flit && speed ≤ 6) (fun d =>
    ((((d.put (hpReg p HP_LINK.state) state).put (hpReg p HP_LINK.speed) speed).put (hpReg p HP_LINK.width) width).flag
      (hpReg p HP_LINK.flit) flit).raise (Irq.hp p 0))

/-! ### BAR windows (R317, R321 to R323, R338) -/

/-- What a BAR offset reaches. -/
inductive BarWin where
  | discovery (o : Nat)
  | hpRegs (o : Nat)
  | portRegs (o : Nat)
  | ingress (q : Nat)
  | faults (o : Nat)
  | msix (o : Nat)
  | pba (o : Nat)
  | slots
  | peerRequest (w : Nat)
  | peerNotice (w : Nat)
  | observe (addr : Nat)
  | none
deriving DecidableEq, Repr

/-- The observation window entry that covers a BAR0 offset: the internal address it reaches (R321, R323). -/
def observeAt (wte : List (BitVec 128)) (off : Nat) : Option Nat :=
  wte.findSome? (fun e =>
    let base := fld e 0 40
    let size := 2 ^ fld e 48 6
    if fld e 40 2 = 0 && fld e 56 4 = 10 && fld e 61 1 = 1 && base ≤ off && off < base + size then some (fld e 64 48 + off - base) else Option.none)

/-- The window a BAR offset of a port lies in (R317, R338). -/
def Dev.barWin (s : Dev) (p bar off : Nat) : BarWin :=
  if bar = 0 then
    if off < 0x10000 then .discovery off
    else if off < 0x20000 then .hpRegs (off - 0x10000)
    else if 0x100000 ≤ off ∧ off < 0x200000 then .portRegs (off - 0x100000)
    else if 0x200000 ≤ off ∧ off < 0x400000 then .ingress ((off - 0x200000) / 0x1000)
    else if 0x400000 ≤ off ∧ off < 0x410000 then .faults (off - 0x400000)
    else if 0x410000 ≤ off ∧ off < 0x414000 then .msix (off - 0x410000)
    else if 0x414000 ≤ off ∧ off < 0x415000 then .pba (off - 0x414000)
    else match observeAt ((s.image.wte.drop (64 * p)).take 64) off with
      | some a => .observe a
      | Option.none => .none
  else if bar = 2 then (if off < 2 ^ s.image.bar2Log2 then .slots else .none)
  else if bar = 4 && s.image.bar4 then
    if off < 0x200000 then .peerRequest (off / 0x1000)
    else if off < 0x400000 then .peerNotice ((off - 0x200000) / 0x1000)
    else if 0x800000 ≤ off ∧ off < 0x1000000 then .slots else .none
  else .none

/-- The widths the register windows take: one aligned DW, or two aligned to 8 bytes (R319). -/
def wordAccess (off len : Nat) : Bool := (len = 4 && off % 4 = 0) || (len = 8 && off % 8 = 0)

/-- A host write that R319 drops and HP_BAR_DROPS.unmapped counts. -/
def Dev.writeDropped (s : Dev) (p bar off len : Nat) : Bool :=
  match s.barWin p bar off with
  | .discovery _ | .hpRegs _ | .faults _ | .pba _ | .observe _ | .none => true
  | .portRegs _ => !wordAccess off len
  | .msix _ | .ingress _ | .slots | .peerRequest _ | .peerNotice _ => false

/-- A memory request reaches the function but not its windows: Memory Space Enable is 0, or it is in D3hot (R315; log 17). -/
def Dev.memoryOff (s : Dev) (p : Nat) : Bool := s.endpointOn p && !s.cfgRetry p && (!(s.port p).mse || (s.port p).d3hot)

/-- A poisoned write to a window that would take a clean one, the ingress windows and the slots apart, which have rows of their
own (R320). -/
def Dev.poisonDropped (s : Dev) (p bar off len : Nat) : Bool :=
  match s.barWin p bar off with
  | .portRegs _ => wordAccess off len
  | .msix _ | .peerRequest _ | .peerNotice _ => true
  | .discovery _ | .hpRegs _ | .faults _ | .pba _ | .observe _ | .none | .ingress _ | .slots => false

/-- A write that is dropped: R319 counts it, R320 records a poisoned one under AER (log 80). -/
def Dev.dropWrite (s : Dev) (p bar off : Nat) (f : WriteForm) : Dev :=
  let s := if f.poisoned then s.aerError p .poisonedTlp else s
  if s.writeDropped p bar off f.len then s.addSat (hpReg p HP_BAR_DROPS.unmapped) 1 else s

/-- UNMAPPED_BAR_WRITE (R315, R319, R320): dropped and counted; with the windows off, an unsupported request. -/
def execUnmappedBarWrite (p bar off : Nat) (f : WriteForm) (s : State) : Res :=
  act s (fun d => d.memoryOff p || (d.takesMemory p && (d.writeDropped p bar off f.len || (f.poisoned && d.poisonDropped p bar off f.len)))) (fun d =>
    if d.memoryOff p then d.aerError p .unsupportedRequest else d.dropWrite p bar off f)

end Sys2Proof.Machine
end

