-- ==== Sys2Proof/Machine/Io.lean ====
section
/-! DEFINITION. READ, FLUSH, DEALLOCATE, VERIFY and WRITE_ZEROES, and the commit points of the I/O commands (R86, R130 to
R137, R169, R173). -/

namespace Sys2Proof.Machine
open Reg

/-! ### Starts -/

/-- Parts of a read-class command: one place per block. -/
def readParts (slba nlb : Nat) : List Part := (partsOf slba nlb).map (fun p => { p with blocks := List.replicate p.count none })

/-- READ: its blocks are served from the buffer, as zeros, or from flash (R132). -/
def Dev.beginRead (s : Dev) (c : Command) : Dev :=
  (s.modCmd c.acc (fun c => { c with
    phase := .running
    parts := readParts (Pkt.slba c.pkt) (Pkt.nlb c.pkt)
    fetch := some (fetchOf c.pkt (Pkt.nlb c.pkt * 4096)) })).serve c.acc

def execRead (acc : Nat) (s : State) : Res := actOn s (fun d => d.startedOp acc 0x02) (fun d c => d.beginRead c)

/-- VERIFY reads as a Read does and moves no data (R136). -/
def Dev.beginVerify (s : Dev) (c : Command) : Dev :=
  (s.modCmd c.acc (fun c => { c with
    phase := .running
    parts := readParts (Pkt.slba c.pkt) (Pkt.nlb c.pkt) })).serve c.acc

def execVerify (acc : Nat) (s : State) : Res := actOn s (fun d => d.startedOp acc 0x05) (fun d c => d.beginVerify c)

/-- FLUSH asks for the durability of what it covers (R134). -/
def Dev.beginFlush (s : Dev) (c : Command) : Dev := (s.modCmd c.acc (fun c => { c with phase := .running })).stir

def execFlush (acc : Nat) (s : State) : Res := actOn s (fun d => d.startedOp acc 0x03) (fun d c => d.beginFlush c)

/-- The admission of a Deallocate or Write Zeroes is its start (R279); its partly covered granules then wait for space. -/
def Dev.beginTrim (s : Dev) (c : Command) : Dev :=
  if s.spareLeft ≤ 0 then s.sealBy c.acc
  else s.modCmd c.acc (fun c => { c with phase := .running, parts := partsOf (Pkt.slba c.pkt) (Pkt.nlb c.pkt) })

def execDeallocate (acc : Nat) (s : State) : Res := actOn s (fun d => d.startedOp acc 0x04) (fun d c => d.beginTrim c)

def execWriteZeroes (acc : Nat) (s : State) : Res := actOn s (fun d => d.startedOp acc 0x06) (fun d c => d.beginTrim c)

/-! ### Commit points -/

/-- The granule keys of a command. -/
def Command.keys (c : Command) : List Nat := c.parts.map (fun p => gkey (Pkt.nsid c.pkt) p.granule)
/-- The newest version of a granule that is not durable. -/
def Dev.newestVid (s : Dev) (key : Nat) : List Nat :=
  ((s.bm.undurable.filter (fun u => u.key = key)).getLast?.map (fun u => u.vid)).toList

/-- The completion of a write-class command that has entered the buffer index: at once, or with fua when all it wrote is
durable (R130, R131, R135). -/
def Dev.finishWriteClass (s : Dev) (c : Command) (result : Nat) : Dev :=
  let d : Done := { status := St.success, result := BitVec.ofNat 64 result }
  if Pkt.fua c.pkt then
    ((s.numberCommit c.acc).modCmd c.acc (fun x => { x with
      phase := .durable
      done := some d
      cover := c.keys.flatMap (fun k => s.newestVid k) })).stir
  else (s.commitWith c.acc d []).stir

/-- A part of a Write that only covers some of a granule whose map page is lost (R169). -/
def Dev.partLost (s : Dev) (c : Command) (p : Part) : Bool :=
  let key := gkey (Pkt.nsid c.pkt) p.granule
  p.count < 16 && (List.range 16).any (fun i => (i < p.first || p.first + p.count ≤ i) && s.lookBlock key i == .lostPage)

/-- The data of a part of a Write, out of its completed grant. -/
def Dev.partData (s : Dev) (c : Command) (p : Part) (i : Nat) : BlockData :=
  match s.qe.grants.find? (fun g => g.acc = c.acc && g.granule = p.granule && g.complete) with
  | some g => .data (blockAt g.data i)
  | none => .zero

/-- A Write commits: every granule becomes or joins the open version, and later reads find it (R86, R170). -/
def Dev.enterWrite (s : Dev) (c : Command) : Dev :=
  let s := (s.overtake c).countHost (Pkt.nlb c.pkt)
  let s := s.each c.parts (fun s p => s.mergePart c p (s.partData c p))
  let s := s.modQe (fun e => { e with grants := e.grants.filter (fun g => g.acc != c.acc) })
  s.finishWriteClass c 0

/-- A Write's commit point: all its data has arrived and no earlier read still needs a granule (R86, R108); it fails where
the device has become Sealed (R159) or a needed map page is lost (R169). -/
def Dev.commitWrite (s : Dev) (c : Command) : Dev :=
  if !c.parts.all (fun p => p.st == .ready) || c.parts.any (fun p => s.writeWaits c p.granule) then s
  else if s.isSealed then (s.fail c.acc St.capacitySealed).stir
  else match c.parts.find? (fun p => s.partLost c p) with
    | some p => (s.failMedia c.acc St.unrecoveredMapRead (16 * p.granule + p.first) 0).stir
    | none => s.enterWrite c

/-- One granule of a Deallocate or Write Zeroes at its commit point (R135, R137, R173): zeros are merged into a partly covered
one as a write of zeros would merge them. -/
def Dev.trimPart (s : Dev) (c : Command) (p : Part) : Dev :=
  if c.isPartial p then s.mergePart c p (fun _ => .data 0)
  else s.markGranule c (gkey (Pkt.nsid c.pkt) p.granule) (c.op = 0x06)

/-- Deallocate and Write Zeroes commit once every reservation they need is held (R135). -/
def Dev.commitTrim (s : Dev) (c : Command) : Dev :=
  if c.parts.any (fun p => c.isPartial p && !p.reserved) || c.parts.any (fun p => s.writeWaits c p.granule) then s
  else if s.isSealed then (s.fail c.acc St.capacitySealed).stir
  else
    let whole := (c.parts.filter (fun p => !c.isPartial p)).length
    let s := s.overtake c
    (s.each c.parts (fun s p => s.trimPart c p)).finishWriteClass c whole

/-- A Read ends when its data has gone out, or fails alone at its first failing block (R132, R133). -/
def Dev.commitRead (s : Dev) (c : Command) : Dev :=
  if !c.parts.all (fun p => p.st == .ready) then s
  else match c.failure with
    | some f => (s.failBlock c.acc f).stir
    | none => match c.fetch with
      | some f => if f.issued = f.need then (s.succeed c.acc 0 0).stir else s
      | none => s

/-- A Verify ends with the highest tier any block needed (R136). -/
def Dev.commitVerify (s : Dev) (c : Command) : Dev :=
  if !c.parts.all (fun p => p.st == .ready) then s
  else match c.failure with
    | some f => (s.failBlock c.acc f).stir
    | none => (s.succeed c.acc c.tier 0).stir

/-- A Flush ends when all it covers is durable (R134). -/
def Dev.commitFlush (s : Dev) (c : Command) : Dev :=
  if s.covered c then (s.succeed c.acc c.padded c.closed).stir else s

end Sys2Proof.Machine
end

