-- ==== Sys2Proof/Machine/MediaOps.lean ====
section
/-! DEFINITION. MS, FC, CD and RC inside many steps: tokens (R215 to R220), admission, sets that verify or fail (R206, R208,
R172, R236, R269, R271), LUNs that fail (R275, R276), and the ends of codeword requests (R254, R255). -/

namespace Sys2Proof.Machine
open Reg

/-! ### Tokens (R215) -/

def Dev.hold (s : Dev) (n : Nat) : Dev := s.put MS_LEDGER.held_ma (s.get MS_LEDGER.held_ma + n)
def Dev.unhold (s : Dev) (n : Nat) : Dev := s.put MS_LEDGER.held_ma (s.get MS_LEDGER.held_ma - n)
def Dev.fits (s : Dev) (n : Nat) : Bool := s.get MS_LEDGER.held_ma + n ≤ s.get MS_LEDGER.ceiling_ma
/-- The tail after an array operation. -/
def Dev.takeTail (s : Dev) : Dev :=
  (s.hold (s.get MS_COST_TAIL.tail_ma)).modMs (fun m => { m with tails := m.tails ++ [s.now] })

/-! ### Operations -/

def Dev.modOp (s : Dev) (id : Nat) (f : FlashOp → FlashOp) : Dev :=
  s.modMs (fun m => { m with ops := m.ops.map (fun o => if o.id = id then f o else o) })
/-- An operation ends; it is no claim any longer. -/
def Dev.dropOp (s : Dev) (id : Nat) : Dev :=
  s.modMs (fun m => { m with
    ops := m.ops.filter (fun o => o.id != id)
    claims := m.claims.filter (fun c => c != id) })
def Dev.setOf (s : Dev) (seq : Nat) : Option WlSet := s.ms.sets.find? (fun x => x.seq = seq)
def Dev.modSet (s : Dev) (seq : Nat) (f : WlSet → WlSet) : Dev :=
  s.modMs (fun m => { m with sets := m.sets.map (fun x => if x.seq = seq then f x else x) })
/-- The volume of a LUN behind its chip enable (R194). -/
def Dev.volumeOf (s : Dev) (lun : Nat) : Nat := lun % 16 / 2 ^ s.get FC_CFG.lpv
/-- FC puts one entry of the flash command table on a LUN's channel (R196, R476). -/
def Dev.put1 (s : Dev) (lun entry : Nat) : Dev := s.emit (.flash lun entry (s.image.flashCmds.getD entry 0))
/-- FC issues an operation with its entry, after selecting the LUN's volume where another was selected last (R195). -/
def Dev.issue (s : Dev) (lun entry : Nat) : Dev :=
  let ce := lun / 32 * 2 + lun % 32 / 16
  let several : Bool := 2 ^ s.get FC_CFG.lpv < s.get FC_CFG.luns_per_ce
  if several && s.ms.volume.find ce != some (s.volumeOf lun) then
    ((s.put1 lun 17).modMs (fun m => { m with volume := m.volume.put ce (s.volumeOf lun) })).put1 lun entry
  else s.put1 lun entry

/-- The operation a LUN is busy with, a suspended erase apart. -/
def FlashOp.active (o : FlashOp) : Bool := o.st != .queued && o.st != .suspended
def Dev.activeOp (s : Dev) (lun : Nat) : Option FlashOp := s.ms.ops.find? (fun o => o.lun = lun && o.active)
def Dev.suspendedOp (s : Dev) (lun : Nat) : Option FlashOp := s.ms.ops.find? (fun o => o.lun = lun && o.st == .suspended)
/-- Suspended erases count as in array operation (MS_INFLIGHT). -/
def FlashOp.inArray (o : FlashOp) : Bool := o.st == .array || o.st == .suspended || o.resetting
def OpKind.isRead : OpKind → Bool
  | .read _ _ _ _ => true
  | .verify _ => true
  | .raw _ _ => true
  | _ => false
def OpKind.isProgram : OpKind → Bool
  | .program _ => true
  | _ => false
def OpKind.isErase : OpKind → Bool
  | .erase _ => true
  | _ => false
def Dev.inFlightReads (s : Dev) : Nat := (s.ms.ops.filter (fun o => o.inArray && o.kind.isRead)).length
def Dev.inFlightPrograms (s : Dev) : Nat := (s.ms.ops.filter (fun o => o.inArray && o.kind.isProgram)).length
def Dev.inFlightErases (s : Dev) : Nat := (s.ms.ops.filter (fun o => o.inArray && o.kind.isErase)).length

/-- The cost of an operation's array time (R215): a read of k planes, a footer verify read, a program, an erase; ZQ calibration
costs as a transfer. -/
def Dev.opCost (s : Dev) (k : OpKind) : Nat :=
  match k with
  | .read _ _ planes _ => planeCount planes * s.get MS_COST_READ.read_ma
  | .verify _ => planeCount (s.planesOf (s.codewords - 1)) * s.get MS_COST_READ.read_ma
  | .raw a _ => planeCount (s.planesOf (cwIndex a)) * s.get MS_COST_READ.read_ma
  | .program _ => s.get MS_COST_PROG.prog_ma
  | .erase _ => s.get MS_COST_ERASE.erase_ma
  | .zq => s.get MS_COST_XFER.xfer_ma

/-- Tokens an operation holds, a KiB in transfer included. -/
def Dev.opHolds (s : Dev) (o : FlashOp) : Nat :=
  (if o.st == .array || o.st == .setting || o.resetting then o.cost else 0) + (if o.moving then s.get MS_COST_XFER.xfer_ma else 0)

/-- Whole KiB of a transfer; a last part counts as one. -/
def kibs (bytes : Nat) : Nat := (bytes + 1023) / 1024
/-- What an operation moves over its channel: the codewords a read was for, a footer, every level of every plane. -/
def Dev.opKib (s : Dev) (k : OpKind) : Nat :=
  match k with
  | .read _ _ _ reqs => kibs (reqs.length * s.get CD_GEOMETRY.codeword_bytes)
  | .verify _ | .raw _ _ => kibs (s.get CD_GEOMETRY.codeword_bytes)
  | .program _ => kibs (s.planes * s.image.rawPage * s.bitsPerCell)
  | .erase _ | .zq => 0

/-- R220 and R305 let an operation begin its array time. -/
def Dev.mayStart (s : Dev) (k : OpKind) : Bool :=
  if k == .zq then true
  else if k.isRead then s.inFlightReads < s.get MS_LIMITS.max_read
  else !s.bit PW_STATE.prog_hold &&
    (if k.isProgram then s.inFlightPrograms < s.get MS_LIMITS.max_prog else s.inFlightErases < s.get MS_LIMITS.max_erase)

/-- While a claim stands no other operation is admitted (R217). -/
def Dev.claimAllows (s : Dev) (id : Nat) : Bool :=
  match s.ms.claims with
  | [] => true
  | c :: _ => c = id

/-- A suspended erase whose reads are done may resume now: it goes ahead of every claim and every waiting operation (R212,
R217, R305). -/
def Dev.mayResume (s : Dev) (o : FlashOp) : Bool :=
  o.st == .suspended && !s.ms.ops.any (fun r => o.readsLeft.contains r.id) && (s.activeOp o.lun).isNone
    && !s.bit PW_STATE.prog_hold && s.fits (s.get MS_COST_ERASE.erase_ma)

/-- The ledger admits an operation's cost (R215, R217). -/
def Dev.admits (s : Dev) (id cost : Nat) : Bool := s.claimAllows id && s.fits cost && !s.ms.ops.any (fun o => s.mayResume o)

/-- An operation has no tokens: it waits for them from now on. -/
def Dev.waitTokens (s : Dev) (o : FlashOp) (f : FlashOp → FlashOp) : Dev :=
  let s := (s.modOp o.id f).add MS_TOKEN_WAITS.waits 1
  if s.ofMaster o then s.claim o.id else s
def Dev.waitArray (s : Dev) (o : FlashOp) : Dev :=
  match o.st with
  | .waiting _ => s
  | _ => s.waitTokens o (fun o => { o with st := .waiting s.now })

/-- n planes: the queued-plane entry for all but the last of them, then the last plane's own entry. -/
def planeEntries (n queued last : Nat) : List Nat := List.replicate (n - 1) queued ++ [last]

/-- The flash command table entries FC issues an operation with (R476; log 5). -/
def Dev.opEntries (s : Dev) (k : OpKind) : List Nat :=
  match k with
  | .read _ _ planes _ => planeEntries (planeCount planes) 7 6
  | .verify _ => planeEntries (planeCount (s.planesOf (s.codewords - 1))) 7 6
  | .raw a _ => planeEntries (planeCount (s.planesOf (cwIndex a))) 7 6
  | .program _ => planeEntries s.planes 10 9
  | .erase _ => planeEntries s.planes 12 11
  | .zq => [16]

/-- The references an operation is to read at; a Raw Read takes those the LUN has (R205, R206, R223). -/
def Dev.opRefs (s : Dev) (o : FlashOp) : Tbl Int :=
  match o.kind with
  | .read _ _ _ _ => o.refs
  | .verify q => s.footerRefs (s.placeOf q)
  | _ => []

/-- The references that the LUN does not hold yet (R205). -/
def Dev.missingRefs (s : Dev) (o : FlashOp) : Tbl Int :=
  let held := (s.ms.refs.find o.lun).getD []
  (s.opRefs o).filter (fun e => held.find e.1 != some e.2)

/-- Set Features: the offsets go to the LUN, at the cost of a transfer until it is ready (R205, R215). -/
def Dev.setRefs (s : Dev) (o : FlashOp) (l : Tbl Int) : Dev :=
  let cost := s.get MS_COST_XFER.xfer_ma
  let held := l.foldl (fun t e => t.put e.1 e.2) ((s.ms.refs.find o.lun).getD [])
  let s := (s.hold cost).modOp o.id (fun o => { o with st := .setting, start := s.now, cost := cost })
  let s := s.modMs (fun m => { m with
    refs := m.refs.put o.lun held
    claims := m.claims.filter (fun c => c != o.id) })
  s.each l (fun s e => (s.issue o.lun 19).emit (.setFeature o.lun e.1 e.2))

/-- An operation's confirm: its cost is taken and its array time begins. -/
def Dev.confirm (s : Dev) (o : FlashOp) (cost : Nat) : Dev :=
  let s := (s.hold cost).modOp o.id (fun o => { o with st := .array, start := s.now, cost := cost })
  (s.modMs (fun m => { m with claims := m.claims.filter (fun c => c != o.id) })).each (s.opEntries o.kind) (fun s e => s.issue o.lun e)

/-- Reset LUN costs as an erase, beside what the operation that overran still holds (R208, R215). -/
def Dev.confirmReset (s : Dev) (o : FlashOp) : Dev :=
  let cost := s.get MS_COST_ERASE.erase_ma
  if s.admits o.id cost then
    let s := (s.hold cost).modOp o.id (fun o => { o with st := .array, start := s.now, cost := o.cost + cost })
    (s.modMs (fun m => { m with
      claims := m.claims.filter (fun c => c != o.id)
      refs := m.refs.erase o.lun })).issue o.lun 18
  else s.waitArray o

/-- Admit an operation to the array, or let it wait for tokens (R215 to R217, R220); a read first has its references set. -/
def Dev.tryStart (s : Dev) (o : FlashOp) : Dev :=
  if o.resetting then s.confirmReset o
  else if !s.mayStart o.kind then s
  else
    let missing := s.missingRefs o
    if !missing.isEmpty then
      (if s.admits o.id (s.get MS_COST_XFER.xfer_ma) then s.setRefs o missing else s.waitArray o)
    else if s.admits o.id (s.opCost o.kind) then s.confirm o (s.opCost o.kind)
    else s.waitArray o

/-- The channel moves another operation's transfer, or holds one that is paused between KiB (R204). -/
def Dev.channelBusy (s : Dev) (o : FlashOp) : Bool :=
  s.ms.ops.any (fun x => x.id != o.id && x.lun / 32 = o.lun / 32 && (x.moving || (x.begun && x.kib != 0)))

/-- Begin the next KiB of a transfer, or let it wait for tokens (R215). -/
def Dev.startKib (s : Dev) (o : FlashOp) : Dev :=
  let cost := s.get MS_COST_XFER.xfer_ma
  if o.moving || o.kib = 0 || s.channelBusy o then s
  else if s.admits o.id cost then
    ((s.hold cost).modOp o.id (fun o => { o with moving := true, begun := true, held := none })).modMs (fun m => { m with
      claims := m.claims.filter (fun c => c != o.id) })
  else match o.held with
    | some _ => s
    | none => s.waitTokens o (fun o => { o with held := some s.now, begun := true })

/-! ### Reclaim copies and parity (R172, R236, R269, R271) -/

/-- A copy whose set failed is read again from its source (R271). -/
def Dev.againCopy (s : Dev) (pga : Nat) : Dev :=
  s.modRc (fun r => { r with units := r.units.map (fun u => { u with copies := u.copies.map (fun c =>
    if c.pga = pga && c.placed && !c.settled then { c with placed := false, blocks := List.replicate 16 none } else c) }) })

/-- Stripes that are closed, verified throughout, and whose successor has been opened leave MS's list. -/
def Dev.dropStripes (s : Dev) : Dev :=
  s.modMs (fun m => { m with stripes := m.stripes.filter (fun t =>
    t.row.wl < s.wordLines || !t.unverified.isEmpty || (match t.successor with
      | some i => !m.stripes.any (fun u => u.id = i)
      | none => false)) })

/-- A parity set is verified: its row is durable (R131, R235). -/
def Dev.parityVerified (s : Dev) (x : WlSet) : Dev :=
  (s.modStripe x.stripe (fun t => { t with unverified := t.unverified.filter (fun r => r.parity != some x.seq) })).dropStripes

/-- A later word line of a block group has been given to a set: word lines of a block group are programmed in ascending order
(R206). -/
def Dev.passedIn (s : Dev) (lun b wl : Nat) : Bool :=
  let later (a : Nat) : Bool := a != 0 && Pga.dieLun a = lun && Pga.block a = b && wl < Pga.wl a
  s.ms.sets.any (fun x => later x.place) || s.nand.sets.any (fun e => later e.1)

/-- The parity set of a row takes another free present position, or the row closes without parity (R236). -/
def Dev.reparity (s : Dev) (x : WlSet) : Dev :=
  match (s.stripe x.stripe).bind (fun t => (t.unverified.find? (fun r => r.parity = some x.seq)).map (fun r => (t, r))) with
  | none => s
  | some (t, r) =>
    let w := t.members.length
    let order := (List.range w).map (fun i => (r.wl + 1 + i) % max w 1)
    let usable (p : Nat) : Bool :=
      let lun := t.members.getD p 0
      let st := (s.entry lun t.block).state
      !r.used.contains p && !s.lunFailed lun && (st == .open_ || st == .closed) && !s.passedIn lun t.block r.wl
    match order.find? usable with
    | some p =>
      let seq := s.ms.progSeq + 1
      let s := s.addSet { x with
        seq := seq
        place := Pga.mk (t.members.getD p 0) t.block r.wl 0
        st := .sealed
        sealedAt := s.now
        aged := false }
      s.modStripe t.id (fun t => { t with unverified := t.unverified.map (fun r =>
        if r.parity = some x.seq then { r with used := r.used ++ [p], parity := some seq } else r) })
    | none =>
      let s := s.modStripe t.id (fun t => { t with unverified := t.unverified.filter (fun r => r.parity != some x.seq) })
      (s.noParityRow t.id r.wl r.sets).dropStripes

/-! ### Map sets (R165, R183) -/

/-- Both replicas of a page are on flash: the directory, a root page or the root table names them (R165, R183). -/
def Dev.namePage (s : Dev) (c : PageCopy) : Dev :=
  let e : DirEntry := { addrA := c.addrA, addrB := c.addrB, lost := false, pageSeq := c.pageSeq }
  let i := pageIndex c.page
  s.modMp (fun m =>
    if pageNs c.page = dirNs then { m with roots := m.roots.put i e }
    else if pageNs c.page = rootNs then { m with rootTable := m.rootTable.put i e }
    else { m with dir := m.dir.put c.page e })

/-- Both replicas of a page have been written: it is named, and clean unless it changed since. -/
def Dev.pageWritten (s : Dev) (c : PageCopy) : Dev :=
  if (s.mp.epochs.find (pageNs c.page)).getD 0 != c.epoch || (match s.entryOf c.page with | some d => c.pageSeq ≤ d.pageSeq | none => false) then s
  else
    let now := s.flashEntries c.page
    let s := (s.modNand (fun n => { n with pages := n.pages ++ [c] })).namePage c
    s.modMp (fun m => { m with
      dirty := if now = c.entries then m.dirty.erase c.page else m.dirty
      ckpt := m.ckpt.map (fun r => { r with pages := r.pages.filter (fun p => p != c.page) }) })

/-- A map set is verified; with its twin's the pages count as written. -/
def Dev.mapVerified (s : Dev) (x : WlSet) : Dev :=
  match s.flashSet x.twin with
  | none => s
  | some other =>
    let a := if x.replica = 0 then x.place else other
    let b := if x.replica = 0 then other else x.place
    let named := x.copies.mapIdx (fun i c => { c with addrA := a * 16 + i, addrB := b * 16 + i })
    s.each named (fun s c => s.pageWritten c)

/-! ### Event log and health sets (R441, R445, R446) -/

/-- Erase the half that is not the current one, on both replicas (R445). -/
def Dev.eraseOldHalf (s : Dev) : Dev :=
  let base := if s.nand.logHalf then 64 else 96
  s.each [0, 1] (fun s r => s.each (s.sysBlocks (s.logLun r) base) (fun s b => s.queueErase (s.logLun r) b))

/-- A clear's set has verified: the new log is what it holds, the clear completes, the old half is erased, and the next clear
takes effect (R445). -/
def Dev.clearDone (s : Dev) (c : Clear) (recs : List Event) : Dev :=
  let s := s.modNand (fun n => { n with
    log := recs
    logClears := n.logClears + 1 })
  let s := s.modEv (fun e => { e with
    clears := e.clears.tail
    ring := match e.clears.tail.head? with
      | some n => e.ring.dropWhile (fun r => r.seq != n.record.seq)
      | none => e.ring })
  let s := s.eraseOldHalf.raise Irq.logCleared
  match c.acc with
  | some a => s.succeed a c.held 0
  | none => if c.origin = 2 then s.emit (.uart ("OK\r\n".toList.map (fun x => BitVec.ofNat 8 x.toNat))) else s

/-- A log set has verified: with the first of its two replicas the records leave the ring for the log (R441). -/
def Dev.logVerified (s : Dev) (x : WlSet) : Dev :=
  if (s.flashSet x.twin).isSome then s
  else
    let n := min x.count s.ev.ring.length
    let recs := s.ev.ring.take n
    let s := s.modEv (fun e => { e with ring := e.ring.drop n })
    let s := s.modNand (fun d => { d with
      logDropped := x.dropped
      logSeq := seqAfter recs d.logSeq })
    match s.ev.clears.head? with
    | some c => if recs.any (fun r => r.seq = c.record.seq) then s.clearDone c recs else s.modNand (fun d => { d with log := d.log ++ recs })
    | none => s.modNand (fun d => { d with log := d.log ++ recs })

/-- A health snapshot has verified; Prepare waits for one that was written in it (R443). -/
def Dev.healthVerified (s : Dev) (x : WlSet) : Dev :=
  let ours : Bool := match s.pw.hasp with
    | some h => h.start ≤ x.sealedAt
    | none => true
  match x.snap with
  | some h => (s.modNand (fun d => { d with health := h })).modEv (fun e => { e with snapshotDone := e.snapshotDone || ours })
  | none => s

/-! ### A set that verifies or fails -/

/-- A ring set is verified: its record has a copy on flash (R183). -/
def Dev.recordVerified (s : Dev) (x : WlSet) : Dev :=
  let s := match x.record with
    | some r => s.keepRecord r x.place
    | none => s
  s.modMp (fun m => { m with ckpt := m.ckpt.map (fun r => { r with copies := r.copies.erase x.seq }) })

/-- Sets whose programs count against R182's media threshold: those of a stream. -/
def SetKind.ofStream : SetKind → Bool
  | .data => true
  | .map => true
  | .checkpoint => true
  | .parity => true
  | .witness => false
  | .log => false
  | .health => false

/-- A set is programmed and verified (R206): it is on flash, and what it holds is recorded. -/
def Dev.setVerified (s : Dev) (x : WlSet) : Dev :=
  let s := s.modMs (fun m => { m with sets := m.sets.filter (fun y => y.seq != x.seq) })
  let s := s.modNand (fun n => { n with sets := n.sets.put x.place x.flash })
  let s := if x.kind.ofStream then s.modMp (fun m => { m with mediaBytes := m.mediaBytes + s.slotCount * 65536 }) else s
  match x.kind with
  | .data => s.each (x.slots.mapIdx (fun k e => (k, e))) (fun s p => s.recordSlot x.place p.1 p.2)
  | .map => s.mapVerified x
  | .parity => s.parityVerified x
  | .log => s.logVerified x
  | .health => s.healthVerified x
  | .checkpoint => s.recordVerified x
  | .witness => s

/-- A set will not be programmed where it was bound: its row forgets it, its versions wait for the next place of their
stream, its copies are read again, a parity set moves (R208, R236, R271). -/
def Dev.setFailed (s : Dev) (x : WlSet) : Dev :=
  let forget (r : Row) : Row := { r with sets := r.sets.filter (fun q => q != x.seq) }
  let s := s.modStripe x.stripe (fun t => { t with row := forget t.row, unverified := t.unverified.map forget })
  let s := s.modMs (fun m => { m with sets := m.sets.map (fun y => { y with covered := y.covered.filter (fun q => q != x.seq) }) })
  let drop (s : Dev) : Dev := s.modMs (fun m => { m with sets := m.sets.filter (fun y => y.seq != x.seq) })
  match x.kind with
  | .parity => (drop s).reparity x
  | .data =>
    let s := s.each (x.slots.filter (fun e => e.kind = 2)) (fun s e => s.againCopy e.source)
    let own := x.slots.filter (fun e => e.kind = 1)
    if own.isEmpty then drop s else s.modSet x.seq (fun y => { y with st := .failed, slots := own, place := 0 })
  | .map | .log | .health => s.modSet x.seq (fun y => { y with st := .failed, place := 0 })
  | .checkpoint => (drop s).modMp (fun m => { m with ckpt := m.ckpt.map (fun r => { r with copies := r.copies.erase x.seq }) })
  | .witness => drop s

/-- Sets not yet verified that were bound for a LUN, or for one block group of it, take other places; their operations go. -/
def Dev.unbind (s : Dev) (lun : Nat) (block : Option Nat) : Dev :=
  let hit (place : Nat) : Bool := place != 0 && Pga.dieLun place = lun && (match block with | some b => Pga.block place = b | none => true)
  let bound := s.ms.sets.filter (fun x => x.st != .failed && hit x.place)
  let seqs := bound.map (fun x => x.seq)
  let gone := s.ms.ops.filter (fun o => match o.kind with
    | .program q => seqs.contains q
    | .verify q => seqs.contains q
    | .erase b => o.lun = lun && block = some b
    | _ => false)
  let s := s.each gone (fun s o => (s.unhold (s.opHolds o)).dropOp o.id)
  s.each bound (fun s x => s.setFailed x)

/-- The word-line sets on flash in one block group, ascending. -/
def Dev.setsIn (s : Dev) (lun : Nat) (block : Option Nat) : List Nat :=
  s.nand.sets.keys.filter (fun a => Pga.dieLun a = lun && (match block with | some b => Pga.block a = b | none => true))

/-- RC takes a block group out of use at once: nothing more is programmed into it, and what is recorded there is copied out
again (R208, R262, R271). -/
def Dev.retireGroup (s : Dev) (lun b cause : Nat) : Dev :=
  let s := (s.unbind lun (some b)).retireBlock lun b cause
  let left := s.setsIn lun (some b)
  if left.isEmpty then s else s.addPass { why := .retire (blockKey lun b), left := left, urgent := false }

/-- A stripe left with fewer than three present block groups is retired whole: it takes no more rows, and what its last block
groups hold is moved (R262). -/
def Dev.endThinStripe (s : Dev) (id : Nat) : Dev :=
  if s.stripeRetired id then (s.endStripe id).each (s.presentIn id) (fun s l => s.retireGroup l (Pga.block id) 3) else s

/-- The same for a failed block group and, where it leaves too few, its stripe. -/
def Dev.retireNow (s : Dev) (lun b cause : Nat) : Dev := (s.retireGroup lun b cause).endThinStripe (s.stripeOf lun b)

/-- Count a program, verify or erase failure (MS_FAILS, source 78). -/
def Dev.countFail (s : Dev) (f : Fld) (lun : Nat) (status : Bool) : Dev :=
  let s := (s.addSat f 1).raise (Irq.ms 5)
  if status then s.addSat (fcReg (lun / 32) FC_COUNTS.status_fails) 1 else s

/-- A program failed its status or its footer verify (R208); a failed log set is written again (R441). status: it was the
status. -/
def Dev.programFailed (s : Dev) (seq : Nat) (status : Bool) : Dev :=
  match s.setOf seq with
  | none => s
  | some x =>
    let s := s.countFail MS_FAILS.prog_fails (Pga.dieLun x.place) status
    if x.kind == .log || x.kind == .health then s.setFailed x else s.retireNow (Pga.dieLun x.place) (Pga.block x.place) 1

/-- A block group is erased: nothing is left on it, and its erase is counted (R263). -/
def Dev.eraseDone (s : Dev) (lun b : Nat) : Dev :=
  ((s.forgetBlocks [(lun, b)]).modEntry lun b (fun e => { e with
    erases := e.erases + 1
    state := if e.state == .open_ || e.state == .witness || e.state == .system then e.state else .erased })).noteFree

/-- An erase failed its status: the block group is retired and the stream takes another (R208). -/
def Dev.eraseFailed (s : Dev) (lun b : Nat) : Dev := (s.countFail MS_FAILS.erase_fails lun true).retireNow lun b 2

/-! ### Codeword requests that end (R254, R255) -/

def Dev.dropReq (s : Dev) (id : Nat) : Dev := s.modCd (fun d => { d with reqs := d.reqs.filter (fun r => r.id != id) })

/-- Requests that CD_LADDER_COUNT and CD_UNCORRECTABLE count: of host commands, pre-reads, map pages and copies (R255). -/
def Requester.counted : Requester → Bool
  | .host _ _ _ => true
  | .preRead _ _ => true
  | .mapPage _ _ => true
  | .reclaim _ _ _ => true
  | _ => false

/-- L3 of a request has lost a member: the rest of its members are of no use. -/
def Dev.failMember (s : Dev) (parent : Nat) : Dev :=
  let s := s.modCd (fun d => { d with reqs := d.reqs.filter (fun r => r.who != .member parent) })
  s.modReq parent (fun r => { r with members := 0, dead := true })

/-- What a codeword of a user block holds on flash. -/
def Dev.storedAt (s : Dev) (addr : Nat) : Option Stored :=
  (s.nand.sets.find (Pga.set (addr / 16))).bind (fun x => (x.slots[Pga.slot (addr / 16)]?).bind (fun e => e.blocks[addr % 16]?))

/-- A stored block through CX: plain under the key it was written with; under another, what that makes of the ciphertext (R155,
R256, R258; log 9); none without a valid key. -/
def Dev.decrypt (s : Dev) (ns lba : Nat) (x : Stored) : Option BlockData :=
  match x with
  | .zero => some .zero
  | .poisoned => some .poisoned
  | .cipher k b => (s.nsKey ns).map (fun n => if n = k then .data b else .data (decryptUnit n lba (encryptUnit k lba b)))

/-- CX reads the key slot of a namespace for a stored block; a line that fails its check leaves the unit unprocessed and the
slot without a valid key (R389). -/
def Dev.keyFails (s : Dev) (ns : Nat) (x : Stored) : Bool :=
  (match x with | .cipher _ _ => true | _ => false) && (s.nsKey ns).isSome && s.armedFor Src.keySlots
def Dev.keyLine (s : Dev) (ns : Nat) : Dev := (s.loseKey (ns - 1)).unitLine Src.keySlots 1 0x37

/-- Hand a block to the read-class command that asked for it. -/
def Dev.giveHost (s : Dev) (acc g k tier : Nat) (b : BlockData) (f : Option (BitVec 16)) : Dev :=
  s.modCmd acc (fun c => { c with parts := c.parts.map (fun q => if q.granule = g then
    { q with
      blocks := q.blocks.set k (some b)
      tier := max q.tier tier
      fail := match q.fail, f with
        | some a, some st => some (if k < a.1 then (k, st) else a)
        | none, some st => some (k, st)
        | a, none => a } else q) })

/-- Hand a pre-read block to the open version that lacks it (R174, R175). -/
def Dev.givePreRead (s : Dev) (vid i : Nat) (b : BlockData) : Dev :=
  s.modOpen vid (fun v => if (v.blocks.getD i none).isSome then v
    else { v with blocks := v.blocks.set i (some (0, 0, b)), sub := v.sub || b == .zero })

/-- Hand a codeword to a reclaim copy. -/
def Dev.giveCopy (s : Dev) (unit pga i : Nat) (b : Stored) : Dev :=
  s.modCopy unit pga (fun c => { c with blocks := c.blocks.set i (some b) })

/-- A user block decoded for a host command. -/
def Dev.hostBlock (s : Dev) (acc g k tier addr : Nat) (x : Stored) : Dev :=
  match s.cmd acc with
  | none => s
  | some c =>
    let first := ((c.parts.find? (fun p => p.granule = g)).map (fun p => p.first)).getD 0
    if s.keyFails (Pkt.nsid c.pkt) x then (s.keyLine (Pkt.nsid c.pkt)).giveHost acc g k tier .poisoned (some St.containedError)
    else match s.decrypt (Pkt.nsid c.pkt) (16 * g + first + k) x with
    | some .poisoned => s.giveHost acc g k tier .poisoned (some St.unrecoveredRead)
    | some b => (if x == .zero then s else s.add CX_UNITS_DEC.units 1).giveHost acc g k tier b none
    | none => (s.contained Src.cx Kind.noKey addr 0x37 7).giveHost acc g k tier .poisoned (some St.containedError)

/-- A user block decoded for a sub-granule pre-read. -/
def Dev.preReadBlock (s : Dev) (vid i addr : Nat) (x : Stored) : Dev :=
  match s.openVid vid with
  | none => s
  | some v =>
    if s.keyFails (gkeyNs v.key) x then (s.keyLine (gkeyNs v.key)).givePreRead vid i .poisoned
    else match s.decrypt (gkeyNs v.key) (16 * gkeyGran v.key + i) x with
    | some b => (match b with | .data _ => s.add CX_UNITS_DEC.units 1 | _ => s).givePreRead vid i b
    | none => (s.contained Src.cx Kind.noKey addr 0x37 7).givePreRead vid i .poisoned

/-- A map page is read: it enters the cache, and the records and marks that waited for it go in (R168, R172, R173). -/
def Dev.pageRead (s : Dev) (pg : Nat) : Dev :=
  let s := s.modCd (fun d => { d with reqs := d.reqs.filter (fun r => match r.who with | .mapPage p _ => p != pg | _ => true) })
  (s.bringIn pg).applyRecords.applyMarks pg

/-- A codeword decoded at a tier (R255, R273). -/
def Dev.countDecode (s : Dev) (r : CwReq) : Dev :=
  if !r.who.counted then s
  else
    let s := s.add (CD_LADDER_COUNT.count.at (8 * r.tier)) 1
    if r.tier < 3 then s
    else
      let limit := s.get RC_VICTIM_CFG.l3_limit
      s.modEntry (Pga.dieLun (r.addr / 16)) (Pga.block (r.addr / 16)) (fun b =>
        let hits := min (b.l3Hits + 1) 255
        { b with l3Hits := hits, suspect := b.suspect || limit ≤ hits })

/-- One codeword of a Sample has ended; with the last one the descriptor is answered (R260). -/
def Dev.sampled (s : Dev) (i tier : Nat) (failed : Bool) : Dev :=
  let s := s.modDesc .cd i (fun d => { d with highest := max d.highest tier, failed := d.failed || failed })
  if s.cd.reqs.any (fun r => match r.who with | .sample j _ => j = i | _ => false) then s
  else match s.descOf .cd i with
    | some d => s.answer .cd i 0 (d.highest + (if d.failed then 128 else 0)) 0
    | none => s

/-- A codeword of a row's member has been read for its running XOR: with the last one the XOR is there again; one that fails
leaves it lost (R235, R252, R406). -/
def Dev.xorRead (s : Dev) (id wl : Nat) (ok : Bool) : Dev :=
  if !ok then s.modCd (fun d => { d with reqs := d.reqs.filter (fun r => r.who != .xorRow id wl) })
  else if s.xorReading id wl then s
  else
    let back (r : Row) : Row := if r.wl = wl then { r with xorLost := false } else r
    s.modStripe id (fun t => { t with row := back t.row, unverified := t.unverified.map back })

/-- A codeword request succeeds. -/
def Dev.reqOk (s : Dev) (r : CwReq) : Dev :=
  let s := (s.dropReq r.id).countDecode r
  let x := (s.storedAt r.addr).getD .poisoned
  match r.who with
  | .host acc g k => s.hostBlock acc g k r.tier r.addr x
  | .preRead vid i => s.preReadBlock vid i r.addr x
  | .mapPage pg _ => s.pageRead pg
  | .reclaim u p i => s.giveCopy u p i x
  | .member p => s.modReq p (fun q => { q with members := q.members - 1 })
  | .sample i _ => s.sampled i r.tier false
  | .sweep _ => s
  | .interval _ => s
  | .fresh _ => s
  | .xorRow id wl => s.xorRead id wl true

/-- The parts of read-class commands that wait for a page have had the whole ladder climbed for them (R113). -/
def Dev.pageTried (s : Dev) (pg : Nat) : Dev :=
  s.modQe (fun e => { e with cmds := e.cmds.map (fun c => if readClass c.op then { c with
    parts := c.parts.map (fun p => if p.st == .busy && pageOf (gkey (Pkt.nsid c.pkt) p.granule) = pg then { p with tier := 4 } else p) } else c) })

/-- Both replicas of a map page failed beyond L4: the page is lost (R168). -/
def Dev.pageLostNow (s : Dev) (pg : Nat) : Dev :=
  let addr := ((s.mp.dir.find pg).map (fun d => d.addrA)).getD 0
  let s := s.pageTried pg
  let s := s.modMp (fun m => { m with dir := m.dir.modify pg (fun d => { d with lost := true }) })
  (((s.add MP_LOST_PAGES.lost 1).contained Src.mp Kind.mapPageLost addr 0x33 7).raise (Irq.mp 2)).applyRecords.applyMarks pg

/-- A codeword is uncorrectable, or a member read has failed L2 (R250, R254). -/
def Dev.reqFail (s : Dev) (r : CwReq) : Dev :=
  let s := s.dropReq r.id
  let s := if r.who.counted then (s.add CD_UNCORRECTABLE.count 1).raise (Irq.cd 4) else s
  match r.who with
  | .host acc g k => s.giveHost acc g k 4 .poisoned (some St.unrecoveredRead)
  | .preRead vid i => s.givePreRead vid i .poisoned
  | .mapPage pg _ =>
    if s.cd.reqs.any (fun q => match q.who with | .mapPage p _ => p = pg | _ => false) then s else s.pageLostNow pg
  | .reclaim u p i => s.giveCopy u p i .poisoned
  | .member p => s.failMember p
  | .sample i limit => s.sampled i limit true
  | .sweep _ => s
  | .interval _ => s
  | .fresh _ => s
  | .xorRow id wl => s.xorRead id wl false

/-! ### A LUN that fails (R203, R208, R275, R276) -/

/-- A request of the whole ladder that was to be read from a failed LUN goes to L3, or has lost its tier (R254). -/
def Dev.redirectLadder (s : Dev) (r : CwReq) : Dev :=
  if r.st == .rebuilding then s
  else if r.tier ≤ 2 then
    let s := (s.modReq r.id (fun r => { r with left := 0, sweep := 0 })).startRebuild r.id
    if r.tier ≤ 1 then s.raceReplica r.who r.acc r.startNo else s
  else s.modReq r.id (fun r => { r with dead := true, st := .decoding, left := 0, sweep := 0 })

/-- A request that was to be read from a failed LUN. -/
def Dev.redirectReq (s : Dev) (r : CwReq) : Dev :=
  match r.who with
  | .member p => s.failMember p
  | .sweep i => (s.dropReq r.id).answer .cd i 2 0 0
  | .interval _ => s.dropReq r.id
  | .fresh _ => s.dropReq r.id
  | .xorRow id wl => s.xorRead id wl false
  | .sample i limit => if limit < 3 then (s.dropReq r.id).sampled i limit true else s.redirectLadder r
  | _ => s.redirectLadder r

/-- The next channel after c that holds none of these and whose LUN 0 has not failed; c itself where there is none. -/
def Dev.nextRingChannel (s : Dev) (c : Nat) (held : List Nat) : Nat :=
  (((List.range 127).map (fun i => (c + 1 + i) % 128)).find? (fun k => !held.contains k && !s.lunFailed (32 * k))).getD c

/-- Block groups of a run that hold no data become system ones (R184, R440; log 89). -/
def Dev.reserveSystem (s : Dev) (lun base n : Nat) : Dev :=
  s.each (((List.range n).map (fun i => base + i)).filter (fun b =>
      (s.entry lun b).state == .free || (s.entry lun b).state == .erased)) (fun s b =>
    s.modEntry lun b (fun e => { e with state := .system }))

/-- A checkpoint ring whose LUN failed moves to the next channel that holds neither ring (R184). -/
def Dev.moveCkptRings (s : Dev) (c : Nat) : Dev :=
  let n := s.nextRingChannel c [s.nand.ringA, s.nand.ringB]
  if s.nand.ringA = c then (s.modNand (fun d => { d with ringA := n })).reserveSystem (32 * n) 0 32
  else if s.nand.ringB = c then (s.modNand (fun d => { d with ringB := n })).reserveSystem (32 * n) 0 32
  else s

/-- A log replica whose LUN failed moves to the next channel that holds no checkpoint ring and no other replica, and starts empty
(R440). -/
def Dev.moveLog (s : Dev) (c : Nat) : Dev :=
  let n := s.nextRingChannel c [s.nand.ringA, s.nand.ringB, s.get EV_LOG_LOC.channel_a, s.get EV_LOG_LOC.channel_b]
  if s.get EV_STATUS.located = 0 then s
  else if s.get EV_LOG_LOC.channel_a = c then
    ((s.put EV_LOG_LOC.channel_a n).modNand (fun d => { d with
      evA := n
      logA := 0
      healthA := 0 })).reserveSystem (32 * n) 32 96
  else if s.get EV_LOG_LOC.channel_b = c then
    ((s.put EV_LOG_LOC.channel_b n).modNand (fun d => { d with
      evB := n
      logB := 0
      healthB := 0 })).reserveSystem (32 * n) 32 96
  else s

def Dev.moveRings (s : Dev) (c : Nat) : Dev := (s.moveCkptRings c).moveLog c

/-- RC absorbs a failed LUN: the bitmap, the event, the notice, the margin, and the rebuild of its data (R275, R276). -/
def Dev.absorbLun (s : Dev) (lun : Nat) : Dev :=
  let s := s.modRc (fun r => { r with failed := r.failed ++ [lun] })
  let n := s.rc.failed.length
  let s := (s.put RC_LUN_CFG.failed n).event 0x0a02 Src.rc lun n 0
  let s := s.notice 5 (lun / 32) (lun % 32) n
  let left := s.setsIn lun none
  let s := s.addPass { why := .rebuild lun, left := left, urgent := true }
  let s := (s.flag RC_STATUS.rebuilding true).noteFree
  if s.get RC_LUN_CFG.margin < n then s.fatal Src.rc Kind.lunMargin lun 0 else s

/-- An operation of a failed LUN goes; a Raw Read's descriptor completes with status 2 (R223). -/
def Dev.loseOp (s : Dev) (o : FlashOp) : Dev :=
  let s := (s.unhold (s.opHolds o)).dropOp o.id
  match o.kind with
  | .raw _ i => s.answer .ms i 2 0 0
  | _ => s

/-- A LUN fails; why as event 0x0701 numbers it (R208). A channel on which every populated LUN has failed is a fatal fault
(R203, R414). -/
def Dev.failLun (s : Dev) (lun why : Nat) : Dev :=
  if s.lunFailed lun then s
  else
    let c := lun / 32
    let f := fcReg c FC_LUN_FAILED.failed
    let s := s.put f (s.get f + 2 ^ (lun % 32))
    let s := ((s.event 0x0701 (Src.channel c) c (lun % 32) why).raise (Irq.ms 3)).raise (Irq.fc c)
    let s := s.unbind lun none
    let s := s.each (s.ms.ops.filter (fun o => o.lun = lun)) (fun s o => s.loseOp o)
    let s := s.each (s.cd.reqs.filter (fun r => Pga.dieLun (r.addr / 16) = lun)) (fun s r => s.redirectReq r)
    let s := if lun % 32 = 0 then s.moveRings c else s
    if s.lunNumbers.all (fun l => s.lunFailed (c * 32 + l)) then
      ((s.put (fcReg c FC_STATUS.state) 5).raise (Irq.fc c)).fatal (Src.channel c) Kind.channelFailed c 0
    else (s.absorbLun lun).stir

end Sys2Proof.Machine
end

