-- ==== Sys2Proof/Machine/Memory.lean ====
section
/-! DEFINITION. The memories behind the internal address space: regions (R40), on-chip lines with valid bit, check value and
poison (R384 to R392), DRAM lines (R403 to R406, R409), and what a core may reach (R344). -/

namespace Sys2Proof.Machine
open Reg

/-! ### Regions (R40) -/

def dramBase : Nat := 0x010000000000
/-- Populated DRAM in bytes (R403). -/
def Dev.dramSize (s : Dev) : Nat := s.get DC_TOPOLOGY.size_gib * 2 ^ 30

/-- What an internal address reaches. -/
def Dev.region (s : Dev) (a : Nat) : Region :=
  if a < 0x40000 then .rom
  else if 0x10000000 ≤ a ∧ a < 0x11c00000 then .window
  else if 0x000100000000 ≤ a ∧ a < 0x000101000000 then .shared
  else if 0x000101000000 ≤ a ∧ a < 0x000101400000 then .boltScratch ((a - 0x000101000000) / 0x40000)
  else if 0x000101800000 ≤ a ∧ a < 0x000101880000 then .wardenScratch
  else if 0x000102000000 ≤ a ∧ a < 0x000102040000 then .mailbox
  else if 0x000200000000 ≤ a ∧ a < 0x000215000000 then .registers
  else if dramBase ≤ a ∧ a < dramBase + s.dramSize then .dram
  else .nothing

def Region.onChip : Region → Bool
  | .shared | .boltScratch _ | .wardenScratch | .mailbox => true
  | _ => false

/-- The checker of an on-chip memory (R414). -/
def Region.source : Region → Nat
  | .mailbox => Src.mailbox
  | .wardenScratch => Src.wardenScratch
  | .boltScratch n => Src.boltCore n
  | _ => Src.shared

/-- The unit that reports a requester's bus errors (log 22). -/
def busSource : Who → Nat
  | .warden => Src.wardenScratch
  | .bolt n => Src.boltCore n
  | .host p => Src.port p

/-- Bytes of an access out of a line, and a line with them replaced. -/
def lineBytes (l : Line) (a size : Nat) : Line := (l >>> (8 * (a % 64))) &&& BitVec.ofNat 512 (2 ^ (8 * size) - 1)
def lineMerge (l : Line) (a size : Nat) (v : Line) : Line :=
  let m := BitVec.ofNat 512 ((2 ^ (8 * size) - 1) <<< (8 * (a % 64)))
  (l &&& ~~~ m) ||| ((v <<< (8 * (a % 64))) &&& m)

/-! ### On-chip lines (R384, R385, R391, R392) -/

def Dev.chip (s : Dev) (a : Nat) : Option MemLine := s.mem.lines.find (a / 64)
/-- A write of a line ends the reservations that Bolt cores hold on it (R345; log 28). -/
def Dev.endReservations (s : Dev) (hit : Nat → Bool) : Dev :=
  s.modCores (fun c => { c with bolt := c.bolt.map (fun e => if e.2.lr.any (fun a => hit (a / 64)) then (e.1, { e.2 with lr := none }) else e) })
def Dev.putChip (s : Dev) (a : Nat) (l : Option MemLine) : Dev :=
  (s.modMem (fun m => { m with lines := m.lines.set (a / 64) l })).endReservations (fun k => k = a / 64)
/-- A line written whole: valid, with its check value, not poisoned. -/
def Dev.writeLine (s : Dev) (a : Nat) (d : Line) : Dev := s.putChip a (some { data := d, crc := lineCrc d (a / 64) })
/-- A line's data as a unit that finds no error reads it. -/
def Dev.chipData (s : Dev) (a : Nat) : Line := ((s.chip a).map (fun l => l.data)).getD 0
def Dev.crcOk (l : MemLine) (a : Nat) : Bool := l.crc == lineCrc l.data (a / 64)

/-- One fault of a memory checker. -/
def Dev.memFault (s : Dev) (src kind cls a master access : Nat) (injected : Bool) : Dev :=
  s.faultMsg { source := src, kind := kind, cls := cls, addr := a / 64 * 64, master := master, access := access, injected := injected }

/-- The device after a check-value mismatch at a primary line (R388): a contained fault, and source 95. -/
def Dev.lineFault (s : Dev) (src a master access : Nat) (injected : Bool) : Dev :=
  (s.memFault src Kind.lineCrc 1 a master access injected).raise Irq.spCrc

/-- Read an on-chip line: none is a bus error. -/
def Dev.readChip (s : Dev) (r : Region) (a master access : Nat) : Option Line × Dev :=
  match s.chip a with
  | none => (some 0, s)
  | some l =>
    if l.poisoned then (none, s.memFault r.source Kind.poisonedAccess 1 a master access false)
    else
      let i := s.injectAt r.source
      if i.1 || !Dev.crcOk l a then (none, i.2.lineFault r.source a master access i.1) else (some l.data, i.2)

/-- A partial write to an on-chip line: false is a bus error (R391, R392). -/
def Dev.writeChip (s : Dev) (r : Region) (a size : Nat) (v : Line) (master access : Nat) : Bool × Dev :=
  match s.chip a with
  | none => (true, s.writeLine a (lineMerge 0 a size v))
  | some l =>
    if l.poisoned then (false, s.memFault r.source Kind.poisonedAccess 1 a master access false)
    else
      let i := s.injectAt r.source
      if i.1 || !Dev.crcOk l a then
        let s := i.2.putChip a (some { l with poisoned := true })
        (false, (s.addSat SP_STATUS.poisoned 1).lineFault r.source a master access i.1)
      else (true, i.2.writeLine a (lineMerge l.data a size v))

/-! ### DRAM (R403 to R406, R409) -/

/-- Nominal capacity in bytes (R200). -/
def Dev.rawBytes (s : Dev) : Nat :=
  s.slotLuns.length * s.blockGroups * s.wordLines * s.planes * s.bitsPerCell * s.image.dataPage
/-- The allotment of R409, lengths in bytes: write buffer, map directory, block table, running-XOR space, map cache. -/
def Dev.allotment (s : Dev) : List Nat :=
  [s.bm.gib * 2 ^ 30, (s.rawBytes + 33554431) / 33554432 * 16, 4096 * s.blockGroups * 16,
   64 * s.codewords * s.get CD_GEOMETRY.codeword_bytes, s.get MP_CACHE_CFG.cache_gib * 2 ^ 30]
/-- The DRAM address where part k of the allotment begins, on a line. -/
def Dev.allotAt (s : Dev) (k : Nat) : Nat := dramBase + ((s.allotment.take k).map (fun n => (n + 63) / 64 * 64)).sum

/-- Who owns a DRAM address (R406). -/
inductive DramOwner where
  | buffer | directory | blockTable | xor | cache | bolt | warden
deriving DecidableEq, Repr

def Dev.dramOwner (s : Dev) (a : Nat) : DramOwner :=
  if s.get BC_DRAM_LIMIT.limit ≤ a then .warden
  else if a < s.allotAt 1 then .buffer
  else if a < s.allotAt 2 then .directory
  else if a < s.allotAt 3 then .blockTable
  else if a < s.allotAt 4 then .xor
  else if a < s.allotAt 5 then .cache
  else .bolt

def dramChannel (a : Nat) : Nat := Config.dramSubchannel ((a - dramBase) / 64) % 12 / 2
def Dev.dramLine (s : Dev) (a : Nat) : DramLine := (s.mem.dram.find ((a - dramBase) / 64)).getD {}
def Dev.putDram (s : Dev) (a : Nat) (l : DramLine) : Dev :=
  s.modMem (fun m => { m with dram := m.dram.set ((a - dramBase) / 64) (if l = {} then none else some l) })

/-- Check symbols in error lie in one device: 0 to 7, or 8 to 15 (R404; log 18). -/
def oneDevice (bad : BitVec 16) : Bool := bad.toNat / 256 = 0 || bad.toNat % 256 = 0

/-- An error DC corrected (R405). -/
def Dev.dramCorrected (s : Dev) (a master access : Nat) (injected : Bool) : Dev :=
  let c := dramChannel a
  ((s.addSat ((DC_ERR.corrected).at (8 * c)) 1).raise (Irq.dramCorrected c)).memFault (Src.dramChannel c) Kind.dramCorrected 0 a
    master access injected

/-- Rows whose running XOR DRAM holds, in the order of their stripes: each with the data sets of it that are on flash (R235). -/
def Dev.xorRows (s : Dev) : List (Nat × Nat × List Nat) :=
  s.ms.stripes.flatMap (fun t => (t.row :: t.unverified).filterMap (fun r =>
    if r.sets.isEmpty then none else some (t.id, r.wl, Tbl.keys (s.nand.sets.filter (fun e => r.sets.contains e.2.seq)))))

/-- A line of a row's running XOR is lost: CD reads every codeword of the row's members again (R406, R235). Row k of the open rows
has the k-th part of the space (log 90). -/
def Dev.loseXor (s : Dev) (a : Nat) : Dev :=
  match s.xorRows[(a - s.allotAt 3) / max (s.codewords * s.get CD_GEOMETRY.codeword_bytes) 1]? with
  | none => s
  | some (id, wl, places) =>
    if places.isEmpty || s.xorReading id wl then s
    else
      let lose (r : Row) : Row := if r.wl = wl then { r with xorLost := true } else r
      let s := s.modStripe id (fun t => { t with row := lose t.row, unverified := t.unverified.map lose })
      if places.any (fun m => s.lunFailed (Pga.dieLun m)) then s
      else s.each places (fun s m => s.each (List.range s.codewords) (fun s k => s.oneReq (m * 16 + k) (.xorRow id wl) 0 0))

/-- The page whose entries the map cache holds at an address: the k-th of its pages has the k-th 4 KiB (log 90). -/
def Dev.cachedAt (s : Dev) (a : Nat) : Option Nat := s.mp.cached[(a - s.allotAt 4) / 4096]?

/-- MP loads a clean page again from flash (R406, R168). -/
def Dev.reloadPage (s : Dev) (pg : Nat) : Dev :=
  (s.modMp (fun m => { m with
    cached := m.cached.erase pg
    map := m.map.filter (fun e => pageOf e.1 != pg) })).loadPage pg 0 0

/-- Data whose line is lost; a block that no line holds loses nothing. -/
def loseData : BlockData → BlockData
  | .data _ => .poisoned
  | .zero => .zero
  | .poisoned => .poisoned
def loseStored : Stored → Stored
  | .cipher _ _ => .poisoned
  | .zero => .zero
  | .poisoned => .poisoned

/-- Block i of the k-th version in the buffer is poisoned, also in its set while that is not in the LUN (R406). -/
def Dev.poisonBlock (s : Dev) (k i : Nat) : Dev :=
  match (s.bm.opens.map (fun v => v.vid) ++ s.bm.sealeds.map (fun v => v.vid))[k]? with
  | none => s
  | some vid =>
    let s := s.modBm (fun b => { b with
      opens := b.opens.map (fun v =>
        if v.vid = vid then { v with blocks := v.blocks.modify i (Option.map (fun x => (x.1, x.2.1, loseData x.2.2))) } else v)
      sealeds := b.sealeds.map (fun v => if v.vid = vid then { v with blocks := v.blocks.modify i loseData } else v) })
    s.modMs (fun m => { m with sets := m.sets.map (fun x =>
      if x.st == .sealed || x.st == .failed then
        { x with slots := x.slots.map (fun e => if e.vid = vid then { e with blocks := e.blocks.modify i loseStored } else e) }
      else x) })

/-- A line of the write buffer is lost: BM writes it again where ingress staging still holds it, which is free, and otherwise
its block is poisoned (R406). The k-th version has the k-th 64 KiB (log 90). -/
def Dev.loseBuffer (s : Dev) (a : Nat) : Dev :=
  let r := s.draw
  if Config.freeBool r.1 then r.2 else r.2.poisonBlock ((a - dramBase) / 65536) (a / 4096 % 16)

/-- An error beyond correction: what the owner of the region does (R406). -/
def Dev.dramUncorrectable (s : Dev) (a master access : Nat) (injected : Bool) : Dev :=
  let c := dramChannel a
  let s := (s.addSat ((DC_ERR.uncorrectable).at (8 * c)) 1).raise (Irq.dramUncorrectable c)
  let s := if s.bit DC_POISON_ADDR.valid then s else (s.put DC_POISON_ADDR.valid 1).put DC_POISON_ADDR.line (a / 64)
  let say (cls : Nat) (kind : Nat) : Dev := s.memFault (Src.dramChannel c) kind cls a master access injected
  match s.dramOwner a with
  | .buffer => (say 1 Kind.dramUncorrectable).loseBuffer a
  | .bolt | .warden => say 1 Kind.dramUncorrectable
  | .xor => (say 1 Kind.dramUncorrectable).loseXor a
  | .directory | .blockTable => say 2 Kind.mapStateLost
  | .cache =>
    match s.cachedAt a with
    | some pg => if s.mp.dirty.contains pg then say 2 Kind.mapStateLost else (say 0 Kind.dramUncorrectable).reloadPage pg
    | none => say 0 Kind.dramUncorrectable

/-- A DRAM line as it is written: DC_TEST_MASK inverts check symbols of the next line written (R397). -/
def Dev.writeDram (s : Dev) (a : Nat) (d : Line) : Dev :=
  let bad := if s.bit DC_TEST_MASK.armed then BitVec.ofNat 16 (s.get DC_TEST_MASK.mask) else 0
  (s.flag DC_TEST_MASK.armed false).putDram a { data := d, bad := bad }

/-- Read a DRAM line: none is an error to the requester (R404 to R406). -/
def Dev.readDram (s : Dev) (a master access : Nat) : Option Line × Dev :=
  let l := s.dramLine a
  let i := s.injectAt (Src.dramChannel (dramChannel a))
  if l.poisoned || !oneDevice l.bad || i.1 then (none, i.2.dramUncorrectable a master access i.1)
  else if l.bad != 0 then (some l.data, i.2.dramCorrected a master access false)
  else (some l.data, i.2)

/-- A write narrower than a DRAM line (R405): false is an error to the writer. -/
def Dev.mergeDram (s : Dev) (a size : Nat) (v : Line) (master access : Nat) : Bool × Dev :=
  let r := s.readDram a master access
  match r.1 with
  | some d => (true, r.2.writeDram a (lineMerge d a size v))
  | none => (false, if r.2.isDead then r.2 else r.2.putDram a { r.2.dramLine a with poisoned := true })

/-- The canonical form of the memories: indices rise strictly, and no DRAM line is listed that reads as an unlisted one. -/
abbrev Mem.wf (m : Mem) : Prop := Tbl.wf m.lines ∧ Tbl.wf m.dram ∧ ∀ e ∈ m.dram, e.2 ≠ {}

/-! ### Rendered tables -/

/-- The block table entry at a byte of the table in DRAM (R263). -/
def blockBytes (e : BlockEntry) : Nat :=
  let st := match e.state with
    | .free => 0 | .erased => 1 | .open_ => 2 | .closed => 3 | .victim => 4 | .retired => 5 | .witness => 6 | .system => 7
  pack [(0, 16, e.erases), (16, 32, e.driftStamp), (48, 3, st), (51, 1, if e.suspect then 1 else 0), (56, 4, e.stream),
    (64, 16, e.valid), (80, 8, e.l3Hits), (88, 8, e.pinned), (96, 32, e.born)]

/-- A line of the block table as a core reads it: four entries. -/
def Dev.tableLine (s : Dev) (a : Nat) : Line :=
  let i := (a / 64 * 64 - s.allotAt 2) / 16
  BitVec.ofNat 512 (pack ((List.range 4).map (fun k =>
    (128 * k, 128, blockBytes (s.entry ((i + k) / max s.blockGroups 1) ((i + k) % max s.blockGroups 1))))))

/-- A DRAM line as a core reads it. -/
def Dev.readDramFor (s : Dev) (a master access : Nat) : Option Line × Dev :=
  let r := s.readDram a master access
  if s.dramOwner a == .blockTable && r.1.isSome then (some (s.tableLine a), r.2) else r

/-! ### What a Bolt core reaches (R344, R345, R352) -/

/-- The Bolt slot the cores run from, and the first logical sector and number of sectors of Bolt slot k (R369). -/
def Dev.boltSlot (s : Dev) : Nat := s.get BC_CTRL.slot
def boltSectors (slot : Nat) : Nat × Nat := (64 + 128 * slot, 128)

/-- The mailbox areas core n may write: its own ring and the bulk area. -/
def mailboxOpen (n a : Nat) : Bool :=
  let o := a - 0x000102000000
  (0x10000 + n * 0x1000 ≤ o && o < 0x10000 + (n + 1) * 0x1000) || 0x20000 ≤ o

/-- The atomic kinds of access, and the kinds that store (R345). -/
def isAtomic : AccessKind → Bool
  | .atomic _ | .loadReserved | .storeConditional => true
  | .fetch | .read | .write => false
def isStore : AccessKind → Bool
  | .write | .atomic _ | .storeConditional => true
  | .fetch | .read | .loadReserved => false

/-- Whether Bolt core n may make an access of this kind to memory at a. Registers are judged by their own rules. -/
def Dev.boltMay (s : Dev) (n : Nat) (k : AccessKind) (a : Nat) : Bool :=
  match s.region a with
  | .window =>
    let sec := (a - 0x10000000) / 65536
    (k == .fetch || k == .read) && (boltSectors s.boltSlot).1 ≤ sec && sec < (boltSectors s.boltSlot).1 + (boltSectors s.boltSlot).2
  | .boltScratch m => m = n
  | .shared => true
  | .mailbox => k != .fetch && (!isStore k || mailboxOpen n a)
  | .dram => k != .fetch && !isAtomic k && a < s.get BC_DRAM_LIMIT.limit
  | _ => false

/-- A range that every Bolt core may write: what an accelerator's buffer must lie in (R347). -/
def Dev.bufferOk (s : Dev) (a size : Nat) : Bool :=
  a % 4 = 0 && [a, a + size - 1].all (fun x => match s.region x with
    | .shared => true
    | .dram => x < s.get BC_DRAM_LIMIT.limit
    | .mailbox => 0x000102020000 ≤ x
    | _ => false)

/-- A unit writes at most one line's worth of bytes to a buffer. -/
def Dev.writePart (s : Dev) (a : Nat) (bs : List Nat) (master : Nat) : Dev :=
  match s.region a with
  | .dram => (s.mergeDram a bs.length (BitVec.ofNat 512 (ofBytes bs)) master 6).2
  | r => (s.writeChip r a bs.length (BitVec.ofNat 512 (ofBytes bs)) master 6).2

/-- An accelerator writes its result buffer, line by line (R347). -/
def Dev.writeBuffer (s : Dev) (a : Nat) (bs : List Nat) (master : Nat) : Dev :=
  let head := 64 - a % 64
  let s := s.writePart a (bs.take head) master
  let rest := bs.drop head
  s.each (List.range ((rest.length + 63) / 64)) (fun s i => s.writePart (a + head + 64 * i) ((rest.drop (64 * i)).take 64) master)

end Sys2Proof.Machine
end

