-- ==== Sys2Proof/Machine/Rings.lean ====
section
/-! DEFINITION. The descriptor rings as shared operations (R348 to R350): a unit takes the entry at its next index, and
completes it later with one line write; CD's request ring (R251, R261). -/

namespace Sys2Proof.Machine
open Reg

/-! ### Places and fields (R348, R349) -/

def ringBase : Unit4 → Nat
  | .mp => 0x000100fec000
  | .ms => 0x000100ff0000
  | .cd => 0x000100ff4000
  | .rc => 0x000100ffc000
def reqRingBase : Nat := 0x000100ff8000
def entryAt (u : Unit4) (i : Nat) : Nat := ringBase u + 64 * i

/-- A unit's number in DESCRIPTOR_DONE, its master ID (R416), its source (R414) and its ring-done source (R354). -/
def unitOf (n : Nat) : Option Unit4 := if n = 0 then some .mp else if n = 1 then some .ms else if n = 2 then some .cd else if n = 3 then some .rc else none
def Unit4.master : Unit4 → Nat
  | .mp => 0x33
  | .ms => 0x34
  | .rc => 0x35
  | .cd => 0x36
def Unit4.source : Unit4 → Nat
  | .mp => Src.mp
  | .ms => Src.ms
  | .rc => Src.rc
  | .cd => Src.cd
def Unit4.done : Unit4 → Nat
  | .mp => Irq.mp 0
  | .ms => Irq.ms 0
  | .cd => Irq.cd 0
  | .rc => Irq.rc 0

def ringOwner (l : Line) : Nat := fld l 0 8
def ringOp (l : Line) : Nat := fld l 8 8
def ringIrq (l : Line) : Bool := fld l 16 1 = 1
/-- n bits of the descriptor body from its byte b on. -/
def bodyAt (l : Line) (b n : Nat) : Nat := fld l (64 + 8 * b) n

/-- The opcodes a unit knows (R191, R223, R260, R283). -/
def knownOp (u : Unit4) (op : Nat) : Bool :=
  match u with
  | .mp => 1 ≤ op && op ≤ 6
  | .ms => 1 ≤ op && op ≤ 3
  | .cd | .rc => 1 ≤ op && op ≤ 4

/-! ### Taking an entry (R350) -/

def Rings.next (r : Rings) : Unit4 → Nat
  | .mp => r.mp
  | .ms => r.ms
  | .cd => r.cd
  | .rc => r.rc
def Rings.setNext (r : Rings) (u : Unit4) (n : Nat) : Rings :=
  match u with
  | .mp => { r with mp := n }
  | .ms => { r with ms := n }
  | .cd => { r with cd := n }
  | .rc => { r with rc := n }

/-- The unit may take another entry: it works, has fewer than 64 in progress, and the entry is not one of them. -/
def Dev.mayTake (s : Dev) (u : Unit4) : Bool :=
  s.awake && !s.isDead && (s.inProgress u).length < 64 && !(s.inProgress u).any (fun d => d.index = s.rings.next u)

/-- The entry at a unit's next index reads without error. -/
def Dev.entryGood (s : Dev) (u : Unit4) : Bool :=
  match s.chip (entryAt u (s.rings.next u)) with
  | some l => !l.poisoned && Dev.crcOk l (entryAt u (s.rings.next u)) && !s.armedFor Src.shared
  | none => true

/-- The posted entry of an opcode at a unit's next index: its index and its copy. -/
def Dev.entryReady (s : Dev) (u : Unit4) (op : Nat) : Option (Nat × Line) :=
  let i := s.rings.next u
  let l := s.chipData (entryAt u i)
  if s.mayTake u && s.entryGood u && ringOwner l = 1 && ringOp l = op then some (i, l) else none

/-- The unit takes the entry: it is in progress, and next advances. -/
def Dev.takeDesc (s : Dev) (u : Unit4) (i : Nat) (l : Line) : Dev :=
  { s with rings := { s.rings.setNext u ((i + 1) % 256) with
    ran := if s.rings.ran.contains u then s.rings.ran else s.rings.ran ++ [u]
    desc := s.rings.desc ++ [{ unit := u, index := i, entry := l }] } }

/-- A descriptor's meaning: the unit takes the posted entry, and f says what it does with it. -/
def onDesc (s : State) (u : Unit4) (op : Nat) (f : Dev → Nat → Line → Dev) : Res :=
  actOn s (fun d => d.entryReady u op) (fun d e => f (d.takeDesc u e.1 e.2) e.1 e.2)

/-- A buffer that a Bolt core could not write: status 1, and a contained fault (R347). -/
def Dev.refuseBuffer (s : Dev) (u : Unit4) (i a : Nat) : Dev :=
  (s.contained u.source (if s.region a == .nothing then Kind.unmappedAccess else Kind.closedAccess) a u.master 6).answer u i 1 0 0

/-- The bytes of an entry as its unit completes it: cookie and body unchanged, status, words, OPT and owner 2. -/
def doneEntry (l : Line) (st : Nat) (w0 w1 : Dword) (opt : BitVec 48) : Line :=
  let keep := fld l 8 16 <<< 8 + fld l 32 288 <<< 32 + fld l 432 80 <<< 432
  BitVec.ofNat 512 (keep + pack [(0, 8, 2), (24, 8, st), (320, 32, w0.toNat), (352, 32, w1.toNat), (384, 48, opt.toNat)])

/-- One line write completes an entry, and the ring-done source is raised if it asks for that. -/
def Dev.finishEntry (s : Dev) (u : Unit4) (i : Nat) (l : Line) (st : Nat) (w0 w1 : Dword) : Dev :=
  let s := s.writeLine (entryAt u i) (doneEntry l st w0 w1 s.opt)
  if ringIrq l then s.raise u.done else s

/-! ### The CD request ring (R251, R261, R350) -/

def requesterCode : Requester → Nat
  | .host _ _ _ => 0
  | .preRead _ _ => 1
  | .mapPage _ _ => 2
  | .reclaim _ _ _ => 3
  | _ => 0

/-- A Ladder Request record in its ring entry: its unsat and opt are those of L2's end (R261). -/
def ladderEntry (r : CwReq) : Line :=
  let host := match r.who with | .host _ _ _ => true | _ => false
  let body := pack [(0, 32, r.id), (32, 44, r.addr), (80, 3, requesterCode r.who), (88, 8, r.ageBin), (96, 32, r.unsat), (128, 48, r.failOpt.toNat),
    (176, 16, if host then r.queue else 0), (192, 16, if host then r.tag.toNat else 0), (208, 1, if host then r.port else 0)]
  BitVec.ofNat 512 (pack [(0, 8, 1), (8, 8, 0x80)] + body <<< 64)

/-- Records that have waited go out while entry next is free. -/
def Dev.drainOne (s : Dev) : Dev :=
  match s.rings.reqWait with
  | [] => s
  | l :: rest =>
    let a := reqRingBase + 64 * s.rings.req
    if ringOwner (s.chipData a) = 0 then
      let s := { s with rings := { s.rings with req := (s.rings.req + 1) % 256, reqRan := true, reqWait := rest } }
      (s.writeLine a l).raise (Irq.cd 1)
    else s

def Dev.drainReqs (s : Dev) : Dev := s.each s.rings.reqWait (fun s _ => s.drainOne)

/-- CD posts a Ladder Request record; its fallback timer starts (R251). -/
def Dev.postRequest (s : Dev) (id : Nat) : Dev :=
  match s.cd.reqs.find? (fun r => r.id = id) with
  | none => s
  | some r =>
    let r := { r with
      st := ReqState.waitingStep
      timer := s.now
      paused := 0
      posted := true
      failOpt := if r.tier = 2 then s.opt else r.failOpt }
    let s := s.modReq id (fun _ => r)
    ({ s with rings := { s.rings with reqWait := s.rings.reqWait ++ [ladderEntry r] } }).drainReqs

/-! ### Image data of the codec (R237, R238) -/

/-- Point k of a wear bin's curve: shift and hours. -/
def Dev.curvePoint (s : Dev) (wear k : Nat) : Int × Nat :=
  let o := 5952 + 128 * wear + 8 * k
  (signed (s.tableAt o 2) 16, s.tableAt (o + 4) 4)

/-- An age of the curve in 1/16 hour, whether it is beyond the curve, and whether the curve gives it: the spec states no age
below point 0 (R245). -/
def Dev.curveAge (s : Dev) (wear : Nat) (shift : Int) : Nat × Bool × Bool :=
  let pts := (List.range 16).map (fun k => s.curvePoint wear k)
  match pts.getLast? with
  | none => (0, false, false)
  | some last =>
    if last.1 < shift then (16 * last.2, true, true)
    else match ((List.range 15).filterMap (fun k =>
        let a := s.curvePoint wear k
        let b := s.curvePoint wear (k + 1)
        if a.1 ≤ shift && shift ≤ b.1 then some (a, b) else none)).head? with
      | some (a, b) =>
        let w := (b.1 - a.1).toNat
        let d := (shift - a.1).toNat
        ((if w = 0 then 16 * a.2 else (16 * a.2 * (w - d) + 16 * b.2 * d) / w), false, true)
      | none => (0, false, false)

/-- The age a sweep's valley gives a LUN: shift v × sweep_step on its witness's wear bin; free where the curve gives none. -/
def Dev.sweepAge (s : Dev) (wear valley : Nat) : (Nat × Bool) × Dev :=
  let a := s.curveAge wear ((valley * s.get CD_WITNESS_CFG.sweep_step : Nat) : Int)
  if a.2.2 then ((a.1, a.2.1), s)
  else (((Config.freeWord s.freeCtr).toNat % 2 ^ 31, false), { s with freeCtr := s.freeCtr + 1 })

end Sys2Proof.Machine
end

