-- ==== Sys2Proof/Machine/Codec.lean ====
section
/-! DEFINITION. CD's commands: DECODE_RESULT, LADDER_FALLBACK, WITNESS_INTERVAL, LADDER_STEP, WITNESS_SWEEP, REFERENCE_QUERY
and SAMPLE (R227, R237 to R255, R260). -/

namespace Sys2Proof.Machine
open Reg

def Dev.req (s : Dev) (id : Nat) : Option CwReq := s.cd.reqs.find? (fun r => r.id = id)

/-! ### The ladder (R250 to R254) -/

/-- A Ladder Step descriptor that ordered this request's tier gets its result (R260). -/
def Dev.stepDone (s : Dev) (id : Nat) (ok : Bool) (tier : Nat) : Dev :=
  match (s.inProgress .cd).find? (fun d => d.result.isNone && ringOp d.entry = 1 && bodyAt d.entry 0 32 = id) with
  | some d => s.answer .cd d.index 0 ((if ok then 1 else 0) + 2 * tier) 0
  | none => s

/-- A codeword request has ended: its requester gets its data or acts on the failure, and what waited goes on. -/
def Dev.reqEnded (s : Dev) (r : CwReq) (ok : Bool) : Dev :=
  let s := s.stepDone r.id ok r.tier
  (if ok then s.reqOk r else s.reqFail r).stir

/-- The highest tier of a requester (R254); the sweeps of witness lines decode nothing. -/
def Requester.top : Requester → Nat
  | .member _ => 2
  | .sample _ limit => limit
  | .sweep _ => 0
  | .interval _ => 0
  | .fresh _ => 0
  | .xorRow _ _ => 2
  | _ => 4
/-- Its L3 and L4 wait for policy firmware; those of a Sample do not, for which R261 has no requester code (log 84). -/
def Requester.posts : Requester → Bool
  | .sample _ _ => false
  | _ => true

/-- The adjustment an L4 success leaves: the valleys its sweep found, until the next wake (R253). -/
def Dev.noteAdjust (s : Dev) (r : CwReq) : Dev :=
  let a : Adjust := ⟨Pga.dieLun (r.addr / 16), s.levelOf (cwIndex r.addr), r.ageBin, r.centre⟩
  if r.tier = 4 then
    s.modCd (fun c => { c with adjust := c.adjust.filter (fun x => !(x.lun = a.lun && x.level = a.level && x.bin = a.bin)) ++ [a] })
  else s

/-- L4: the sixteen sweep reads of the LUN's newest witness line, then five reads of the codeword; it fails at once where
there is no line to sweep (R250, R253). -/
def Dev.startL4 (s : Dev) (r : CwReq) : Dev :=
  let r := { r with
    tier := 4
    st := ReqState.reading
    dead := false
    level := s.levelOf (cwIndex r.addr)
    sweep := 16
    left := 4 }
  match s.witnessPlace (Pga.dieLun (r.addr / 16)) with
  | some w => (s.modReq r.id (fun _ => r)).issueSweep w r
  | none => s.reqEnded r false

/-- The next tier of a request that waits for a step. -/
def Dev.nextTier (s : Dev) (r : CwReq) : Dev := if r.tier = 2 then s.startRebuild r.id else s.startL4 r

/-- A tier begins with a read of the codeword. -/
def Dev.readTier (s : Dev) (r : CwReq) (tier reread left : Nat) : Dev :=
  let r := { r with
    tier := tier
    reread := reread
    left := left
    st := ReqState.reading
    dead := false }
  (s.modReq r.id (fun _ => r)).issueRead r

/-- L3 or L4 of a request: on a step of policy firmware or by fallback, or at once where no record is posted. -/
def Dev.awaitStep (s : Dev) (r : CwReq) : Dev := if r.who.posts then s.postRequest r.id else s.nextTier r

/-- The tier after a failed L0, L1 or L2 (R250, R251, R254). -/
def Dev.climb (s : Dev) (r : CwReq) : Dev :=
  let rereads := s.get CD_LADDER_CFG.l1_rereads
  if r.tier ≤ 1 && r.reread < rereads && 1 ≤ r.who.top then s.readTier r 1 (r.reread + 1) 0
  else if r.tier ≤ 1 && 2 ≤ r.who.top then (s.readTier r 2 r.reread 2).raceReplica r.who r.acc r.startNo
  else if r.who.top ≤ 2 then s.reqEnded r false
  else s.awaitStep r

/-- A decode of a request failed. -/
def Dev.decodeFailed (s : Dev) (r : CwReq) : Dev :=
  if r.tier ≤ 2 then s.climb r
  else if r.tier = 3 && r.who.top = 4 && !s.lunFailed (Pga.dieLun (r.addr / 16)) then (s.stepDone r.id false 3).awaitStep r
  else s.reqEnded r false

/-- A request whose tier's reads, or whose rebuild's members, are all in. -/
def CwReq.awaits (r : CwReq) : Bool := r.st == .decoding || (r.st == .rebuilding && r.members = 0)

/-- The set a codeword lies in is on flash; it is a codeword of a parity set. -/
def Dev.onFlash (s : Dev) (addr : Nat) : Bool := s.nand.sets.has (Pga.set (addr / 16))
def Dev.isParity (s : Dev) (addr : Nat) : Bool :=
  match s.nand.sets.find (Pga.set (addr / 16)) with
  | some x => x.kind == .parity
  | none => false

/-- What a decode leaves in its request: the unsatisfied checks up to L2 (R261), and the reference with the fewest (R250). -/
def CwReq.noteUnsat (r : CwReq) (unsat : Nat) : CwReq :=
  if r.tier ≤ 2 then
    let fewer : Bool := r.tier ≤ 1 && (match r.bestUnsat with | some b => unsat < b | none => true)
    { r with
      unsat := unsat
      best := if fewer then r.reread else r.best
      bestUnsat := if fewer then some unsat else r.bestUnsat }
  else r

/-- DECODE_RESULT (R227): a decoder finishes a codeword with a syndrome, a crc comparison and the address its metadata carries; a
parity codeword passes on its syndrome alone, and an erased codeword never. A tier that is impossible or has lost a member fails
whatever was decoded (R252). -/
def execDecodeResult (id : Nat) (found : Check) (unsat : Nat) (s : State) : Res :=
  actOn s (fun d => (d.req id).filter (fun r => r.awaits && !d.isDead)) (fun d r =>
    let r := r.noteUnsat (unsat % 2 ^ 32)
    let d := d.modReq id (fun _ => r)
    let passes : Bool := found.syndromeZero && (d.isParity r.addr || (found.crcOk && found.address = r.addr))
    if passes && !r.dead && d.onFlash r.addr then (d.noteAdjust r).reqEnded r true else d.decodeFailed r)

/-- LADDER_FALLBACK (R251): the timer does not run while an activation hold is in force. -/
def execLadderFallback (id : Nat) (s : State) : Res :=
  actOn s (fun d => (d.req id).filter (fun r => r.st == .waitingStep && d.qe.hold.isNone && !d.isDead)) (fun d r =>
    if d.expired r.timer (msTicks (d.get CD_LADDER_CFG.policy_ms) + r.paused) then d.nextTier r else d)

/-! ### Drift and witness lines (R240 to R244) -/

def Dev.drift (s : Dev) (lun : Nat) : Drift := (s.cd.drift.find lun).getD {}
def Dev.modDrift (s : Dev) (lun : Nat) (f : Drift → Drift) : Dev := s.modCd (fun c => { c with drift := c.drift.put lun (f (s.drift lun)) })

/-- Block groups of a LUN that hold valid data. -/
def Dev.holding (s : Dev) (lun : Nat) : List Nat := (List.range s.blockGroups).filter (fun b => (s.entry lun b).valid != 0)
/-- A LUN's data age in 1/16 hour (R241). -/
def Dev.dataAge (s : Dev) (lun : Nat) : Nat :=
  match (s.holding lun).map (fun b => (s.entry lun b).driftStamp) with
  | [] => 0
  | x :: l => s.clock lun - l.foldl min x

/-- LUNs whose data age has reached the retention budget (R247). -/
def Dev.pastBudget (s : Dev) : List Nat := s.goodLuns.filter (fun l => 16 * s.get CD_DRIFT_CFG.retention_h ≤ s.dataAge l)

/-- refresh_due follows the count, and in Run the notice is posted when the count rises from zero; with auto_refresh RC
starts a pass over each such LUN (R248, R277). -/
def Dev.noteDrift (s : Dev) : Dev :=
  let past := s.pastBudget
  let rise := !past.isEmpty && !s.bit CD_STATUS.refresh_due
  let s := s.flag CD_STATUS.refresh_due (!past.isEmpty)
  let s := if rise then s.raise (Irq.cd 3) else s
  let most := (past.map (fun l => s.dataAge l)).foldl max 0 / 16
  let s := if rise && s.inRun then (s.event 0x0802 Src.cd past.length most 0).notice 2 past.length most 0 else s
  if s.inRun && s.bit RC_STREAM_CFG.auto_refresh then
    s.each (past.filter (fun l => !s.rc.passes.any (fun p => p.why == .refreshLun l) && !s.rc.units.any (fun u => u.why == .refreshLun l)))
      (fun s l => s.addPass { why := .refreshLun l, left := s.setsIn l none, urgent := false })
  else s

/-- The mean wear bin of a LUN's data-holding block groups. -/
def Dev.meanWear (s : Dev) (lun : Nat) : Nat :=
  let bins := (s.holding lun).map (fun b => s.wearBin lun b)
  bins.sum / max bins.length 1

/-- Where a LUN's next witness line goes, and the block group to erase for it first (R244): none where its one witness block
is full or it has none. -/
def Dev.witnessNext (s : Dev) (lun : Nat) : Option (Nat × Nat × Bool) :=
  match s.witnessBlocks lun with
  | [] => none
  | first :: more =>
    match (s.witnesses lun).getLast? with
    | none => some (first, 0, false)
    | some w =>
      let others := (first :: more).filter (fun b => b != w.which)
      match w.ok || others.isEmpty, others with
      | false, b :: _ => some (b, 0, true)
      | _, _ =>
        if w.wl + 1 < s.wordLines then some (w.which, w.wl + 1, false)
        else match others with
          | b :: _ => some (b, 0, true)
          | [] => none

/-- A block group is erased within the present step, at a format or in Commit. -/
def Dev.eraseNow (s : Dev) (lun b : Nat) : Dev :=
  (s.modEntry lun b (fun e => { e with erases := e.erases + 1 })).forgetBlocks [(lun, b)]

/-- A retired witness block is replaced by the next lower block group that holds no data, among the 64 highest (R242). -/
def Dev.replaceWitness (s : Dev) (lun b : Nat) : Dev :=
  let top := s.blockGroups - 64
  match ((List.range b).reverse.filter (fun k => top ≤ k)).find? (fun k =>
      let st := (s.entry lun k).state
      st == .free || st == .erased) with
  | some k => s.modEntry lun k (fun e => { e with state := .witness })
  | none => s

/-- The failing witness blocks of a LUN, once a line has verified elsewhere, go to RC (R244). -/
def Dev.dropFailed (s : Dev) (lun good : Nat) : Dev :=
  let bad := (((s.witnesses lun).filter (fun w => !w.ok && w.which != good)).map (fun w => w.which)).eraseDups
  s.each bad (fun s b => ((s.retireBlock lun b 1).replaceWitness lun b).forgetBlocks [(lun, b)])

/-- The witness line that CD would program on a LUN now, at a block group and word line (R243). -/
def Dev.freshLine (s : Dev) (lun reason b wl : Nat) : Witness :=
  let seq := (((s.witnesses lun).getLast?).map (fun w => w.seq)).getD 0 + 1
  { seq := seq, reason := reason, stamp := s.clock lun, opt := s.opt, pcc := s.pcc, wear := s.meanWear lun, wl := wl, which := b, ok := false }

/-- The valleys of a sweep, one step below its starting offset for each threshold of a level: what the cells show is free
(log 6). -/
def Dev.drawValleys (s : Dev) (level : Nat) (start : Nat → Int) : Tbl Int × Dev :=
  (s.levelThresholds level).foldl (fun (a : Tbl Int × Dev) t =>
    let v := (Config.freeWord a.2.freeCtr).toNat % 16
    (a.1.put t (start t - ((v * s.get CD_WITNESS_CFG.sweep_step : Nat) : Int)), { a.2 with freeCtr := a.2.freeCtr + 1 })) ([], s)

/-- A programmed line's end: with its footer decoded at L0 its fresh valleys are noted and it is the newest line; else it is
left as it is (R244). -/
def Dev.lineDone (s : Dev) (lun : Nat) (w : Witness) (ok : Bool) : Dev :=
  let r := if ok then s.drawValleys s.sweepLevel (fun t => s.predicted w.wear 0 t + 8 * (s.get CD_WITNESS_CFG.sweep_step : Nat)) else ([], s)
  let s := r.2.modNand (fun n => { n with witness := n.witness.put lun (s.witnesses lun ++ [{ w with ok := ok, valley := r.1 }]) })
  let s := s.modDrift lun (fun d => { d with lastWitness := s.optTicks })
  if ok then s.dropFailed lun w.which else s

/-- The next program sequence number is taken (R179). -/
def Dev.takeSeq (s : Dev) : Dev := (s.modMs (fun m => { m with progSeq := m.progSeq + 1 })).put MP_PROG_SEQ.seq (s.ms.progSeq + 1)

/-- Program one witness line within the present step, at a format or in Commit (R243, R244). -/
def Dev.programWitness (s : Dev) (lun reason : Nat) (ok : Bool) : Dev :=
  match s.witnessNext lun with
  | none => s
  | some (b, wl, erase) =>
    let w := s.freshLine lun reason b wl
    let s := if erase then s.eraseNow lun b else s
    s.takeSeq.lineDone lun w ok

/-- Queue the erase and the program of a witness line (R244): both rank with map-stream work and pay tokens. -/
def Dev.queueWitness (s : Dev) (lun reason : Nat) : Dev :=
  match s.witnessNext lun with
  | none => s
  | some (b, wl, erase) =>
    let w := s.freshLine lun reason b wl
    let s := if erase then s.queueErase lun b else s
    s.addSet { seq := s.ms.progSeq + 1, kind := .witness, stream := 8, place := Pga.mk lun b wl 0, stripe := 0, slots := [], padded := false,
               sealedAt := s.now, needed := true, ckptSeq := s.get MP_CKPT_SEQ.seq, opt := s.opt, line := some w }

/-- A witness set is out of MS's hands. -/
def Dev.dropSet (s : Dev) (seq : Nat) : Dev := s.modMs (fun m => { m with sets := m.sets.filter (fun y => y.seq != seq) })

/-- Sixteen reads of plane 0 of a witness line begin. -/
def Dev.startSweep (s : Dev) (place level valley : Nat) (who : Requester) : Dev :=
  let r := { s.makeReq (place * 16) who 0 0 with
    level := level
    sweep := 16
    valley := valley }
  (s.addReq r).issueSweep place r

/-- The bytes of 32-bit counts. -/
def dwordBytes (l : List Dword) : List Nat := l.flatMap (fun d => bytesOf d.toNat 4)
def populated (s : Dev) (lun : Nat) : Bool := s.slotLuns.contains lun

/-- The step with the fewest wrong cells for threshold n − 1, ties to the lower step; counts are step-major. -/
def valleyOf (n : Nat) (counts : List Dword) : Nat :=
  ((List.range 16).foldl (fun (b : Nat × Nat) k =>
    let c := (counts.getD (k * n + (n - 1)) 0).toNat
    if c < b.2 then (k, c) else b) (0, 2 ^ 32)).1

/-- The answer of a Witness Sweep whose reads are done (R260). -/
def Dev.sweepAnswer (s : Dev) (i : Nat) : Dev :=
  match s.descOf .cd i with
  | some d => (s.writeBuffer (bodyAt d.entry 16 64) (dwordBytes (d.counts.take (16 * s.thresholds))) 0x36).answer .cd i 0
      (valleyOf s.thresholds d.counts) 0
  | none => s

/-- The sweep of an interval event has ended: D is the line's stamp plus the measured age, and the new line is programmed
(R244). -/
def Dev.intervalSwept (s : Dev) (lun valley : Nat) : Dev :=
  let s := match s.newestWitness lun with
    | some w =>
      let a := s.sweepAge w.wear valley
      a.2.modDrift lun (fun x => { x with
        d := w.stamp + a.1.1
        measured := true
        rest := 0 })
    | none => s
  (s.queueWitness lun 1).noteDrift

/-- A sweep has made its last read. -/
def Dev.sweepDone (s : Dev) (r : CwReq) : Dev :=
  let lun := Pga.dieLun (r.addr / 16)
  match r.who with
  | .sweep i => (s.dropReq r.id).sweepAnswer i
  | .interval l => (s.dropReq r.id).intervalSwept l r.valley
  | .fresh q =>
    let s := s.dropReq r.id
    match (s.setOf q).bind (fun x => x.line) with
    | some w => (s.dropSet q).lineDone lun w true
    | none => s
  | _ =>
    let line := s.witnessLine lun
    let v := s.drawValleys r.level (fun t => ((line.map (fun w => w.valley)).bind (fun l => l.find t)).getD 0)
    let r := { r with
      sweep := 0
      centre := v.1 }
    (v.2.modReq r.id (fun _ => r)).issueRead r

/-- A witness line is on its way for a LUN. -/
def Dev.lineUnderway (s : Dev) (lun : Nat) : Bool :=
  s.cd.reqs.any (fun r => r.who == .interval lun) || s.ms.sets.any (fun x => x.kind == .witness && Pga.dieLun x.place = lun)

/-- WITNESS_INTERVAL (R244): interval_h hours of OPT have passed since the LUN's last line. A sweep of the newest line sets D, and
a new line is programmed. valley is the step with the fewest wrong cells that the sweep will find. -/
def execWitnessInterval (channel lun valley : Nat) (s : State) : Res :=
  let lun := channel * 32 + lun
  act s (fun d => d.goodLuns.contains lun && d.inRun && d.pw.phase != .committing && valley < 16 && !d.isDead && !d.lineUnderway lun
      && d.optExpired (d.drift lun).lastWitness (hourTicks (d.get CD_WITNESS_CFG.interval_h))) (fun d =>
    let d := d.modDrift lun (fun x => { x with lastWitness := d.optTicks })
    match d.witnessPlace lun with
    | some w => d.startSweep w d.sweepLevel valley (.interval lun)
    | none => d.queueWitness lun 1)

/-! ### Codec descriptors (R260) -/

/-- CD_STATUS.state is done. -/
def Dev.cdDone (s : Dev) : Bool := s.get CD_STATUS.state = 4

/-- LADDER_STEP: only for the next tier of an open request that waits. Its result is known when the tier ends. -/
def Dev.ladderStep (s : Dev) (i : Nat) (l : Line) : Dev :=
  if !s.cdDone then s.answer .cd i 3 0 0
  else match (s.req (bodyAt l 0 32)).filter (fun r => r.st == .waitingStep && r.tier + 1 = bodyAt l 4 8) with
    | some r => s.nextTier r
    | none => s.answer .cd i 1 0 0

def execLadderStep (s : State) : Res := onDesc s .cd 1 (fun d i l => d.ladderStep i l)

/-- WITNESS_SWEEP of the LUN's newest line: counts are the 16 × n wrong-cell counts that its sixteen reads will find. A LUN without
a readable line has nothing to sweep (log 84). -/
def Dev.witnessSweep (s : Dev) (i : Nat) (l : Line) (counts : List Dword) : Dev :=
  let lun := bodyAt l 0 7 * 32 + bodyAt l 1 5
  let buf := bodyAt l 16 64
  if !s.cdDone then s.answer .cd i 3 0 0
  else if !populated s lun || s.bitsPerCell ≤ bodyAt l 2 8 then s.answer .cd i 1 0 0
  else if s.lunFailed lun then s.answer .cd i 2 0 0
  else if !s.bufferOk buf 2048 then s.refuseBuffer .cd i buf
  else match s.witnessPlace lun with
    | some w => (s.modDesc .cd i (fun d => { d with counts := counts })).startSweep w (bodyAt l 2 8) 0 (.sweep i)
    | none => s.answer .cd i 1 0 0

def execWitnessSweep (counts : List Dword) (s : State) : Res :=
  if counts.length = 16 * s.dev.thresholds then onDesc s .cd 2 (fun d i l => d.witnessSweep i l counts) else .next s

/-- REFERENCE_QUERY: the n predicted offsets that a read of the codeword starts from, one signed byte each. -/
def Dev.referenceQuery (s : Dev) (i : Nat) (l : Line) : Dev :=
  let addr := bodyAt l 0 44
  let lun := Pga.dieLun (addr / 16)
  let b := Pga.block (addr / 16)
  let buf := bodyAt l 16 64
  if !s.cdDone then s.answer .cd i 3 0 0
  else if !populated s lun || s.blockGroups ≤ b || s.wordLines ≤ Pga.wl (addr / 16) || s.codewords ≤ cwIndex addr then s.answer .cd i 1 0 0
  else if s.lunFailed lun then s.answer .cd i 2 0 0
  else if !s.bufferOk buf s.thresholds then s.refuseBuffer .cd i buf
  else
    let bins := s.binsOf lun b
    let level := s.levelOf (cwIndex addr)
    let offsets := (List.range s.thresholds).map (fun t => (s.baseRef lun level bins.1 bins.2 t % 256).toNat)
    (s.writeBuffer buf offsets 0x36).answer .cd i 0
      (bins.2 + 16 * bins.1 + (if (s.adjustment lun level bins.2).isSome then 128 else 0)) 0

def execReferenceQuery (s : State) : Res := onDesc s .cd 3 (fun d i l => d.referenceQuery i l)

/-- SAMPLE: every codeword of the set is read through the ladder up to the named tier. -/
def Dev.sampleSet (s : Dev) (i : Nat) (l : Line) : Dev :=
  let a := bodyAt l 0 40
  let lun := Pga.dieLun a
  if !s.cdDone then s.answer .cd i 3 0 0
  else if !populated s lun || s.blockGroups ≤ Pga.block a || s.wordLines ≤ Pga.wl a || 4 < bodyAt l 5 8 then s.answer .cd i 1 0 0
  else if s.lunFailed lun then s.answer .cd i 2 0 0
  else s.each (List.range s.codewords) (fun s k => s.oneReq (Pga.set a * 16 + k) (.sample i (bodyAt l 5 8)) 0 0)

/-- SAMPLE of the set at a place through at most a tier: the descriptor at the ring's next index that names them. -/
def execSample (place limit : Nat) (s : State) : Res :=
  actOn s (fun d => (d.entryReady .cd 4).filter (fun e => bodyAt e.2 0 40 = place && bodyAt e.2 5 8 = limit)) (fun d e =>
    (d.takeDesc .cd e.1 e.2).sampleSet e.1 e.2)

end Sys2Proof.Machine
end

