-- ==== Sys2Proof/Machine/Descriptors.lean ====
section
/-! DEFINITION. The descriptors of MP, MS and RC, and DESCRIPTOR_DONE: LOOKUP, VALIDATE_SET, HOLD, RELEASE, WRITE_BACK,
CHECKPOINT, LUN_QUERY, RAW_READ, RETIRE_BLOCK, STRIPE_QUERY, RECLAIM, REFRESH_LUN, MARK_SUSPECT (R191, R192, R223, R283,
R350). -/

namespace Sys2Proof.Machine
open Reg

/-! ### MP (R191) -/

def Dev.mpRuns (s : Dev) : Bool := s.get MP_STATUS.state = 4

/-- The granules a descriptor names, where they lie in a namespace and their count in its range. -/
def Dev.named (s : Dev) (l : Line) (most : Nat) : Option (List Nat) :=
  let ns := bodyAt l 0 5
  let g := bodyAt l 4 40
  let n := bodyAt l 9 16
  match s.mp.ns.find ns with
  | some x => if 1 ≤ n && n ≤ most && 16 * (g + n) ≤ x.size then some ((List.range n).map (fun k => gkey ns (g + k))) else none
  | none => none

/-- A descriptor that needs the entries of granules: done once their pages are in the cache, with status 2 where one is lost (R168,
R191). -/
def Dev.onPages (s : Dev) (i : Nat) (keys : List Nat) (f : Dev → Dev) : Dev :=
  let pages := (keys.map pageOf).dedup
  if pages.any (fun p => s.pageLost p) then s.answer .mp i 2 0 0
  else if pages.all (fun p => s.pageReady p) then f s
  else (s.modDesc .mp i (fun d => { d with needs := pages })).each pages (fun s p => if s.pageReady p then s else s.loadPage p 0 0)

/-- Descriptors that name granules: status 3 and 1, else f on their keys once their pages are there. -/
def Dev.onNamed (s : Dev) (i : Nat) (l : Line) (most : Nat) (f : Dev → List Nat → Dev) : Dev :=
  if !s.mpRuns then s.answer .mp i 3 0 0
  else match s.named l most with
    | none => s.answer .mp i 1 0 0
    | some keys => s.onPages i keys (fun s => f s keys)

/-- LOOKUP: the entries in their R161 layout. -/
def Dev.lookupMap (s : Dev) (i : Nat) (l : Line) : Dev :=
  s.onNamed i l 64 (fun s keys =>
    let buf := bodyAt l 16 64
    if s.bufferOk buf (8 * keys.length) then
      (s.writeBuffer buf (keys.flatMap (fun k => bytesOf (s.ent k).toNat 8)) 0x33).answer .mp i 0 0 0
    else s.refuseBuffer .mp i buf)

def execLookup (s : State) : Res := onDesc s .mp 1 (fun d i l => d.lookupMap i l)

/-- The slot k of the set at a place is named by its map entry. -/
def Dev.slotValid (s : Dev) (place k : Nat) (e : SlotEntry) : Bool :=
  e.kind != 0 && Ent.mapped (s.ent e.key) && Ent.pga (s.ent e.key) = place + k

/-- VALIDATE_SET: the mask of slots that are still valid, the stream and the program sequence. -/
def Dev.validateSet (s : Dev) (i : Nat) (l : Line) : Dev :=
  let a := bodyAt l 4 40
  if !s.mpRuns then s.answer .mp i 3 0 0
  else if Pga.slot a != 0 then s.answer .mp i 1 0 0
  else match s.nand.sets.find a with
    | none => s.answer .mp i 1 0 0
    | some x =>
      s.onPages i ((x.slots.filter (fun e => e.kind != 0)).map (fun e => e.key)) (fun s =>
        let mask := ((x.slots.mapIdx (fun k e => if s.slotValid a k e then 2 ^ k else 0))).sum
        s.answer .mp i 0 (mask + 65536 * x.stream) (x.seq % 2 ^ 32))

def execValidateSet (s : State) : Res := onDesc s .mp 2 (fun d i l => d.validateSet i l)

/-- Set or clear pinned on granules. -/
def Dev.pin (s : Dev) (i : Nat) (l : Line) (b : Bool) : Dev :=
  s.onNamed i l 512 (fun s keys => (s.each keys (fun s k =>
    if Ent.pinned (s.ent k) = b then s else s.putEnt k (Ent.withPinned (s.ent k) b))).answer .mp i 0 0 0)

def execHold (s : State) : Res := onDesc s .mp 3 (fun d i l => d.pin i l true)

def execRelease (s : State) : Res := onDesc s .mp 4 (fun d i l => d.pin i l false)

/-- A descriptor whose pages may have come since it was taken: what it does is done now. -/
def Dev.resumeDesc (s : Dev) (d : Desc) : Dev :=
  if d.result.isSome || d.needs.isEmpty then s
  else match ringOp d.entry with
    | 1 => s.lookupMap d.index d.entry
    | 2 => s.validateSet d.index d.entry
    | 3 => s.pin d.index d.entry true
    | 4 => s.pin d.index d.entry false
    | _ => s

/-- WRITE_BACK: the named dirty pages; done when each has been written once more. -/
def Dev.writeBackDesc (s : Dev) (i : Nat) (l : Line) : Dev :=
  let ns := bodyAt l 0 5
  let first := bodyAt l 4 40
  let n := bodyAt l 9 16
  if !s.mpRuns then s.answer .mp i 3 0 0
  else if !s.mp.ns.has ns || n = 0 || 4096 < n || 2 ^ 27 < first + n then s.answer .mp i 1 0 0
  else
    let inRange (p : Nat) : Bool := ns * 2 ^ 27 + first ≤ p && p < ns * 2 ^ 27 + first + n
    if s.mp.dir.any (fun e => inRange e.1 && e.2.lost) then s.answer .mp i 2 0 0
    else
      let pages := s.mp.dirty.filter inRange
      let wait := pages.map (fun p => (p, ((s.mp.dir.find p).map (fun e => e.pageSeq)).getD 0 + (if s.inFlight p then 2 else 1)))
      (s.modDesc .mp i (fun d => { d with wait := wait })).writeBack pages

def execWriteBack (s : State) : Res := onDesc s .mp 5 (fun d i l => d.writeBackDesc i l)

/-- CHECKPOINT: begins one; done when it is durable. -/
def Dev.ckptDesc (s : Dev) (i : Nat) : Dev :=
  if !s.mpRuns then s.answer .mp i 3 0 0
  else
    let goal := s.get MP_CKPT_SEQ.seq + (if s.mp.ckpt.isSome then 2 else 1)
    (s.modDesc .mp i (fun d => { d with goal := goal })).beginCkpt false

def execCheckpoint (s : State) : Res := onDesc s .mp 6 (fun d i _ => d.ckptDesc i)

/-! ### MS (R223) -/

def Dev.msRuns (s : Dev) : Bool := s.get MS_STATUS.state = 3

/-- The block group an operation works on. -/
def Dev.opBlock (s : Dev) (o : FlashOp) : Nat :=
  match o.kind with
  | .read p _ _ _ => Pga.block p
  | .program q | .verify q => Pga.block (s.placeOf q)
  | .erase b => b
  | .raw a _ => Pga.block (a / 16)
  | .zq => 0

/-- The state code of LUN Query; a LUN in calibration reads idle (log 84). -/
def Dev.lunState (s : Dev) (lun : Nat) : Nat :=
  if s.lunFailed lun then 6
  else match s.activeOp lun with
    | some o => if o.resetting then 5 else (match o.st, o.kind with
      | .waiting _, _ => if (s.suspendedOp lun).isSome then 4 else 0
      | _, .program _ => 2
      | _, .erase _ => 3
      | _, .zq => 0
      | _, _ => 1)
    | none => if (s.suspendedOp lun).isSome then 4 else 0

/-- LUN_QUERY. -/
def Dev.lunQuery (s : Dev) (i : Nat) (l : Line) : Dev :=
  let lun := bodyAt l 0 7 * 32 + bodyAt l 1 5
  if !s.msRuns then s.answer .ms i 3 0 0
  else if !populated s lun then s.answer .ms i 1 0 0
  else
    let ops := s.ms.ops.filter (fun o => o.lun = lun && o.st != .queued)
    let suspends := (ops.map (fun o => if o.kind.isErase then o.suspends else 0)).foldl max 0
    let held := (ops.map (fun o => s.opHolds o)).sum
    let block := ((s.activeOp lun).or (s.suspendedOp lun)).map (fun o => s.opBlock o)
    s.answer .ms i (if s.lunFailed lun then 2 else 0) (pack [(0, 3, s.lunState lun), (3, 3, suspends), (16, 16, held)]) (block.getD 0)

def execLunQuery (s : State) : Res := onDesc s .ms 1 (fun d i l => d.lunQuery i l)

/-- RAW_READ: a read of one codeword with the LUN's references as they are, without decode. wrong has a 1 for every bit that the
cells will read other than they were written. -/
def Dev.rawReadDesc (s : Dev) (i : Nat) (l : Line) (wrong : List Line) : Dev :=
  let addr := bodyAt l 0 44
  let lun := Pga.dieLun (addr / 16)
  let buf := bodyAt l 16 64
  if !s.msRuns then s.answer .ms i 3 0 0
  else if !populated s lun || s.blockGroups ≤ Pga.block (addr / 16) || s.wordLines ≤ Pga.wl (addr / 16) || s.codewords ≤ cwIndex addr then s.answer .ms i 1 0 0
  else if s.lunFailed lun then s.answer .ms i 2 0 0
  else if !s.bufferOk buf 8192 then s.refuseBuffer .ms i buf
  else (s.modDesc .ms i (fun d => { d with wrong := wrong })).queueOp lun (.raw addr i) 0 0

def execRawRead (wrong : List Line) (s : State) : Res := onDesc s .ms 2 (fun d i l => d.rawReadDesc i l wrong)

/-- RC empties a block group that is to be retired: nothing more is programmed into it, and its valid data is moved out. One
without data is retired at once; a member of a victim when the victim is emptied (R272). -/
def Dev.retireSoon (s : Dev) (lun b : Nat) : Dev :=
  let st := (s.entry lun b).state
  if st == .retired then s
  else if st == .victim then s.modEntry lun b (fun e => { e with suspect := true })
  else
    let s := s.unbind lun (some b)
    let left := s.setsIn lun (some b)
    if left.isEmpty then ((s.retireBlock lun b 3).endThinStripe (s.stripeOf lun b)).stir
    else
      let s := s.modEntry lun b (fun e => { e with state := .closed })
      (s.addPass { why := .retire (blockKey lun b), left := left, urgent := false }).stir

/-- RETIRE_BLOCK: done when the block group is retired. -/
def Dev.retireDesc (s : Dev) (i : Nat) (l : Line) : Dev :=
  let a := bodyAt l 0 40
  let lun := Pga.dieLun a
  let st := (s.entry lun (Pga.block a)).state
  if !s.msRuns then s.answer .ms i 3 0 0
  else if Pga.wl a != 0 || Pga.slot a != 0 || !populated s lun || s.blockGroups ≤ Pga.block a || st == .witness || st == .system then
    s.answer .ms i 1 0 0
  else if s.lunFailed lun then s.answer .ms i 2 0 0
  else (s.modDesc .ms i (fun d => { d with goal := blockKey lun (Pga.block a) })).retireSoon lun (Pga.block a)

def execRetireBlock (s : State) : Res := onDesc s .ms 3 (fun d i l => d.retireDesc i l)

/-! ### RC (R283) -/

def Dev.rcRuns (s : Dev) : Bool := s.get RC_STATUS.state = 2

/-- Descriptors that name a stripe: status 3, 1 and 2, else f. -/
def Dev.onStripe (s : Dev) (i : Nat) (l : Line) (f : Dev → Nat → Dev) : Dev :=
  let id := bodyAt l 0 40
  if !s.rcRuns then s.answer .rc i 3 0 0
  else if !s.allStripes.contains id then s.answer .rc i 1 0 0
  else if s.stripeRetired id then s.answer .rc i 2 0 0
  else f s id

def bgCode : BgState → Nat
  | .free => 0 | .erased => 1 | .open_ => 2 | .closed => 3 | .victim => 4 | .retired => 5 | .witness => 6 | .system => 7

/-- The entries of a stripe's present block groups. -/
def Dev.stripeEntries (s : Dev) (id : Nat) : List BlockEntry := (s.presentIn id).map (fun l => s.entry l (Pga.block id))

/-- STRIPE_QUERY. -/
def Dev.stripeQuery (s : Dev) (i : Nat) (l : Line) : Dev :=
  s.onStripe i l (fun s id =>
    let es := s.stripeEntries id
    s.answer .rc i 0 (pack [(0, 16, (es.map (fun e => e.valid)).sum), (16, 8, es.length), (24, 3, ((es.head?).map (fun e => bgCode e.state)).getD 0)])
      (pack [(0, 16, (es.map (fun e => e.erases)).foldl max 0), (16, 16, (es.map (fun e => e.pinned)).sum)]))

def execStripeQuery (s : State) : Res := onDesc s .rc 1 (fun d i l => d.stripeQuery i l)

/-- The data sets of a stripe on flash, ascending. -/
def Dev.setsOfStripe (s : Dev) (id : Nat) : List Nat :=
  Tbl.keys (s.nand.sets.filter (fun e => e.2.kind == .data && Pga.block e.1 = Pga.block id && (s.membersOf id).contains (Pga.dieLun e.1)))

/-- A stripe becomes a victim, and RC has its valid granules to copy (R268, R274, R283). -/
def Dev.makeVictim (s : Dev) (id : Nat) (desc : Option Nat) : Dev :=
  let s := s.each (s.presentIn id) (fun s l => s.modEntry l (Pga.block id) (fun e => { e with state := .victim }))
  let s := s.addPass { why := .reclaim id, left := s.setsOfStripe id, urgent := false, desc := desc }
  s.modRc (fun r => { r with victims := if r.victims.contains id then r.victims else r.victims ++ [id] })

/-- A reclaim of a stripe is under way. -/
def Dev.reclaiming (s : Dev) (id : Nat) : Bool :=
  s.rc.passes.any (fun p => p.why == .reclaim id) || s.rc.units.any (fun u => u.why == .reclaim id)

/-- RECLAIM: done when every granule is recorded, rejected or pinned. A victim whose reclaim has ended with pinned granules
left is copied again (R272). -/
def Dev.reclaimDesc (s : Dev) (i : Nat) (l : Line) : Dev :=
  s.onStripe i l (fun s id =>
    let es := s.stripeEntries id
    if es.any (fun e => e.state == .victim) then
      if s.reclaiming id || es.all (fun e => e.valid = 0) then s.answer .rc i 4 0 0 else s.makeVictim id (some i)
    else if es.all (fun e => e.state == .closed) then s.makeVictim id (some i)
    else s.answer .rc i 1 0 0)

def execReclaim (s : State) : Res := onDesc s .rc 2 (fun d i l => d.reclaimDesc i l)

/-- REFRESH_LUN: a refresh pass over one LUN. -/
def Dev.refreshDesc (s : Dev) (i : Nat) (l : Line) : Dev :=
  let lun := bodyAt l 0 7 * 32 + bodyAt l 1 5
  if !s.rcRuns then s.answer .rc i 3 0 0
  else if !populated s lun || s.lunFailed lun then s.answer .rc i 1 0 0
  else s.addPass { why := .refreshLun lun, left := s.setsIn lun none, urgent := false, desc := some i }

def execRefreshLun (s : State) : Res := onDesc s .rc 3 (fun d i l => d.refreshDesc i l)

/-- MARK_SUSPECT. -/
def Dev.markSuspect (s : Dev) (i : Nat) (l : Line) : Dev :=
  let a := bodyAt l 0 40
  let lun := Pga.dieLun a
  let st := (s.entry lun (Pga.block a)).state
  if !s.rcRuns then s.answer .rc i 3 0 0
  else if Pga.wl a != 0 || Pga.slot a != 0 || !populated s lun || s.blockGroups ≤ Pga.block a then s.answer .rc i 1 0 0
  else if !st.present then s.answer .rc i 2 0 0
  else (s.modEntry lun (Pga.block a) (fun e => { e with suspect := true })).answer .rc i 0 0 0

def execMarkSuspect (s : State) : Res := onDesc s .rc 4 (fun d i l => d.markSuspect i l)

/-! ### DESCRIPTOR_DONE (R350) -/

/-- Descriptors that end when something else has happened. -/
def Dev.lateResult (s : Dev) (d : Desc) : Option (Nat × Dword × Dword) :=
  match d.unit, ringOp d.entry with
  | .mp, 5 =>
    if d.wait.all (fun w => !s.mp.dirty.contains w.1 || w.2 ≤ ((s.mp.dir.find w.1).map (fun e => e.pageSeq)).getD 0) then some (0, 0, 0) else none
  | .mp, 6 => if d.goal ≤ s.get MP_CKPT_SEQ.seq then some (0, 0, 0) else none
  | .ms, 3 => if (s.entry (d.goal / 32768) (d.goal % 32768)).state == .retired then some (0, 0, 0) else none
  | _, _ => none

/-- An entry in progress whose result is known is completed. -/
def Dev.endDesc (s : Dev) (d : Desc) (r : Nat × Dword × Dword) : Dev :=
  ({ s with rings := { s.rings with desc := s.rings.desc.filter (fun x => !(x.unit == d.unit && x.index = d.index)) } }).finishEntry
    d.unit d.index d.entry r.1 r.2.1 r.2.2

/-- The entry at next holds an opcode no row of the unit has, or reads with an error: it is completed with status 1 (R191,
R223, R260, R283, R389). -/
def Dev.rejectEntry (s : Dev) (u : Unit4) : Dev :=
  let i := s.rings.next u
  let l := s.chipData (entryAt u i)
  if !s.mayTake u then s
  else if !s.entryGood u then
    let s := (s.readChip .shared (entryAt u i) u.master 6).2
    ({ s with rings := s.rings.setNext u ((i + 1) % 256) }).finishEntry u i l 1 0 0
  else if ringOwner l = 1 && !knownOp u (ringOp l) then ((s.takeDesc u i l).answer u i 1 0 0).endDesc { unit := u, index := i, entry := l } (1, 0, 0)
  else s

/-- DESCRIPTOR_DONE: unit 0 MP, 1 MS, 2 CD, 3 RC. -/
def execDescriptorDone (unit index : Nat) (s : State) : Res :=
  actOn s (fun d => (unitOf unit).filter (fun _ => d.awake && !d.isDead)) (fun d u =>
    let d := match d.descOf u index with
      | some x => d.resumeDesc x
      | none => d
    match d.descOf u index with
    | some x =>
      match x.result.or (d.lateResult x) with
      | some r => d.endDesc x r
      | none => d
    | none => if index = d.rings.next u then d.rejectEntry u else d)

end Sys2Proof.Machine
end

