-- ==== Sys2Proof/Machine/Reclaim.lean ====
section
/-! DEFINITION. RC's commands: REFRESH, RECLAIM_UNIT_OFFER, RECLAIM_UNIT_DONE, VICTIM_ERASE and FALLBACK_VICTIM (R141, R187,
R236, R248, R268 to R280). -/

namespace Sys2Proof.Machine
open Reg

/-! ### Units out of passes (R268) -/

/-- The granules of a set that are valid and not pinned, as a unit copies them (R192, R269). -/
def Dev.validIn (s : Dev) (place : Nat) : List Copy :=
  match s.nand.sets.find place with
  | none => []
  | some x => ((x.slots.mapIdx (fun k e => (k, e))).filter (fun p => s.slotValid place p.1 p.2 && !Ent.pinned (s.ent p.2.key))).map (fun p =>
      { key := p.2.key, pga := place + p.1, stamp := BitVec.ofNat 16 (Ent.stamp (s.ent p.2.key)), blocks := List.replicate 16 none })

/-- A set that is still on its way to flash. -/
def Dev.coming (s : Dev) (place : Nat) : Bool := s.ms.sets.any (fun x => x.place = place)

/-- Take whole sets of one stripe in the pass's ascending order: a set of another stripe, or one still on its way, is left for a
later unit, and the first set that no longer fits ends the unit. -/
def Dev.takeSets (s : Dev) : List Nat → List Nat × List Copy → List Nat × List Copy
  | [], a => a
  | p :: left, a =>
    let c := s.validIn p
    let other : Bool := match a.2.head? with
      | some x => s.stripeOf (Pga.dieLun x.pga) (Pga.block x.pga) != s.stripeOf (Pga.dieLun p) (Pga.block p)
      | none => false
    if s.coming p || other then s.takeSets left a
    else if 64 < a.2.length + c.length then a
    else s.takeSets left (a.1 ++ [p], a.2 ++ c)

/-- Work that goes on in Sealed state (R280). -/
def UnitWhy.inSealed : UnitWhy → Bool
  | .bankRefresh _ => true
  | .rebuild _ => true
  | _ => false

def Dev.modPass (s : Dev) (id : Nat) (f : Pass → Pass) : Dev :=
  s.modRc (fun r => { r with passes := r.passes.map (fun p => if p.id = id then f p else p) })
def Dev.dropPass (s : Dev) (id : Nat) : Dev := s.modRc (fun r => { r with passes := r.passes.filter (fun p => p.id != id) })

/-! ### The end of a pass -/

/-- The descriptor a pass runs for gets its result (R283). -/
def Dev.answerPass (s : Dev) (p : Pass) (w0 w1 : Nat) : Dev :=
  match p.desc with
  | some i => s.answer .rc i 0 w0 w1
  | none => s

/-- Notice and event at the end of a bank's pass (R277). -/
def Dev.bankEnded (s : Dev) (bank n : Nat) : Dev :=
  ((s.event 0x0a03 Src.rc bank n 0).notice 4 bank n 0).raise (Irq.rc 5)

/-- A Refresh command's pass has ended: its bank's notice, and its completion once the map entries of what it copied are committed
(R141, R507); one that was aborted, or that the Sealed state stopped, ends with that status (R118, R159). -/
def Dev.refreshEnded (s : Dev) (acc : Nat) (p : Pass) : Dev :=
  match s.cmd acc with
  | none => s
  | some c =>
    let s := if bitsOf (Pkt.cdwA c.pkt) 0 2 = 1 then s.bankEnded (bitsOf (Pkt.cdwA c.pkt) 8 8) p.rewritten else s
    if c.waitOn2 = 1 then s.commitWith acc { status := St.aborted } []
    else if s.isSealed then s.fail acc St.capacitySealed
    else if s.covered c then s.succeed acc p.rewritten c.waitOn
    else s.modCmd acc (fun c => { c with done := some {
      status := St.success
      result := BitVec.ofNat 64 p.rewritten
      result2 := BitVec.ofNat 32 c.waitOn } })

/-- A LUN's data has been rebuilt (R275). -/
def Dev.rebuildEnded (s : Dev) (lun : Nat) (p : Pass) : Dev :=
  let s := (s.modRc (fun r => { r with rebuilt := r.rebuilt ++ [lun] })).event 0x0a04 Src.rc lun p.copied 0
  let more := s.rc.passes.any (fun q => match q.why with | .rebuild _ => true | _ => false)
  (s.raise (Irq.rc 4)).flag RC_STATUS.rebuilding more

/-- What the end of a pass brings. -/
def Dev.passEnded (s : Dev) (p : Pass) : Dev :=
  let s := s.dropPass p.id
  match p.why with
  | .reclaim id => s.answerPass p p.copied (((s.stripeEntries id).map (fun e => e.pinned)).sum)
  | .refreshCommand acc => s.refreshEnded acc p
  | .refreshLun _ => s.answerPass p p.rewritten 0
  | .bankRefresh b => s.bankEnded b p.rewritten
  | .rebuild lun => s.rebuildEnded lun p
  | .retire k => (s.retireBlock (k / 32768) (k % 32768) 3).endThinStripe (s.stripeOf (k / 32768) (k % 32768))
  | .row id wl => s.modCd (fun c => { c with noParity := c.noParity.filter (fun r => r != (id, wl)) })

/-- Passes with nothing left and no unit out end. -/
def Dev.endPasses (s : Dev) : Dev :=
  s.each (s.rc.passes.filter (fun p => p.left.isEmpty && !s.rc.units.any (fun u => u.pass = p.id))) (fun s p => s.passEnded p)

/-! ### RECLAIM_UNIT_OFFER, RECLAIM_UNIT_DONE -/

/-- RC makes one unit of a pass, or finds that its next sets hold nothing to copy. -/
def Dev.offerUnit (s : Dev) (p : Pass) : Dev :=
  let gone := p.left.filter (fun a => !s.coming a && (s.nand.sets.find a).isNone)
  let r := s.takeSets (p.left.filter (fun a => !gone.contains a)) ([], [])
  let s := s.modPass p.id (fun p => { p with left := p.left.filter (fun a => !r.1.contains a && !gone.contains a) })
  match r.2 with
  | [] => s.endPasses
  | c :: _ =>
    s.modRc (fun x => { x with
      nextUnit := x.nextUnit + 1
      units := x.units ++ [{ id := x.nextUnit, why := p.why, pass := p.id, stripe := s.stripeOf (Pga.dieLun c.pga) (Pga.block c.pga),
                             copies := r.2, urgent := p.urgent, desc := p.desc }] })

/-- In Sealed state passes of other kinds end, and their units that have not started are offered no longer (R280). -/
def Dev.dropUnsealedWork (s : Dev) : Dev :=
  (s.modRc (fun r => { r with
    units := r.units.filter (fun u => u.started || u.why.inSealed)
    passes := r.passes.map (fun p => if p.why.inSealed then p else { p with left := [] }) })).endPasses

/-- RECLAIM_UNIT_OFFER (R268): Urgent passes first. In Sealed state passes of other kinds end; in Hasp Prepare no unit is
offered (R272, R280). -/
def execReclaimUnitOffer (s : State) : Res :=
  act s (fun d => d.rcRuns && !d.isDead && d.pw.phase == .running) (fun d =>
    let d := if d.isSealed then d.dropUnsealedWork else d
    match (d.rc.passes.find? (fun p => p.urgent && !p.left.isEmpty)).or (d.rc.passes.find? (fun p => !p.left.isEmpty)) with
    | some p => d.offerUnit p
    | none => d.endPasses)

/-- RECLAIM_UNIT_DONE (R268, R269): every granule of a started unit is recorded or rejected. -/
def execReclaimUnitDone (unit : Nat) (s : State) : Res :=
  actOn s (fun d => d.rc.units.find? (fun u => u.id = unit && u.started && u.copies.all (fun c => c.settled) && !d.isDead)) (fun d u =>
    let sets := ((u.copies.map (fun c => Pga.set c.pga)).eraseDups).length
    let d := d.modRc (fun r => { r with units := r.units.filter (fun x => x.id != unit) })
    ((d.modPass u.pass (fun p => { p with
      rewritten := p.rewritten + sets
      copied := p.copied + (u.copies.filter (fun c => c.recorded)).length })).endPasses).stir)

/-! ### VICTIM_ERASE (R187, R262, R270, R273) -/

/-- Copies out of a stripe lie in block stripes that are closed with every parity verified. -/
def Dev.copiesSafe (s : Dev) (id : Nat) : Bool :=
  let from_ (pga : Nat) : Bool := Pga.block pga = Pga.block id && (s.membersOf id).contains (Pga.dieLun pga)
  !s.nand.sets.any (fun e => (s.stripe e.2.stripe).isSome && e.2.slots.any (fun x => x.kind = 2 && from_ x.source))
    && !s.ms.sets.any (fun x => x.slots.any (fun y => y.kind = 2 && from_ y.source))

/-- Nothing that the two newest checkpoints lead to lies in the stripe (R187). -/
def Dev.superseded (s : Dev) (id : Nat) : Bool :=
  let inStripe (a : Nat) : Bool := Pga.block (a / 16) = Pga.block id && (s.membersOf id).contains (Pga.dieLun (a / 16))
  !s.twoRecs.any (fun r => r.replay.any (fun e => e.stripe = id))
    && !(s.twoRecs.flatMap (fun r => s.treePages r) ++ s.livePages).any (fun e => inStripe e.2.addrA || inStripe e.2.addrB)

/-- A codeword of the stripe has an open ladder request (R251, R274). -/
def Dev.ladderIn (s : Dev) (id : Nat) : Bool :=
  s.cd.reqs.any (fun r => r.posted && s.stripeOf (Pga.dieLun (r.addr / 16)) (Pga.block (r.addr / 16)) = id)

/-- A codeword of the stripe is being read, or a unit still copies from it. -/
def Dev.inUse (s : Dev) (id : Nat) : Bool :=
  s.cd.reqs.any (fun r => s.stripeOf (Pga.dieLun (r.addr / 16)) (Pga.block (r.addr / 16)) = id) || s.rc.units.any (fun u => u.stripe = id)

/-- A block group at its next reclaim: retired where it is suspect or at the erase limit, else erased. -/
def Dev.emptyGroup (s : Dev) (lun b : Nat) : Dev :=
  let e := s.entry lun b
  let limit := s.get CD_WEAR_CFG.rated_pe * s.get RC_END_CFG.limit_pct / 100
  if e.suspect then s.retireBlock lun b 3
  else if limit ≤ e.erases then s.retireBlock lun b 4
  else (s.modEntry lun b (fun e => { e with state := .free, stream := 15 })).queueErase lun b

/-- VICTIM_ERASE. -/
def execVictimErase (stripe : Nat) (s : State) : Res :=
  actOn s (fun d => if d.rcRuns && !d.isDead then d.rc.emptied.find? (fun p => p.1 = stripe) else none) (fun d p =>
    let es := d.stripeEntries stripe
    let empty := es.all (fun e => (e.state == .closed || e.state == .victim) && e.valid = 0 && e.pinned = 0)
    let allowed := !d.isSealed || d.rc.passes.any (fun p => p.why.inSealed)
    if empty && allowed && p.2 + 2 ≤ d.get MP_CKPT_SEQ.seq && d.copiesSafe stripe && d.superseded stripe && !d.inUse stripe then
      let d := d.each (d.presentIn stripe) (fun d l => d.emptyGroup l (Pga.block stripe))
      (d.modRc (fun r => { r with
        emptied := r.emptied.filter (fun x => x.1 != stripe)
        victims := r.victims.filter (fun x => x != stripe) })).noteFree
    else d)

/-! ### FALLBACK_VICTIM (R274) -/

/-- A Reclaim descriptor waits in RC's ring. -/
def Dev.reclaimWaits (s : Dev) : Bool :=
  (List.range 256).any (fun i =>
    let l := s.chipData (entryAt .rc i)
    ringOwner l = 1 && ringOp l = 2 && !(s.inProgress .rc).any (fun d => d.index = i))

/-- A candidate: its stripe, its valid slots, erases, largest born and whether it has a suspect member. -/
structure Candidate where
  id : Nat
  valid : Nat
  erases : Nat
  most : Nat
  least : Nat
  born : Nat
  suspect : Bool
deriving DecidableEq, Repr

def Dev.candidateOf (s : Dev) (id : Nat) : Candidate :=
  let es := s.stripeEntries id
  { id := id, valid := (es.map (fun e => e.valid)).sum, erases := (es.map (fun e => e.erases)).sum
    most := (es.map (fun e => e.erases)).foldl max 0, least := (es.map (fun e => e.erases)).foldl min 65535
    born := (es.map (fun e => e.born)).foldl max 0, suspect := es.any (fun e => e.suspect) }

def Dev.closedStripes (s : Dev) : List Nat :=
  s.allStripes.filter (fun id => !s.stripeRetired id && (s.stripeEntries id).all (fun e => e.state == .closed) && !s.ladderIn id)

/-- The better of two candidates: by keys in turn. -/
def better (keys : Candidate → Nat × Nat × Nat) (a b : Candidate) : Candidate :=
  let x := keys a
  let y := keys b
  if x.1 < y.1 || (x.1 = y.1 && (x.2.1 < y.2.1 || (x.2.1 = y.2.1 && x.2.2 ≤ y.2.2))) then a else b
def best (keys : Candidate → Nat × Nat × Nat) : List Candidate → Option Candidate
  | [] => none
  | c :: l => some (l.foldl (better keys) c)

/-- RC's own choice (R274). -/
def Dev.fallbackChoice (s : Dev) : Option Candidate :=
  let cs := s.closedStripes.map (fun i => s.candidateOf i)
  let sus := cs.filter (fun c => c.suspect)
  let fewest (c : Candidate) : Nat × Nat × Nat := (c.valid, c.erases, c.id)
  let spread := (cs.map (fun c => c.most)).foldl max 0 - (cs.map (fun c => c.least)).foldl min 65535
  if !sus.isEmpty then best fewest sus
  else if s.get RC_VICTIM_CFG.spread ≤ spread then best (fun c => (c.born, c.valid, c.id)) cs
  else best fewest cs

/-- FALLBACK_VICTIM. -/
def execFallbackVictim (s : State) : Res :=
  actOn s (fun d => if d.rcRuns && !d.isDead && !d.isSealed && d.qe.hold.isNone && !d.reclaimWaits then d.rc.belowSince else none) (fun d t =>
    if d.expired t (msTicks (10 * d.get RC_VICTIM_CFG.fallback_ms)) then
      let d := d.modRc (fun r => { r with belowSince := some d.now })
      match d.fallbackChoice with
      | some c => (d.makeVictim c.id none).raise (Irq.rc 6)
      | none => d
    else d)

/-! ### REFRESH (R141, R277) -/

/-- The LUNs of a Refresh's scope that have not failed. -/
def Dev.refreshScope (s : Dev) (a : Nat) : List Nat :=
  if bitsOf a 0 2 = 0 then s.pastBudget
  else if bitsOf a 0 2 = 1 then s.goodLuns.filter (fun l => bankOf l = bitsOf a 8 8)
  else s.goodLuns

/-- Its start is its admission (R279). -/
def Dev.beginRefresh (s : Dev) (c : Command) : Dev :=
  if s.spareLeft ≤ 0 then s.sealBy c.acc
  else
    let luns := s.refreshScope (Pkt.cdwA c.pkt)
    let left := luns.flatMap (fun l => s.setsIn l none)
    let s := s.modCmd c.acc (fun c => { c with
      phase := .running
      waitOn := luns.length })
    (s.addPass { why := .refreshCommand c.acc, left := left, urgent := false }).endPasses

def execRefresh (acc : Nat) (s : State) : Res := actOn s (fun d => d.startedOp acc 0x09) (fun d c => d.beginRefresh c)

end Sys2Proof.Machine
end

