-- ==== Sys2Proof/Machine/Checkpoint.lean ====
section
/-! DEFINITION. MP's checkpoints: CHECKPOINT_TRIGGER and CHECKPOINT_DURABLE (R182 to R187, R280, R282, R507). -/

namespace Sys2Proof.Machine
open Reg

/-- A threshold of R182 has been reached since the previous cut. -/
def Dev.ckptDue (s : Dev) : Bool :=
  s.expired s.mp.cutTick (secTicks (s.get MP_CKPT_CFG.interval_s))
    || s.get MP_CKPT_CFG.host_gib * 2 ^ 18 ≤ s.mp.hostBlocks
    || s.get MP_CKPT_CFG.media_gib * 2 ^ 30 ≤ s.mp.mediaBytes

/-- In Hasp Prepare every version is recorded and no row is open: the checkpoint of R186 may begin. -/
def Dev.haspCkptDue (s : Dev) : Bool :=
  match s.pw.hasp with
  | some h => s.pw.phase == .preparing && h.prepareCkpt = 0 && s.mp.ckpt.isNone && s.bm.opens.isEmpty && s.bm.sealeds.isEmpty
      && s.bm.marks.isEmpty && s.ms.openSets.isEmpty && s.rc.units.all (fun u => !u.started)
  | none => false

/-- CHECKPOINT_TRIGGER (R182, R186). -/
def execCheckpointTrigger (s : State) : Res :=
  act s (fun d => d.mpRuns && !d.isDead && (d.ckptDue || d.haspCkptDue)) (fun d =>
    if d.haspCkptDue then
      let n := d.get MP_CKPT_SEQ.seq + 1
      (d.beginCkpt true).modPw (fun w => { w with hasp := w.hasp.map (fun h => { h with prepareCkpt := n }) })
    else d.beginCkpt false)

/-! ### Boot steps (R296) -/

/-- Boot step k ends: its time is recorded and the next step begins. -/
def Dev.endBootStep (s : Dev) (k : Nat) : Dev :=
  if s.pw.phase == .booting && s.pw.bootStep = k then
    let s := (s.put (PW_BOOT_TIME.ms.at (4 * (k - 1))) ((s.now - s.pw.stepStart) / 1000)).raise Irq.bootStep
    s.modPw (fun w => { w with
      bootStep := k + 1
      stepStart := s.now })
  else s

/-- MS enters Running: system work and host work alike may go (R354), and EV may write (R441). -/
def Dev.msRunning (s : Dev) : Dev :=
  if s.get MS_STATUS.state = 3 then s else ((s.put MS_STATUS.state 3).put EV_STATUS.state 1).raise Irq.msRunning

/-- The first checkpoint of a wake is durable: boot step 7 ends, or the format that stands in place of steps 6 to 9
(R190, R295, R298). -/
def Dev.bootCkptDone (s : Dev) : Dev :=
  if s.pw.phase != .booting then s
  else if s.bit PW_STATE.format then
    let s := ((s.put MP_STATUS.state 4).put CD_STATUS.state 4).endBootStep 6
    let s := s.modNand (fun n => { n with formatted := true })
    ((s.modPw (fun w => { w with bootStep := 10 })).msRunning).put RC_STATUS.state 2
  else if s.pw.bootStep = 7 then (s.put MP_STATUS.state 4).endBootStep 7
  else s

/-- A checkpoint is durable (R183): the stripes of its list are held again (R187), and the Sealed notice goes (R280). -/
def Dev.ckptDone (s : Dev) (r : CkptRun) : Dev :=
  let s := s.put MP_CKPT_SEQ.seq r.seq
  let s := s.modMp (fun m => { m with
    ckpt := none
    again := false
    prevCut := r.cutSeq })
  let again := r.replay.map (fun e => e.stripe)
  let sealDone : Bool := match s.rc.sealSeq with | some n => decide (n ≤ r.seq) | none => false
  let s := s.modRc (fun x => { x with
    emptied := x.emptied.map (fun p => if again.contains p.1 then (p.1, r.seq) else p)
    sealSeq := if sealDone then none else x.sealSeq })
  let s := if sealDone then s.notice 6 0 0 0 else s
  (s.raise (Irq.mp 1)).bootCkptDone

/-- A copy of the record with a sequence has verified at a place of a ring. -/
def Dev.copyAt (s : Dev) (seq place : Nat) : Bool := s.nand.recs.any (fun x => x.seq = seq && x.places.contains place)

/-- CHECKPOINT_DURABLE (R183): a copy of the record, at a place of either ring, has verified. A trigger that came meanwhile begins
the next checkpoint (R182). -/
def execCheckpointDurable (seq place : Nat) (s : State) : Res :=
  actOn s (fun d => d.mp.ckpt.filter (fun r => r.seq = seq && r.writing && d.copyAt seq place && !d.isDead)) (fun d r =>
    let again := d.mp.again
    let d := d.ckptDone r
    (if again then d.beginCkpt false else d).stir)

end Sys2Proof.Machine
end

