-- ==== Sys2Proof/Machine/Peer.lean ====
section
/-! DEFINITION. Peer copy: PEER_COPY_OUT, PEER_WRITE_REQUEST, PEER_TRANSFER_READY, PEER_COMPLETION and PEER_WAIT_TIMEOUT (R138
to R140, R338 to R341). -/

namespace Sys2Proof.Machine
open Reg

/-! ### The source -/

/-- The cases of R138 that end a Peer Copy Out with Invalid Field. -/
def Dev.peerInvalid (s : Dev) (c : Command) : Bool :=
  match s.host.domain with
  | none => true
  | some (_, node) => !s.image.bar4 || node = c.targetNode || c.lo % 16 != c.targetSlba % 16

/-- PEER_COPY_OUT. -/
def Dev.beginPeerCopy (s : Dev) (c : Command) : Dev :=
  if s.peerInvalid c then (s.fail c.acc St.invalidField).stir
  else (s.modCmd c.acc (fun c => { c with
    phase := .running
    parts := readParts (Pkt.slba c.pkt) (Pkt.nlb c.pkt) })).serve c.acc

def execPeerCopyOut (acc : Nat) (s : State) : Res := actOn s (fun d => d.startedOp acc 0x08) (fun d c => d.beginPeerCopy c)

/-- A memory write in a BAR4 window that is dropped and counted (R319, R340, R341). -/
def Dev.countUnmapped (s : Dev) (p : Nat) : Dev := s.addSat (hpReg p HP_BAR_DROPS.unmapped) 1

/-- The Peer Copy Out of a port whose outstanding request to a node has this ID. -/
def Dev.requestOwner (s : Dev) (p node req : Nat) : Option Command :=
  s.qe.cmds.find? (fun c => c.port == p && c.op = 0x08 && c.phase == .running && c.targetNode = node && c.peerRequest = some (BitVec.ofNat 16 req))

/-- A Transfer-Ready of the target: its slot gets the granule's data. -/
def Dev.peerReady (s : Dev) (p w : Nat) (pkt : Rec256) : Dev :=
  match s.requestOwner p w (fld pkt 16 16) with
  | some c =>
    match c.peerStep with
    | .waitReady r _ => (s.modCmd c.acc (fun c => { c with peerStep := .granted r (fld pkt 64 20) (fld pkt 96 16) })).peerPush c.acc
    | _ => s.countUnmapped p
  | none => s.countUnmapped p

/-- PEER_TRANSFER_READY (R341): a 32-byte write into notice window w of port p's BAR4. -/
def execPeerTransferReady (p w : Nat) (pkt : Rec256) (s : State) : Res :=
  act s (fun d => d.takesMemory p && d.image.bar4 && w < 512 && ringType pkt = 2) (fun d => d.peerReady p w pkt)

/-- A Peer Copy Out fails with what its target completed so far (R140). -/
def Dev.peerFailed (s : Dev) (c : Command) (status : Nat) : Dev :=
  (s.failWith c.acc { status := St.peerWriteFailed, result := BitVec.ofNat 64 c.peerCount, result2 := BitVec.ofNat 32 status } 0).stir

/-- A completion of the target: the next granule, or the end of the command. -/
def Dev.peerCompleted (s : Dev) (p w : Nat) (pkt : Rec256) : Dev :=
  match s.requestOwner p w (fld pkt 16 16) with
  | some c =>
    if fld pkt 32 16 ≠ 0 then s.peerFailed c (fld pkt 32 16)
    else
      let n := c.peerCount + 1
      let s := s.modCmd c.acc (fun c => { c with
        peerCount := n
        peerStep := .idle })
      if c.parts.length ≤ n then (s.succeed c.acc n 0).stir else s.serve c.acc
  | none => s.countUnmapped p

/-- PEER_COMPLETION (R140, R341). -/
def execPeerCompletion (p w : Nat) (pkt : Rec256) (s : State) : Res :=
  act s (fun d => d.takesMemory p && d.image.bar4 && w < 512 && ringType pkt = 1) (fun d => d.peerCompleted p w pkt)

/-- The tick a Peer Copy Out's wait began. -/
def Command.peerWait (c : Command) : Option Nat :=
  match c.peerStep with
  | .waitReady _ t => some t
  | .waitDone _ t => some t
  | _ => none

/-- PEER_WAIT_TIMEOUT (R140). -/
def execPeerWaitTimeout (acc : Nat) (s : State) : Res :=
  actOn s (fun d => (d.runningCmd acc).filter (fun c => c.op = 0x08)) (fun d c =>
    match c.peerWait with
    | some t => if d.expired t (msTicks (d.get (qeReg c.port QE_DATA_TIMEOUT.timeout_ms))) then d.peerFailed c 0 else d
    | none => d)

/-! ### The target -/

/-- The fields of a peer write request (R339). -/
def peerNode (p : Packet) : Nat := fld p 48 9
def peerDomain (p : Packet) : Nat := fld p 160 64
/-- It breaks a rule of R340: its check, a reserved field, its window. -/
def peerBad (p : Packet) (w : Nat) : Bool :=
  !Pkt.checkOk p || Pkt.opcode p != 1 || Pkt.flags p &&& 0x74 != Pkt.flags p || fld p 57 7 != 0 || fld p 288 192 != 0 || peerNode p != w

/-- The Write a peer write request becomes (R139). -/
def peerWritePkt (p : Packet) : Packet :=
  BitVec.ofNat 512 (pack [(0, 8, 1), (8, 8, Pkt.flags p), (16, 16, fld p 16 16), (32, 16, fld p 32 16), (64, 64, fld p 64 64), (128, 32, fld p 128 32)])

/-- The requests of a source node that wait in a port's peer queue. -/
def Dev.peerHeld (s : Dev) (p node : Nat) : Nat :=
  ((s.cmdsOf p peerQ).filter (fun c => match c.peer with | some x => x.node = node | none => false)).length

/-- A target's answer without a command. -/
def Dev.peerRefuse (s : Dev) (p : Nat) (pkt : Packet) : Dev :=
  s.toRing p peerQ { bits := completionPkt (fld pkt 16 16) 0xffff { status := St.peerNotPermitted }, dest := some (BitVec.ofNat 64 (fld pkt 224 64)) }

/-- A well-formed request: refused, or a push-mode Write on the port's peer queue (R139). -/
def Dev.peerAccept (s : Dev) (p : Nat) (pkt : Packet) : Dev :=
  let mine := match s.host.domain with | some (d, _) => d.toNat = peerDomain pkt | none => false
  let ns := fld pkt 32 16
  let permitted := 1 ≤ ns && ns ≤ 16 && s.host.peerAccept.getLsbD (ns - 1)
  if !mine || !permitted then s.peerRefuse p pkt
  else s.accept p peerQ (peerWritePkt pkt) (some { node := peerNode pkt, request := BitVec.ofNat 16 (fld pkt 16 16), bar4 := BitVec.ofNat 64 (fld pkt 224 64) })

/-- PEER_WRITE_REQUEST (R339, R340). -/
def execPeerWriteRequest (p w off len : Nat) (be : Bool) (pkt : Packet) (s : State) : Res :=
  act s (fun d => d.takesMemory p && d.image.bar4 && w < 512) (fun d =>
    let closed := (d.queue p peerQ).isNone || (d.port p).state == .booting || (d.port p).state == .deadbolt || d.qe.dead
    if d.qe.haspDrop then d.stray p
    else if closed || len != 64 || off % 64 != 0 || !be || peerBad pkt w || 64 ≤ d.peerHeld p w then d.countUnmapped p
    else d.peerAccept p pkt)

end Sys2Proof.Machine
end

