-- ==== Sys2Proof/Machine/Events.lean ====
section
/-! DEFINITION. EV's commands: EVENT_RECORD, EV_FLUSH, HEALTH_SNAPSHOT, LOG_CLEAR, EVENT_LOG_CLEAR and TEMPERATURE_BIN (R152,
R436 to R447). -/

namespace Sys2Proof.Machine
open Reg

/-! ### Records (R437 to R439) -/

/-- The table of R438: whether a code carries this class and comes from this source. -/
def eventListed (code source cls : Nat) : Bool :=
  let info (ok : Bool) : Bool := cls = 0 && ok
  if 0x0101 ≤ code ∧ code ≤ 0x0105 then info (if code = 0x0103 ∨ code = 0x0104 then source = Src.pw else source = Src.wardenFw)
  else if code = 0x0106 then info (2 ≤ source && source ≤ 25)
  else if 0x0200 < code ∧ code ≤ 0x0230 then Kind.known (code - 0x0200) && 1 ≤ cls && cls ≤ 3 && Src.listed source
  else if 0x0301 ≤ code ∧ code ≤ 0x0303 then info (source = Src.port 0 || source = Src.port 1)
  else if code = 0x0401 then cls = 2 && source = Src.qe
  else if code = 0x0402 then info (source = Src.qe)
  else if code = 0x0501 then info (source = Src.dc)
  else if code = 0x0601 then info (source = Src.mp)
  else if code = 0x0701 then info (0x240 ≤ source && source ≤ 0x2bf)
  else if code = 0x0702 then info (source = Src.rc)
  else if 0x0801 ≤ code ∧ code ≤ 0x0803 then info (source = Src.cd)
  else if code = 0x0901 then info (source = Src.keySlots)
  else if 0x0a01 ≤ code ∧ code ≤ 0x0a04 then info (source = Src.rc)
  else if 0x0b00 ≤ code ∧ code ≤ 0x0bff then info (0x381 ≤ source && source ≤ 0x390)
  else if code = 0x0c01 then info (source = Src.imageAuth)
  else if code = 0x0c02 ∨ code = 0x0c04 ∨ code = 0x0c05 then info (source = Src.wardenFw)
  else if code = 0x0c03 then info (source = Src.mt)
  else if code = 0x0d01 then info (source = Src.loader)
  else if code = 0x0d02 then info (source = Src.codeFlash)
  else if code = 0x0e01 then info (source = Src.ev)
  else false

/-- EVENT_RECORD: EV admits the record of an event of R438, or counts it as dropped. -/
def execEventRecord (code source cls : Nat) (p0 p1 p2 : Dword) (s : State) : Res :=
  act s (fun d => d.awake && eventListed code source cls) (fun d =>
    d.record code source cls (0x0b00 ≤ code && code ≤ 0x0bff) p0.toNat p1.toNat p2.toNat)

/-! ### Writes to the log (R441, R445) -/

/-- EV may write to NAND. -/
def Dev.evWorks (s : Dev) : Bool := !s.isDead && s.bit EV_STATUS.located && 3 ≤ s.get MS_STATUS.state && s.get MS_STATUS.state ≤ 5
def Dev.evBusy (s : Dev) (kind : SetKind) : Bool := s.ms.sets.any (fun x => x.kind == kind)

/-- An empty set of EV's. -/
def Dev.evSet (s : Dev) (kind : SetKind) (count : Nat) (snap : Option Health) : WlSet :=
  { seq := 0, kind := kind, stream := 9, place := 0, stripe := 0, slots := [], padded := true, sealedAt := s.now, needed := true
    ckptSeq := s.get MP_CKPT_SEQ.seq, opt := s.opt, count := count, snap := snap
    dropped := s.get EV_DROPPED.dropped }

/-- The half that a clear would begin in is still being erased. -/
def Dev.otherHalfBusy (s : Dev) : Bool :=
  let base := if s.nand.logHalf then 64 else 96
  [0, 1].any (fun r => s.ms.ops.any (fun o => match o.kind with
    | .erase b => o.lun = s.logLun r && base ≤ b && b < base + 32
    | _ => false))

/-- The records that one write takes: up to 128 to a codeword, and none of a later clear's log. -/
def Dev.writeCount (s : Dev) : Nat :=
  let mine := match s.ev.clears with
    | _ :: n :: _ => (s.ev.ring.takeWhile (fun r => r.seq != n.record.seq)).length
    | _ => s.ev.ring.length
  min mine (128 * (s.codewords - 1))

/-- One write of the staging ring to both replicas. -/
def Dev.writeRing (s : Dev) : Dev :=
  (s.placeBoth (s.evSet .log s.writeCount none)).modEv (fun e => { e with lastWrite := s.now })

/-- A write is due (R441); in Prepare once the health snapshot has verified (R443). -/
def Dev.ringDue (s : Dev) : Bool :=
  2048 ≤ s.ev.ring.length
    || (!s.ev.ring.isEmpty && ((s.pw.phase == .preparing && s.ev.snapshotDone) || s.expired s.ev.lastWrite (secTicks (s.get EV_CFG.flush_s))))

/-- EV_FLUSH: the set of a granted clear goes to the other half once that is erased; else the ring is written when it is
due. -/
def execEvFlush (s : State) : Res :=
  act s (fun d => d.evWorks && !d.evBusy .log) (fun d =>
    if !d.ev.clears.isEmpty then
      if d.otherHalfBusy then d
      else (d.modNand (fun n => { n with
        logHalf := !n.logHalf
        logA := 0
        logB := 0 })).writeRing
    else if d.ringDue && !d.logFull then d.writeRing else d)

/-! ### Health (R446 to R448) -/

/-- The lifetime accumulators as of now: the snapshot's and the counters since the wake. -/
def Dev.healthNow (s : Dev) : Health :=
  let c (k : Nat) : Nat := s.get (CD_LADDER_COUNT.count.at (8 * k))
  let h := s.ev.health
  { l0 := h.l0 + c 0, l1 := h.l1 + c 1, l2 := h.l2 + c 2, l3 := h.l3 + c 3, l4 := h.l4 + c 4
    uncorrectable := h.uncorrectable + s.get CD_UNCORRECTABLE.count
    bins := (List.range 34).foldl (fun t i => let v := s.get (EV_TEMP_BIN.seconds.at (4 * i)); if v = 0 then t else t.put i v) [] }

/-- HEALTH_SNAPSHOT: every health_s of OPT, and in Hasp Prepare. -/
def execHealthSnapshot (s : State) : Res :=
  act s (fun d => d.evWorks && !d.evBusy .health) (fun d =>
    if d.optExpired d.ev.lastSnapshot (secTicks (d.get EV_CFG.health_s)) || (d.pw.phase == .preparing && !d.ev.snapshotDone) then
      (d.placeBoth (d.evSet .health 0 (some d.healthNow))).modEv (fun e => { e with lastSnapshot := d.optTicks })
    else d)

/-- The hottest valid reading, in sixteenths of a degree. -/
def Dev.hottest (s : Dev) : Option Int :=
  let l := (List.range 24).filterMap (fun i =>
    if s.bit (TS_TEMP.valid.at (4 * i)) then some (BitVec.ofNat 16 (s.get (TS_TEMP.temp.at (4 * i)))).toInt else none)
  match l with
  | [] => none
  | x :: r => some (r.foldl max x)

/-- The bin of a temperature in sixteenths of a degree (R447). -/
def tempBin (t : Int) : Nat := min 33 ((t + 640) / 80).toNat

/-- TEMPERATURE_BIN: at each whole second of OPT. -/
def execTemperatureBin (s : State) : Res :=
  actOn s (fun d => if d.awake && !d.isDead && d.ev.binSecond < d.opt.toNat / 1000 then d.hottest else none) (fun d t =>
    (d.addSat (EV_TEMP_BIN.seconds.at (4 * tempBin t)) 1).modEv (fun e => { e with binSecond := e.binSecond + 1 }))

/-! ### Clears (R445) -/

/-- A clear is granted: its record takes the next sequence, and the old log with the staging ring is discarded, at once or
when an earlier clear's set has verified. -/
def Dev.grantClear (s : Dev) (origin : Nat) (acc : Option Nat) : Dev :=
  let held := s.evHeld
  let r : Event := { code := 0x0e01, source := Src.ev, cls := 0, requested := false, seq := s.get EV_NEXT_SEQ.seq, pcc := s.pcc, opt := s.opt
                     p0 := BitVec.ofNat 32 held, p1 := BitVec.ofNat 32 (s.get EV_DROPPED.dropped), p2 := BitVec.ofNat 32 origin }
  let first := s.ev.clears.isEmpty
  let s := if first then s.modMs (fun m => { m with sets := m.sets.map (fun x => if x.kind == .log then { x with count := 0 } else x) }) else s
  let s := s.modEv (fun e => { e with
    ring := if first then [r] else e.ring ++ [r]
    clears := e.clears ++ [{ origin := origin, acc := acc, held := held, record := r }]
    fullNoticed := false })
  (s.put EV_DROPPED.dropped 0).add EV_NEXT_SEQ.seq 1

/-- LOG_CLEAR: the recorder grants the oldest clear an origin has asked for. -/
def execLogClear (origin : Nat) (s : State) : Res :=
  actOn s (fun d => if d.isDead then none else d.ev.asked.find? (fun a => a.1 = origin)) (fun d a =>
    (d.modEv (fun e => { e with asked := e.asked.erase a })).grantClear a.1 a.2)

/-- EVENT_LOG_CLEAR: the command asks the recorder for a clear (R152). -/
def execEventLogClear (acc : Nat) (s : State) : Res :=
  actOn s (fun d => d.startedOp acc 0x8b) (fun d c =>
    (d.modCmd acc (fun c => { c with phase := .running })).modEv (fun e => { e with asked := e.asked ++ [(c.port, some acc)] }))

end Sys2Proof.Machine
end

