-- ==== Sys2Proof/Machine/QueueCmds.lean ====
section
/-! DEFINITION. The admin commands that act on queues and features: SET_FEATURE, GET_FEATURE, QUEUE_CREATE, QUEUE_DELETE,
QUEUE_RESTART_RESUME, QUEUE_RESTART_DISCARD and ABORT (R100, R114 to R121, R144 to R147). -/

namespace Sys2Proof.Machine
open Reg

/-! ### Features (R144) -/

/-- Whether a value is legal for a feature of the table; none where the feature does not exist. -/
def featureOk (id v : Nat) : Option Bool :=
  if id = 1 then some (decide (0 < bitsOf v 0 8) && decide (0 < bitsOf v 8 8) && decide (0 < bitsOf v 16 8) && decide (0 < bitsOf v 24 8))
  else if id = 2 then
    let promotion := bitsOf v 0 16
    let hard := bitsOf v 16 16
    some (decide (10 ≤ promotion) && decide (promotion ≤ 10000) && decide (1000 ≤ hard) && decide (hard ≤ 60000) && decide (promotion < hard))
  else if id = 3 then some (decide (1 ≤ v) && decide (v ≤ 60000))
  else if id = 4 then some (decide (v < 256))
  else if id = 5 then some (decide (v < 65536))
  else none

/-- Write a feature's value. -/
def Dev.writeFeature (s : Dev) (p id v : Nat) : Dev :=
  if id = 1 then
    (((s.put (qeReg p QE_ARB_WEIGHT.w0) (bitsOf v 0 8)).put (qeReg p QE_ARB_WEIGHT.w1) (bitsOf v 8 8)).put
      (qeReg p QE_ARB_WEIGHT.w2) (bitsOf v 16 8)).put (qeReg p QE_ARB_WEIGHT.w3) (bitsOf v 24 8)
  else if id = 2 then
    (s.put (qeReg p QE_AGE_CFG.promotion_ms) (bitsOf v 0 16)).put (qeReg p QE_AGE_CFG.hard_age_ms) (bitsOf v 16 16)
  else if id = 3 then s.put (qeReg p QE_DATA_TIMEOUT.timeout_ms) v
  else if id = 4 then s.modPort p (fun pt => { pt with noticeMask := BitVec.ofNat 8 v })
  else s.modHost (fun h => { h with peerAccept := BitVec.ofNat 16 v })

/-- A feature's present value. -/
def Dev.readFeature (s : Dev) (p id : Nat) : Option Nat :=
  if id = 1 then some (bitsOf (s.reg (qeReg p QE_ARB_WEIGHT.w0).addr) 0 32)
  else if id = 2 then some (bitsOf (s.reg (qeReg p QE_AGE_CFG.promotion_ms).addr) 0 32)
  else if id = 3 then some (s.get (qeReg p QE_DATA_TIMEOUT.timeout_ms))
  else if id = 4 then some (s.port p).noticeMask.toNat
  else if id = 5 then some s.host.peerAccept.toNat
  else if id = 6 then some (s.get CD_DRIFT_CFG.retention_h)
  else none

/-- The feature a Set or Get Feature names. -/
def Command.feature (c : Command) : Nat := Pkt.cdwA c.pkt % 256

/-- SET_FEATURE. -/
def execSetFeature (acc : Nat) (s : State) : Res :=
  actOn s (fun d => d.startedOp acc 0x82) (fun d c =>
    let v := Pkt.cdwB c.pkt 36 32
    if c.feature = 6 then d.fail acc St.featureNotChangeable
    else if featureOk c.feature v = some true then (d.writeFeature c.port c.feature v).succeed acc 0 0
    else d.fail acc St.invalidField)

/-- GET_FEATURE. -/
def execGetFeature (acc : Nat) (s : State) : Res :=
  actOn s (fun d => d.startedOp acc 0x83) (fun d c =>
    match d.readFeature c.port c.feature with
    | some v => d.succeed acc v 0
    | none => d.fail acc St.invalidField)

/-! ### Queue Create (R46, R47, R145) -/

/-- The class of a class code. -/
def classOf (n : Nat) : Option QClass :=
  if n = 0 then some .urgent else if n = 1 then some .w0 else if n = 2 then some .w1 else if n = 3 then some .w2
  else if n = 4 then some .w3 else none

/-- The queue a Queue Create describes; none where a field lies outside its range or R47 is broken. -/
def queueOf (p : Packet) : Option Queue :=
  let a := Pkt.cdwA p
  let depth := 16 * 2 ^ bitsOf a 12 4
  let ring := 64 * 2 ^ bitsOf a 16 4
  let count := Pkt.cdwB p 38 8
  if bitsOf a 12 4 ≤ 8 && bitsOf a 16 4 ≤ 9 && depthOk depth ring && Pkt.cdwB p 36 10 ≤ 512 && 1 ≤ count && Pkt.cdwB p 40 10 ≤ 1000 then
    (classOf (bitsOf a 9 3)).map (fun k => {
      depth := depth, ring := ring, base := BitVec.ofNat 64 (Pkt.addr p), cls := k, relaxed := bitsOf a 20 1 = 1
      pcheck := bitsOf a 21 1 = 1, vector := Pkt.cdwB p 36 10, irqCount := count, irqTime := Pkt.cdwB p 40 10 })
  else none

/-- The queue number an admin command names. -/
def Command.named (c : Command) : Nat := Pkt.cdwA c.pkt % 512

/-- QUEUE_CREATE. -/
def execQueueCreate (acc : Nat) (s : State) : Res :=
  actOn s (fun d => d.startedOp acc 0x84) (fun d c =>
    if c.named = 0 || (d.queue c.port c.named).isSome then d.fail acc St.invalidQueue
    else match queueOf c.pkt with
      | none => d.fail acc St.invalidField
      | some q => (d.modQe (fun e => { e with queues := e.queues.put (qkey c.port c.named) q })).succeed acc 0 0)

/-! ### Queue Delete (R120, R121, R146) -/

/-- A Refresh that ends early offers no more units: it is over at the next unit boundary (R141). -/
def Dev.stopRefresh (s : Dev) (acc : Nat) : Dev :=
  (s.modRc (fun r => { r with
    passes := r.passes.map (fun x => if x.why == .refreshCommand acc then { x with left := [] } else x)
    units := r.units.filter (fun u => u.started || u.why != .refreshCommand acc) })).modCmd acc (fun c => { c with waitOn2 := 1 })

/-- End a held or started command with a status that freezes nothing, with the effects of R118. -/
def Dev.endCmd (s : Dev) (acc : Nat) (status : BitVec 16) : Dev :=
  match s.cmd acc with
  | some c =>
    if c.committed then s
    else
      let s := if c.op = 0x09 then s.stopRefresh acc else s
      ((((s.endGrants acc).releaseParts c).modCmd acc (fun c => { c with parts := [], fetch := none })).commitWith acc { status := status } []).zeroDeficits
  | none => s

/-- The queue that a Queue Delete or Queue Restart may act on: not queue 0, and neither absent nor being deleted. -/
def Dev.targetQueue (s : Dev) (c : Command) : Option Queue :=
  if c.named = 0 then none else (s.queue c.port c.named).filter (fun u => u.state != .deleting)

/-- QUEUE_DELETE: the queue goes when the last completion it owes is posted. -/
def execQueueDelete (acc : Nat) (s : State) : Res :=
  actOn s (fun d => d.startedOp acc 0x85) (fun d c =>
    match d.targetQueue c with
    | none => d.fail acc St.invalidQueue
    | some _ =>
      let d := d.modCmd acc (fun c => { c with phase := .running })
      let d := d.modQueue c.port c.named (fun u => { u with
        state := .deleting
        deleter := some acc })
      let d := d.each ((d.cmdsOf c.port c.named).map (fun x => x.acc)) (fun d a => d.endCmd a St.queueDeleted)
      (d.settleDelete c.port c.named).zeroDeficits.stir)

/-! ### Queue Restart (R110, R114, R115, R146) -/

/-- The first failing check of a Queue Restart. -/
def Dev.restartStatus (s : Dev) (c : Command) : Option (BitVec 16) :=
  match s.targetQueue c with
  | none => some St.invalidQueue
  | some u =>
    if u.state != .frozen then some St.queueNotFrozen
    else if u.newestErr != some (Pkt.cdwB c.pkt 36 32) then some St.restartMismatch
    else none

/-- A held command joins the cross-queue order as if accepted now, after all that has committed (R110), and its age counts from
now (R95). -/
def Dev.reorder (s : Dev) (acc : Nat) : Dev :=
  (s.modCmd acc (fun c => { c with
    order := s.qe.nextOrder
    overtaken := []
    origin := s.now })).modQe (fun e => { e with nextOrder := e.nextOrder + 1 })

/-- The commands that a Queue Restart acts on: those its queue's FIFO held as it started (R115). -/
def Dev.restarted (s : Dev) (c : Command) : List Nat :=
  ((s.fifo c.port c.named).filter (fun x => x.acc < c.seen)).map (fun x => x.acc)

/-- QUEUE_RESTART_RESUME. -/
def execQueueRestartResume (acc : Nat) (s : State) : Res :=
  actOn s (fun d => (d.startedOp acc 0x86).filter (fun c => !(Pkt.cdwA c.pkt).testBit 16)) (fun d c =>
    match d.restartStatus c with
    | some st => d.fail acc st
    | none =>
      let held := d.restarted c
      (((d.unfreeze c.port c.named).each held (fun d a => d.reorder a)).succeed acc held.length 0).stir)

/-- Held commands end with Discarded, in FIFO order; once their completions are posted the queue becomes active, and the
restart's own goes after them (R115). -/
def Dev.discardHeld (s : Dev) (c : Command) : Dev :=
  let held := s.restarted c
  let s := s.each held (fun s a => s.endCmd a St.discarded)
  let s := s.modCmd c.acc (fun c => { c with discards := some held })
  (s.commitWith c.acc { status := St.success, result := BitVec.ofNat 64 held.length } held).settleRestarts c.port

/-- QUEUE_RESTART_DISCARD. -/
def execQueueRestartDiscard (acc : Nat) (s : State) : Res :=
  actOn s (fun d => (d.startedOp acc 0x86).filter (fun c => (Pkt.cdwA c.pkt).testBit 16)) (fun d c =>
    match d.restartStatus c with
    | some st => d.fail acc st
    | none => (d.discardHeld c).stir)

/-! ### Abort (R116 to R118, R147) -/

/-- The outstanding command of a queue that holds a tag. -/
def Dev.abortTarget (s : Dev) (p q tag : Nat) : Option Command := (s.cmdsOf p q).find? (fun c => Pkt.tag c.pkt = tag)
/-- Its outcome is fixed: it has passed its commit point, or is a Refresh that an Abort has ended already (R117, R141). -/
def Command.settled (c : Command) : Bool := c.committed || (c.op = 0x09 && c.waitOn2 = 1)

/-- ABORT. Its completion goes after its target's; a Refresh at work ends when its units out are done (R141). -/
def execAbort (acc : Nat) (s : State) : Res :=
  actOn s (fun d => d.startedOp acc 0x87) (fun d c =>
    match d.abortTarget c.port c.named (Pkt.cdwA c.pkt / 65536) with
    | none => d.fail acc St.alreadyCompleted
    | some t =>
      if t.settled then (d.commitWith acc { status := St.alreadyCompleted } [t.acc]).stir else
      let held := t.phase == .held
      let d := if t.op = 0x09 && t.phase == .running && t.done.isNone then (d.stopRefresh t.acc).endPasses else d.endCmd t.acc St.aborted
      (d.commitWith acc { status := St.success, result := if held then 1 else 0 } [t.acc]).stir)

end Sys2Proof.Machine
end

