-- ==== Sys2Proof/Machine/AdminData.lean ====
section
/-! DEFINITION. The admin commands that move data: IDENTIFY, GET_LOG and FIRMWARE_DOWNLOAD_PIECE (R142, R143, R148, R448). A
page is a number whose bytes count from its least significant end, and a length. -/

namespace Sys2Proof.Machine
open Reg

/-! ### Snapshots -/

/-- The words of bytes off to off + len - 1 of a page; words of zeros are not listed. -/
def pageWords (page off len : Nat) : Tbl Dword :=
  (List.range ((len + 3) / 4)).filterMap (fun i =>
    let w := BitVec.ofNat 32 (bitsOf page (8 * (off + 4 * i)) 32)
    if w = 0 then none else some (i, w))

/-- A command begins to write len bytes of a page, from byte off, to host memory; result is its completion's. -/
def Dev.beginOut (s : Dev) (c : Command) (page off len result : Nat) : Dev :=
  (s.modCmd c.acc (fun c => { c with
    phase := .running
    fetch := some { fetchOf c.pkt len with buf := pageWords page off len }
    waitOn := result })).writeData c.acc

/-! ### Firmware slots (R143, R378) -/

/-- The Warden and Bolt slots that run. -/
def Dev.wardenSlot (s : Dev) : Nat := s.get WD_STATUS.slot

/-- A slot's revision as a page shows it: zeros where it is empty. -/
def Dev.slotRev (s : Dev) (k : Nat) : Nat := if slotState s.slots k = 1 then slotRevision s.slots k else 0
def Dev.slotKey (s : Dev) (k : Nat) : Nat := if slotState s.slots k = 1 then slotSigner s.slots k else 0xff

def Dev.slotsPage (s : Dev) : Nat :=
  pack ((List.range 4).map (fun k => (64 * k, 64, s.slotRev k)) ++ (List.range 4).map (fun k => (256 + 8 * k, 8, s.slotKey k))
    ++ [(288, 1, s.wardenSlot), (289, 1, s.boltSlot), (290, 1, if slotWardenNext s.slots ≠ s.wardenSlot then 1 else 0)])

/-! ### Namespaces (R142, R153) -/

/-- Granules that namespaces may hold in total: at most nine tenths of the raw bytes, R4's 3.6 PiB of 4 PiB (log 24). -/
def Dev.userGranules (s : Dev) : Nat := min (Config.userGranules s.rawBytes) (s.rawBytes * 9 / 10 / 65536)
/-- 4 KiB blocks that namespaces may hold in total, and those not allocated. -/
def Dev.userBlocks (s : Dev) : Nat := 16 * s.userGranules
def Dev.freeBlocks (s : Dev) : Nat := s.userBlocks - (s.mp.ns.vals.map (fun n => n.size)).sum

/-- The granules of a namespace of which the map or the buffer knows anything. -/
def Dev.knownGranules (s : Dev) (ns : Nat) : List Nat :=
  let flash := s.nand.pages.flatMap (fun p => p.entries.keys)
  ((s.mp.map.keys ++ flash ++ s.bm.opens.map (fun v => v.key) ++ s.bm.sealeds.map (fun v => v.key)).filter (fun k => gkeyNs k = ns)).dedup

/-- A granule's newest state is data, not a trim or zero mark. -/
def Dev.holdsData (s : Dev) (key : Nat) : Bool :=
  if (s.openOf key).isSome then true
  else match s.bm.marks.find key with
    | some _ => false
    | none => (s.sealedOf key).isSome || (!Ent.trimmed (s.ent key) && !Ent.zeroFilled (s.ent key))

def Dev.mappedBlocks (s : Dev) (ns : Nat) : Nat := 16 * ((s.knownGranules ns).filter (fun k => s.holdsData k)).length

def Dev.nsPage (s : Dev) (ns : Nat) (n : Namespace) : Nat :=
  pack [(0, 64, n.size), (64, 64, s.mappedBlocks ns), (128, 32, 4096), (160, 16, 16), (176, 1, n.keySource),
    (192, 32, n.keyChanges), (224, 48, n.keyOpt.toNat)]

def Dev.nsList (s : Dev) : Nat := pack (s.mp.ns.keys.map (fun n => (n - 1, 1, 1)))

/-! ### The device structure (R142) -/

/-- Text of n characters padded with spaces. -/
def padText (t : String) (n : Nat) : Nat := ascii (t ++ String.ofList (List.replicate (n - t.length) ' '))

def Dev.devicePage (s : Dev) : Nat :=
  let dom := s.host.domain
  pack [(0, 32, 0x10000), (32, 64, padText "FZ4096" 8), (96, 128, Config.serial.toNat), (224, 64, Config.deviceId.toNat),
    (288, 64, s.slotRev s.wardenSlot), (352, 64, s.slotRev (2 + s.boltSlot)), (416, 1, s.boltSlot), (417, 1, s.wardenSlot),
    (424, 2, s.ports), (432, 8, s.bitsPerCell), (440, 8, s.width - 1), (448, 16, 128), (464, 16, s.lunNumbers.length),
    (480, 32, s.goodLuns.length), (512, 64, s.rawBytes), (576, 64, s.userBlocks), (640, 64, s.freeBlocks), (704, 8, 16),
    (712, 8, s.mp.ns.length), (720, 16, s.get RC_LUN_CFG.margin), (736, 32, s.bm.gib * 1024), (768, 32, s.get DC_TOPOLOGY.size_gib),
    (800, 64, (dom.map (fun d => d.1.toNat)).getD 0), (864, 16, (dom.map (fun d => d.2)).getD 0xffff),
    (880, 1, if s.isSealed then 1 else 0), (881, 1, s.get CD_STATUS.refresh_due), (888, 8, s.get PW_BOOT_CAUSE.cause),
    (896, 32, s.get CD_DRIFT_CFG.retention_h), (928, 48, s.opt.toNat), (976, 32, s.pcc), (1024, 64, s.host.stopWall.getD 0),
    (1088, 64, s.wallNow.getD 0)]

/-- The structure that an Identify selects. -/
def Dev.identifyPage (s : Dev) (c : Command) : Nat :=
  let sel := Pkt.cdwA c.pkt % 256
  if sel = 0 then s.devicePage
  else if sel = 1 then (match s.mp.ns.find (Pkt.nsid c.pkt) with | some n => s.nsPage (Pkt.nsid c.pkt) n | none => 0)
  else s.nsList

/-- IDENTIFY. -/
def execIdentify (acc : Nat) (s : State) : Res :=
  actOn s (fun d => d.startedOp acc 0x80) (fun d c => d.beginOut c (d.identifyPage c) 0 4096 0)

/-! ### Log pages (R143, R444, R448) -/

/-- Data ages of LUNs in whole hours, ascending. -/
def Dev.ages (s : Dev) (luns : List Nat) : List Nat := sortNat (luns.map (fun l => s.dataAge l / 16))
def ageMedian (l : List Nat) : Nat := l.getD ((l.length - 1) / 2) 0

/-- The Error Log page of a port. -/
def Dev.errorPage (s : Dev) (p : Nat) : Nat :=
  pack ((s.port p).errLog.mapIdx (fun i e => (512 * i, 512, errEntryBytes e)))

/-- floor(1000 × mean erases over non-retired block groups ÷ rated_pe), at most 1000. -/
def Dev.endurance (s : Dev) : Nat :=
  let l := s.goodLuns.flatMap (fun lun => ((List.range s.blockGroups).map (fun b => s.entry lun b)).filter (fun e => e.state != .retired))
  min 1000 (1000 * (l.map (fun e => e.erases)).sum / max (l.length * s.get CD_WEAR_CFG.rated_pe) 1)

def Dev.healthPage (s : Dev) : Nat :=
  let h := s.healthNow
  let a := s.ages s.goodLuns
  pack ([(0, 32, 0x10000), (32, 64, s.spareLeft.toNat), (96, 64, s.get RC_SPARE_FORMAT.spare), (160, 16, s.endurance),
    (176, 16, s.get RC_LUN_CFG.failed), (192, 64, h.l0), (256, 64, h.l1), (320, 64, h.l2), (384, 64, h.l3), (448, 64, h.l4),
    (512, 64, h.uncorrectable), (576, 32, a.headD 0), (608, 32, ageMedian a), (640, 32, a.getLastD 0), (672, 16, s.pastBudget.length),
    (688, 1, if s.isSealed then 1 else 0)]
    ++ (List.range 34).map (fun i => (768 + 32 * i, 32, s.get (EV_TEMP_BIN.seconds.at (4 * i))))
    ++ [(1856, 48, s.opt.toNat), (1920, 32, s.pcc), (1952, 32, s.get EV_DROPPED.dropped)])

/-- Every record held, in sequence order: NAND and ring (R444). -/
def Dev.heldRecords (s : Dev) : List Event := if s.ev.clears.isEmpty then s.nand.log ++ s.ev.ring else s.newRecords

def Dev.eventPage (s : Dev) : Nat :=
  let l := s.heldRecords
  pack ([(0, 32, l.length), (32, 32, s.get EV_DROPPED.dropped), (64, 32, (l.head?.map (fun e => e.seq)).getD 0)]
    ++ l.mapIdx (fun i e => (256 + 256 * i, 256, eventBytes e)))

def Dev.bankPage (s : Dev) : Nat :=
  pack ((List.range 256).flatMap (fun b =>
    let luns := s.slotLuns.filter (fun l => bankOf l = b)
    let a := s.ages (luns.filter (fun l => !s.lunFailed l))
    [(128 * b, 32, a.headD 0), (128 * b + 32, 32, ageMedian a), (128 * b + 64, 32, a.getLastD 0),
     (128 * b + 96, 32, (luns.map (fun l => s.lunSpare l)).sum)]))

def Dev.lunPage (s : Dev) : Nat :=
  pack ((List.range 4096).map (fun l => (32 * l, 32, pack [(0, 16, s.lunSpare l), (30, 1, if s.rc.rebuilt.contains l then 1 else 0),
    (31, 1, if s.lunFailed l then 1 else 0)])))

/-- A page's content and length; none for a page that does not exist. -/
def Dev.logPage (s : Dev) (p id : Nat) : Option (Nat × Nat) :=
  if id = 1 then some (s.errorPage p, 16384)
  else if id = 2 then some (s.healthPage, 256)
  else if id = 3 then some (s.eventPage, 32 + 32 * s.heldRecords.length)
  else if id = 4 then some (s.slotsPage, 64)
  else if id = 5 then some (s.bankPage, 4096)
  else if id = 6 then some (s.lunPage, 16384)
  else none

/-- GET_LOG: the page is a snapshot taken now. -/
def execGetLog (acc : Nat) (s : State) : Res :=
  actOn s (fun d => d.startedOp acc 0x81) (fun d c =>
    let off := Pkt.cdwB c.pkt 36 64
    let len := Pkt.cdwB c.pkt 44 32
    match d.logPage c.port (Pkt.cdwA c.pkt % 256) with
    | none => d.fail acc St.invalidField
    | some (page, total) =>
      if off % 4 ≠ 0 || len % 4 ≠ 0 || len < 4 || 4194304 < len || total < off + len then d.fail acc St.invalidField
      else d.beginOut c page off len total)

/-! ### Firmware Download pieces (R148) -/

/-- FIRMWARE_DOWNLOAD_PIECE: its data is read from host memory as a pull Write's is (R71). -/
def execFirmwareDownloadPiece (acc : Nat) (s : State) : Res :=
  actOn s (fun d => (d.startedOp acc 0x88).filter (fun c => Pkt.cdwA c.pkt % 2 = 0)) (fun d _ =>
    d.modCmd acc (fun c => { c with
      phase := .running
      fetch := some (fetchOf c.pkt (Pkt.nlb c.pkt * 4096)) }))

/-- 4 KiB block i of what a piece has read. -/
def pieceBlock (f : Fetch) (i : Nat) : Block :=
  BitVec.ofNat 32768 (pack ((List.range 1024).map (fun k => (32 * k, 32, ((f.buf.find (1024 * i + k)).getD 0).toNat))))

/-- The commit point of an Identify, a Get Log or a piece: everything has been written, or has arrived in the download
buffer, over whatever it overlaps there (R148). -/
def Dev.commitOut (s : Dev) (c : Command) : Dev :=
  match c.fetch with
  | some f => if f.issued = f.need then s.succeed c.acc c.waitOn 0 else s
  | none => s

def Dev.commitPiece (s : Dev) (c : Command) : Dev :=
  match c.fetch with
  | none => s
  | some f =>
    if f.issued < f.need || s.qe.reqs.any (fun r => r.acc = c.acc) || s.qe.reissue.any (fun r => r.acc = c.acc) then s
    else
      let first := Pkt.cdwB c.pkt 36 32 / 4096
      let put (t : Tbl Block) : Tbl Block := (List.range (Pkt.nlb c.pkt)).foldl (fun t i => t.put (first + i) (pieceBlock f i)) t
      let s := s.modHost (fun h => { h with download := put h.download })
      s.succeed c.acc 0 0

end Sys2Proof.Machine
end

