-- ==== Sys2Proof/Machine/Trust.lean ====
section
/-! DEFINITION. The key record (R454, R455), signatures (R450, R451) and firmware images (R360, R361, R369, R370). A string
of bytes is a list, lowest address first, or a function from offsets; keys, digests and signatures are the bytes they are
stored as. -/

namespace Sys2Proof.Machine
open Reg

/-- SHA-384 of a byte string. -/
def sha (l : List Nat) : BitVec 384 := Config.sha384 (l.map (fun b => BitVec.ofNat 8 b))

/-! ### The key record (R454) -/

/-- An operator slot. -/
structure OpKey where
  st : Nat := 0
  key : BitVec 768 := 0
deriving DecidableEq, Repr

/-- A namespace's key entry. -/
structure NsKey where
  st : Nat := 0
  changes : Nat := 0
  opt : BitVec 48 := 0
  wrapped : BitVec 576 := 0
deriving DecidableEq, Repr

/-- The key record's content. -/
structure KeyRec where
  seq : Nat := 0
  ops : List OpKey := []
  mnt : OpKey := {}
  ns : List NsKey := []
deriving DecidableEq, Repr

/-- The record's bytes 0 to 2303. -/
def KeyRec.bytes (r : KeyRec) : Nat :=
  let body := pack ([(0, 32, ascii "ZKEY"), (32, 64, r.seq)]
    ++ (r.ops.mapIdx (fun k o => [(8 * (16 + 112 * k), 8, o.st), (8 * (32 + 112 * k), 768, o.key.toNat)])).flatten
    ++ [(3712, 8, r.mnt.st), (3840, 768, r.mnt.key.toNat)]
    ++ (r.ns.mapIdx (fun n e => [(8 * (576 + 96 * n), 8, e.st), (8 * (584 + 96 * n), 32, e.changes), (8 * (588 + 96 * n), 48, e.opt.toNat),
        (8 * (600 + 96 * n), 576, e.wrapped.toNat)])).flatten)
  body + (crc32c (bytesOf body 2300)) <<< 18400

/-- A record out of its bytes; none where magic or crc is wrong. -/
def keyRecOf (v : Nat) : Option KeyRec :=
  if bitsOf v 0 32 = ascii "ZKEY" && bitsOf v 18400 32 = crc32c (bytesOf v 2300) then
    some { seq := bitsOf v 32 64
           ops := (List.range 4).map (fun k => { st := bitsOf v (8 * (16 + 112 * k)) 8, key := BitVec.ofNat 768 (bitsOf v (8 * (32 + 112 * k)) 768) })
           mnt := { st := bitsOf v 3712 8, key := BitVec.ofNat 768 (bitsOf v 3840 768) }
           ns := (List.range 16).map (fun n => {
             st := bitsOf v (8 * (576 + 96 * n)) 8, changes := bitsOf v (8 * (584 + 96 * n)) 32,
             opt := BitVec.ofNat 48 (bitsOf v (8 * (588 + 96 * n)) 48), wrapped := BitVec.ofNat 576 (bitsOf v (8 * (600 + 96 * n)) 576) }) }
  else none

/-- Lines 0 to 8 of a logical sector as one number. -/
def Dev.keyBytes (s : Dev) (l : Nat) : Nat := pack ((List.range 9).map (fun i => (2048 * i, 2048, (s.logicalLine l i).toNat)))
def Dev.keyCopy (s : Dev) (l : Nat) : Option KeyRec := if (s.cf.map.find l).isSome then keyRecOf (s.keyBytes l) else none

/-- A record with every slot empty. -/
def noKeys : KeyRec := { ops := List.replicate 4 {}, ns := List.replicate 16 {} }

/-- The record in force: the valid copy with the higher sequence. -/
def Dev.keyRec (s : Dev) : KeyRec :=
  match s.keyCopy 322, s.keyCopy 323 with
  | some a, some b => if a.seq < b.seq then b else a
  | some a, none => a
  | none, some b => b
  | none, none => noKeys

/-- Erase a physical sector that nothing maps (R364, R373). -/
def Dev.wipeSector (s : Dev) (p : Nat) : Dev :=
  if s.isMapped p || 20000 ≤ (s.sector p).erases then s
  else
    let n := s.nextErases p
    (s.putSector p { sealed := true, erases := n }).noteErase p n

/-- One copy of the key record, and the erase of the sector that held it before (R455). -/
def Dev.writeKeyCopy (s : Dev) (l : Nat) (r : KeyRec) : Dev :=
  let old := s.cf.map.find l
  let v := r.bytes
  let s := s.replaceSector l ((List.range 9).map (fun i => (i, BitVec.ofNat 2048 (bitsOf v (2048 * i) 2048))))
  match old with
  | some p => s.wipeSector p
  | none => s

/-- Change the key record (R455). -/
def Dev.writeKeys (s : Dev) (r : KeyRec) : Dev := (s.writeKeyCopy 322 r).writeKeyCopy 323 r
/-- The same with the next sequence. -/
def Dev.changeKeys (s : Dev) (f : KeyRec → KeyRec) : Dev := s.writeKeys { f s.keyRec with seq := s.keyRec.seq + 1 }

/-! ### Signatures (R450, R451) -/

/-- A signature block well formed in itself. -/
def sigFormed (b : Nat) : Bool :=
  bitsOf b 0 32 = ascii "ZSGN" && bitsOf b 32 8 ≤ 4 && bitsOf b 40 8 = 1 && bitsOf b 48 80 = 0 && bitsOf b 1664 384 = 0
def sigSigner (b : Nat) : Nat := bitsOf b 32 8
def sigKey (b : Nat) : BitVec 768 := BitVec.ofNat 768 (bitsOf b 128 768)
def sigValue (b : Nat) : BitVec 768 := BitVec.ofNat 768 (bitsOf b 896 768)

/-- Whether a key may sign for a signer: the fused vendor hash, or the operator key enrolled in its slot. -/
def authorised (r : KeyRec) (signer : Nat) (key : BitVec 768) : Bool :=
  if signer = 0 then sha (bytesOf key.toNat 96) == Config.vendorKeyHash
  else if signer ≤ 4 then (match r.ops[signer - 1]? with | some o => o.st = 1 && o.key == key | none => false)
  else false

/-- The block signs the bytes before it, and its signer is authorised. -/
def sigAuthentic (r : KeyRec) (b : Nat) (before : List Nat) : Bool :=
  authorised r (sigSigner b) (sigKey b) && Config.ecdsaVerify (sigKey b) (sha (before ++ bytesOf b 112)) (sigValue b)

/-! ### Firmware images (R360, R370) -/

/-- A load table entry: source offset, length, destination. -/
structure Load where
  src : Nat
  len : Nat
  dest : Nat
deriving DecidableEq, Repr

/-- What an image's header gives. -/
structure ImageInfo where
  revision : Nat
  length : Nat
  sigOffset : Nat
  loads : List Load
  signature : Nat
deriving DecidableEq, Repr

/-- n bytes from offset o as a number. -/
def numAt (at_ : Nat → Nat) (o n : Nat) : Nat := ofBytes ((List.range n).map (fun i => at_ (o + i)))

/-- Where a load may go: for a Bolt image the shared scratchpad below 0x0001_00FE_C000 or a Bolt scratchpad, for a Warden
image the Warden scratchpad. -/
def loadOk (kind : Nat) (l : Load) : Bool :=
  let last := l.dest + l.len
  l.len % 64 = 0 &&
    (if kind = 1 then (decide (0x000100000000 ≤ l.dest) && decide (last ≤ 0x000100fec000))
        || (decide (0x000101000000 ≤ l.dest) && decide (last ≤ 0x000101400000))
     else decide (0x000101800000 ≤ l.dest) && decide (last ≤ 0x000101880000))

/-- An image whose header and signature block are well formed. -/
def imageOf (kind : Nat) (at_ : Nat → Nat) : Option ImageInfo :=
  let length := numAt at_ 16 4
  let sig := numAt at_ 24 4
  let n := numAt at_ 28 2
  let loads := (List.range n).map (fun k => (⟨numAt at_ (32 + 16 * k) 4, numAt at_ (36 + 16 * k) 4, numAt at_ (40 + 16 * k) 8⟩ : Load))
  let block := numAt at_ sig 256
  if numAt at_ 0 4 = ascii "ZIMG" && at_ 4 = kind && at_ 5 = 1 && numAt at_ 6 2 = 0 && numAt at_ 30 2 = 0 && length = sig + 256
      && length ≤ 8388608 && sig % 256 = 0 && sig % 65536 ≠ 65280 && n ≤ 64 && 32 + 16 * n ≤ sig
      && loads.all (fun l => loadOk kind l && decide (l.src + l.len ≤ length)) && sigFormed block then
    some { revision := numAt at_ 8 8, length := length, sigOffset := sig, loads := loads, signature := block }
  else none

/-- The bytes of an image that its digest covers, before the signature block's: every one but the seal lines (R450). -/
def imageBody (at_ : Nat → Nat) (sig : Nat) : List Nat := ((List.range sig).filter (fun i => i % 65536 < 65280)).map at_

/-- An image is authentic (R451). -/
def imageAuthentic (r : KeyRec) (kind : Nat) (at_ : Nat → Nat) (i : ImageInfo) : Bool :=
  (kind = 1 || sigSigner i.signature = 0) && sigAuthentic r i.signature (imageBody at_ i.sigOffset)

/-! ### Slots (R369, R382) -/

/-- A slot's number in the slot record, its first logical sector, and how many it has: kind 0 Warden, 1 Bolt. -/
def slotNo (kind slot : Nat) : Nat := 2 * kind + slot
def slotBase (kind slot : Nat) : Nat := if kind = 0 then 32 * slot else 64 + 128 * slot
def slotSize (kind : Nat) : Nat := if kind = 0 then 32 else 128

/-- A byte of the window. -/
def Dev.windowByte (s : Dev) (o : Nat) : Nat := fld (s.logicalLine (o / 65536) (o % 65536 / 256)) (8 * (o % 256)) 8
/-- A byte of a slot. -/
def Dev.slotByte (s : Dev) (kind slot : Nat) (o : Nat) : Nat := s.windowByte (slotBase kind slot * 65536 + o)

/-- The image in a slot; none where R382 treats it as missing. -/
def Dev.slotImage (s : Dev) (kind slot : Nat) : Option ImageInfo :=
  if (s.cf.map.find (slotBase kind slot)).isNone then none
  else (imageOf kind (s.slotByte kind slot)).filter (fun i =>
    decide (i.length ≤ slotSize kind * 65536)
      && (List.range ((i.length + 65535) / 65536)).all (fun k => (s.cf.map.find (slotBase kind slot + k)).isSome))

/-- The image in a slot where it is authentic. -/
def Dev.authenticSlot (s : Dev) (kind slot : Nat) : Option ImageInfo :=
  (s.slotImage kind slot).filter (fun i => imageAuthentic s.keyRec kind (s.slotByte kind slot) i)

/-- Copy one load of an image to its destination, line by line. -/
def Dev.copyLoad (s : Dev) (kind slot : Nat) (l : Load) : Dev :=
  s.each (List.range (l.len / 64)) (fun s i =>
    s.writePart (l.dest + 64 * i) ((List.range 64).map (fun k => s.slotByte kind slot (l.src + 64 * i + k))) 0)

/-- Clear the valid bits of lines [lo, hi). -/
def Dev.clearLines (s : Dev) (lo hi : Nat) : Dev :=
  let gone := (s.mem.lines.filter (fun e => lo ≤ e.1 && e.1 < hi && e.2.poisoned)).length
  let s := s.put SP_STATUS.poisoned (s.get SP_STATUS.poisoned - gone)
  s.modMem (fun m => { m with lines := m.lines.filter (fun e => !(lo ≤ e.1 && e.1 < hi)) })

/-- Start the Bolt cores from a slot (R361): held, scratchpads cleared, load table copied, slot set, run set. -/
def Dev.startBolt (s : Dev) (slot : Nat) : Dev :=
  let s := (s.put BC_CTRL.run 0).clearLines (0x000101000000 / 64) (0x000101400000 / 64)
  let s := match s.slotImage 1 slot with
    | some i => s.each i.loads (fun s l => s.copyLoad 1 slot l)
    | none => s
  let s := ((s.put BC_CTRL.slot slot).put BC_CTRL.run 0xffff).put BC_CTRL.ready 0
  let s := s.each (List.range 16) (fun s n => s.put (BC_CORE.state.at (4 * n)) 1)
  s.modCores (fun c => { c with bolt := (List.range 16).foldl (fun t n =>
    t.put n { (t.find n).getD {} with run := true, halted := false, dogRan := 0, dogSince := s.now, timerIrq := false, lr := none }) c.bolt })

end Sys2Proof.Machine
end

