-- ==== Sys2Proof/Machine/Keys.lean ====
section
/-! DEFINITION. Commands that Warden firmware runs one at a time (R461): NAMESPACE_CREATE, NAMESPACE_DELETE, GENERATE, WRAP_IN,
the key enrolments, FIRMWARE_DOWNLOAD_COMMIT and FIRMWARE_ACTIVATE_WARDEN; and CX's key slots: CX_KEY_LOAD, CX_KEY_CLEAR,
KEY_BUSY_CLEARED (R148, R149, R153 to R155, R257, R258, R457 to R461). -/

namespace Sys2Proof.Machine
open Reg

/-! ### Turns (R461) -/

/-- Key Manage, Namespace Manage, Firmware Download commits and Firmware Activate. -/
def Command.serial (c : Command) : Bool := c.op = 0x8c || c.op = 0x8d || c.op = 0x89 || (c.op = 0x88 && Pkt.cdwA c.pkt % 2 = 1)

/-- It is command c's turn: none of them is at work, and of those started c was accepted first. -/
def Dev.inTurn (s : Dev) (c : Command) : Bool :=
  s.qe.cmds.all (fun o => o.acc = c.acc || !o.serial || !o.started || (o.phase == .started && c.acc < o.acc))

/-- Command acc, started, of opcode op, with cdw_a as f wants it, and its turn. -/
def Dev.serialCmd (s : Dev) (acc op : Nat) (f : Nat → Bool) : Option Command :=
  (s.startedOp acc op).filter (fun c => f (Pkt.cdwA c.pkt) && s.inTurn c)

/-! ### CX key slots (R257, R258) -/

/-- Data units of a namespace are inside CX: programs that carry its data cross to the flash. A read's unit is inside CX only
within the row that ends its decode (log 91). -/
def Dev.cxBusy (s : Dev) (ns : Nat) : Bool :=
  s.ms.ops.any (fun o => o.st == .loading && (match o.kind with
    | .program q => s.ms.sets.any (fun x => x.seq = q && x.slots.any (fun e => e.kind != 0 && gkeyNs e.key = ns))
    | _ => false))

/-- The two halves of a key are equal. -/
def halvesEqual (k : BitVec 512) : Bool := fld k 0 256 = fld k 256 256

/-- A slot takes a key, or is cleared: CX_STATUS, the event and source 85. -/
def Dev.setKey (s : Dev) (slot : Nat) (k : Option (BitVec 512)) : Dev :=
  let m := s.get CX_STATUS.key_valid
  let s := s.put CX_STATUS.key_valid (if k.isSome then m ||| 2 ^ slot else m - (m / 2 ^ slot % 2) * 2 ^ slot)
  let s := { s with cx := match k with
    | some k => { s.cx with slots := s.cx.slots.put slot k }
    | none => { s.cx with slots := s.cx.slots.erase slot } }
  (s.event 0x0901 Src.keySlots slot (if k.isSome then 0 else 1) 0).raise (Irq.cx 1)

/-- A load through the registers: refused where the halves are equal (R257). -/
def Dev.loadKey (s : Dev) (slot : Nat) (k : BitVec 512) : Dev :=
  if halvesEqual k then (s.contained Src.keySlots Kind.keyLoadRefused slot 0 0).raise (Irq.cx 2) else s.setKey slot (some k)

/-- CX_KEY_DATA's 16 words as a key. -/
def Dev.stagedKey (s : Dev) : BitVec 512 :=
  BitVec.ofNat 512 (pack ((List.range 16).map (fun k => (32 * k, 32, s.get (CX_KEY_DATA.key.at (4 * k))))))
def Dev.clearStaged (s : Dev) : Dev := s.each (List.range 16) (fun s k => s.put (CX_KEY_DATA.key.at (4 * k)) 0)

/-- A load from CX_KEY_DATA, or a clear, takes effect; a load clears CX_KEY_DATA. -/
def Dev.keyCommand (s : Dev) (load : Bool) (slot : Nat) : Dev :=
  if load then (s.loadKey slot s.stagedKey).clearStaged else s.setKey slot none

/-- A command for a slot whose busy bit is set waits; the slot's newest command replaces one that waits. -/
def Dev.keyGo (s : Dev) (load : Bool) (slot : Nat) : Dev :=
  let s := (s.put CX_KEY_CMD.action (if load then 0 else 1)).put CX_KEY_CMD.slot slot
  if s.cxBusy (slot + 1) then
    { s with cx := { s.cx with waiting := s.cx.waiting.filter (fun w => w.2 != slot) ++ [(load, slot)] } }
  else s.keyCommand load slot

/-- Warden can write CX: the logic works and Deadbolt has not begun. -/
def Dev.cxOpen (s : Dev) : Bool := s.logicOn && !s.isDead

/-- CX_KEY_LOAD. -/
def execCxKeyLoad (slot : Nat) (s : State) : Res := act s (fun d => d.cxOpen && slot < 16) (fun d => d.keyGo true slot)
/-- CX_KEY_CLEAR. -/
def execCxKeyClear (slot : Nat) (s : State) : Res := act s (fun d => d.cxOpen && slot < 16) (fun d => d.keyGo false slot)
/-- KEY_BUSY_CLEARED: the waiting load or clear takes effect. -/
def execKeyBusyCleared (slot : Nat) (s : State) : Res :=
  actOn s (fun d => if d.cxOpen && !d.cxBusy (slot + 1) then d.cx.waiting.find? (fun w => w.2 = slot) else none) (fun d w =>
    { d with cx := { d.cx with waiting := d.cx.waiting.filter (fun x => x.2 != slot) } }.keyCommand w.1 w.2)

/-! ### Keys (R459, R460, R462) -/

/-- One DRBG request; it is reseeded every 2^20 requests (R462). -/
def Dev.drbg (s : Dev) : BitVec 512 × Dev :=
  let r := s.draw
  let n := s.cores.drbgReqs + 1
  let t := r.2.modCores (fun c => { c with drbgReqs := if n = 1048576 then 0 else n })
  (Config.drbg r.1, if n = 1048576 then t.addSat WD_TRNG_STATUS.reseeds 1 else t)

/-- A key out of the DRBG, drawn again while its halves are equal (R460; log 25). -/
def Dev.drawKey (s : Dev) : Nat → BitVec 512 × Dev
  | 0 => s.drbg
  | n + 1 => let r := s.drbg; if halvesEqual r.1 then r.2.drawKey n else r

/-- The key in a wrap blob for namespace byte ns; none where R459 refuses it. -/
def unwrapBlob (ns : Nat) (b : BitVec 1536) : Option (BitVec 512) :=
  let eph := BitVec.ofNat 768 (fld b 128 768)
  if fld b 0 32 = ascii "ZWRP" && fld b 32 8 = 1 && fld b 40 8 = ns && fld b 48 16 = 0 && fld b 64 64 = Config.deviceId.toNat
      && fld b 1472 64 = 0 && Config.isPoint eph then
    (Config.unwrapHostKey eph ns (BitVec.ofNat 576 (fld b 896 576))).filter (fun k => !halvesEqual k)
  else none

/-- The key record's entry of a namespace. -/
def KeyRec.setNs (r : KeyRec) (ns : Nat) (e : NsKey) : KeyRec := { r with ns := r.ns.set (ns - 1) e }

/-- A namespace's key enters its slot and the key record. -/
def Dev.installKey (s : Dev) (ns : Nat) (n : Namespace) (k : BitVec 512) : Dev :=
  let s := s.setKey (ns - 1) (some k)
  let s := s.modMp (fun m => { m with ns := m.ns.put ns n })
  s.changeKeys (fun r => r.setNs ns { st := n.keySource + 1, changes := n.keyChanges, opt := n.keyOpt, wrapped := Config.wrapStorage k })

/-! ### Namespace Manage (R153, R167, R187) -/

/-- A command other than acc names a namespace. -/
def Dev.nsNamed (s : Dev) (acc ns : Nat) : Bool := s.qe.cmds.any (fun o => o.acc != acc && Pkt.nsid o.pkt = ns)
def Dev.nsBusy (s : Dev) (acc ns : Nat) : Bool := s.nsNamed acc ns || s.host.peerAccept.getLsbD (ns - 1)
/-- The sequence of the checkpoint that a cut taken from now on will have. -/
def Dev.nextCkpt (s : Dev) : Nat := s.get MP_CKPT_SEQ.seq + (if s.mp.ckpt.isSome then 2 else 1)
/-- A Namespace Manage passes its commit point: the change is visible and its completion is fixed; the completion waits for a
checkpoint cut from now on (R86, R187; log 82). -/
def Dev.awaitCkpt (s : Dev) (acc result : Nat) : Dev :=
  let n := s.nextCkpt
  ((s.numberCommit acc).modCmd acc (fun c => { c with
    phase := .durable
    done := some { status := St.success, result := BitVec.ofNat 64 result }
    waitOn := n })).beginCkpt false

/-- Make a namespace with this key: its directory entries, 512 granules to a map page, come first (R167). -/
def Dev.makeNs (s : Dev) (acc ns size source : Nat) (k : BitVec 512) : Dev :=
  let r := s.allotExtents ((size + 8191) / 8192)
  let s := r.2
  let n : Namespace := ⟨size, (s.mp.epochs.find ns).getD 0, source, 0, s.opt, r.1⟩
  ((s.installKey ns n k).awaitCkpt acc ns).stir

/-- NAMESPACE_CREATE. -/
def execNamespaceCreate (acc : Nat) (blob : BitVec 1536) (s : State) : Res :=
  actOn s (fun d => d.serialCmd acc 0x8c (fun a => a % 4 = 0)) (fun d c =>
    let size := Pkt.cdwB c.pkt 36 64
    match ((List.range 16).map (fun i => i + 1)).find? (fun n => !d.mp.ns.has n) with
    | none => d.fail acc St.namespaceLimit
    | some ns =>
      if d.freeBlocks < size then d.fail acc St.namespaceLimit
      else if d.nsBusy acc ns then d.fail acc St.namespaceBusy
      else if (Pkt.cdwA c.pkt).testBit 8 then
        match unwrapBlob 0 blob with
        | some k => d.makeNs acc ns size 1 k
        | none => d.fail acc St.authenticationFailed
      else
        let r := d.drawKey 63
        r.2.makeNs acc ns size 0 r.1)

/-- Discard a namespace's buffered data: its open versions, marks, sealed versions and what waits for durability (R153). A set
on its way to flash keeps its buffer space until it is recorded or found stale (R172). -/
def Dev.discardNs (s : Dev) (ns : Nat) : Dev :=
  let s := s.each ((s.bm.opens.filter (fun v => gkeyNs v.key = ns)).map (fun v => v.key)) (fun s k => s.dropOpen k)
  s.modBm (fun b => { b with
    marks := b.marks.filter (fun m => gkeyNs m.1 != ns)
    sealeds := b.sealeds.filter (fun v => gkeyNs v.key != ns)
    stamps := b.stamps.filter (fun t => gkeyNs t.1 != ns)
    undurable := b.undurable.filter (fun u => gkeyNs u.key != ns) })

/-- Trim a namespace's whole map: its pages become absent and the block groups lose its granules (R167, R263). -/
def Dev.trimNs (s : Dev) (ns : Nat) : Dev :=
  let flash := s.nand.pages.flatMap (fun p => p.entries.keys)
  let es := (((s.mp.map.keys ++ flash).filter (fun k => gkeyNs k = ns)).dedup.map (fun k => s.ent k)).filter Ent.mapped
  let s := s.each es (fun s e => s.countEnt e false)
  let mine (pg : Nat) : Bool := pg / 2 ^ 27 = ns
  let s := s.modMp (fun m => { m with
    map := m.map.filter (fun e => gkeyNs e.1 != ns)
    dir := m.dir.filter (fun e => !mine e.1)
    cached := m.cached.filter (fun p => !mine p)
    dirty := m.dirty.filter (fun p => !mine p)
    ckpt := m.ckpt.map (fun r => { r with pages := r.pages.filter (fun p => !mine p) }) })
  s.each ((es.map (fun e => s.stripeOf (Pga.dieLun (Ent.pga e)) (Pga.block (Ent.pga e)))).dedup) (fun s id => s.noteEmptied id)

/-- Delete a namespace: buffered data, map, key, epoch (R153, R167, R460). -/
def Dev.deleteNs (s : Dev) (ns : Nat) : Dev :=
  let s := ((s.discardNs ns).trimNs ns).setKey (ns - 1) none
  let s := s.changeKeys (fun r => r.setNs ns {})
  s.modMp (fun m => { m with
    ns := m.ns.erase ns
    epochs := m.epochs.put ns ((m.epochs.find ns).getD 0 + 1) })

/-- NAMESPACE_DELETE. -/
def execNamespaceDelete (acc : Nat) (s : State) : Res :=
  actOn s (fun d => d.serialCmd acc 0x8c (fun a => a % 4 = 1)) (fun d c =>
    let ns := Pkt.nsid c.pkt
    if d.nsBusy acc ns then d.fail acc St.namespaceBusy
    else if d.cxBusy ns then d
    else (((d.deleteNs ns).awaitCkpt acc 0).stir))

/-! ### Key Manage (R154, R155, R457 to R460) -/

/-- The event of a Key Manage that has ended with a status. -/
def Dev.keyEvent (s : Dev) (c : Command) (status : BitVec 16) : Dev :=
  let a := Pkt.cdwA c.pkt
  let what := if a % 16 < 2 then Pkt.nsid c.pkt else if a % 16 < 4 then bitsOf a 8 2 else 0
  s.event 0x0c04 Src.wardenFw (a % 16) what status.toNat

def Dev.keyFail (s : Dev) (c : Command) (status : BitVec 16) : Dev := (s.keyEvent c status).fail c.acc status
def Dev.keyDone (s : Dev) (c : Command) : Dev := (s.keyEvent c St.success).succeed c.acc 0 0

/-- Replace a namespace's key once its completed writes are durable under the old one (R155). -/
def Dev.beginRekey (s : Dev) (c : Command) (k : BitVec 512) : Dev :=
  (s.modCmd c.acc (fun x => { x with
    phase := .running
    newKey := some k
    cover := s.undurableIn (Pkt.nsid c.pkt) })).stir

/-- GENERATE. -/
def execGenerate (acc : Nat) (s : State) : Res :=
  actOn s (fun d => d.serialCmd acc 0x8d (fun a => a % 16 = 0)) (fun d c =>
    if d.nsNamed acc (Pkt.nsid c.pkt) then d.keyFail c St.namespaceBusy
    else let r := d.drawKey 63; r.2.beginRekey c r.1)

/-- WRAP_IN. How the blob at addr is fetched, and what a fetch that fails does, the spec does not say: the blob is the row's
operand, no read request is issued for it, and the fetch does not fail (log 91). -/
def execWrapIn (acc : Nat) (blob : BitVec 1536) (s : State) : Res :=
  actOn s (fun d => d.serialCmd acc 0x8d (fun a => a % 16 = 1)) (fun d c =>
    if d.nsNamed acc (Pkt.nsid c.pkt) then d.keyFail c St.namespaceBusy
    else match unwrapBlob (Pkt.nsid c.pkt) blob with
      | some k => d.beginRekey c k
      | none => d.keyFail c St.authenticationFailed)

/-- Generate and Wrap In end when every write of the namespace that has completed by now is durable, and the new key is in its
slot and in the record. -/
def Dev.commitRekey (s : Dev) (c : Command) : Dev :=
  let ns := Pkt.nsid c.pkt
  match c.newKey, s.mp.ns.find ns with
  | some k, some n =>
    if !(s.undurableIn ns).isEmpty then (s.modCmd c.acc (fun x => { x with cover := s.undurableIn ns })).stir
    else if s.cxBusy ns then s
    else
      let n := { n with keySource := Pkt.cdwA c.pkt % 16, keyChanges := n.keyChanges + 1, keyOpt := s.opt }
      (s.installKey ns n k).keyDone c
  | _, _ => s

/-! ### Key blobs (R457, R458) -/

namespace Blob
def action (b : BitVec 2560) : Nat := fld b 32 8
def slot (b : BitVec 2560) : Nat := fld b 40 8
def signer (b : BitVec 2560) : Nat := fld b 48 8
def seq (b : BitVec 2560) : Nat := fld b 128 64
def newKey (b : BitVec 2560) : BitVec 768 := BitVec.ofNat 768 (fld b 192 768)
def signerKey (b : BitVec 2560) : BitVec 768 := BitVec.ofNat 768 (fld b 960 768)
def signature (b : BitVec 2560) : BitVec 768 := BitVec.ofNat 768 (fld b 1728 768)
end Blob

/-- A blob Warden firmware accepts for an action and operator slot, under the record in force (R458). activeSigner is the
signer of the active Bolt slot. -/
def blobOk (r : KeyRec) (activeSigner action slot : Nat) (b : BitVec 2560) : Bool :=
  fld b 0 32 = ascii "ZKMB" && Blob.action b = action && Blob.slot b = slot && fld b 56 8 = 0 && fld b 2496 64 = 0
    && (fld b 64 64 = 0 || fld b 64 64 = Config.deviceId.toNat) && r.seq < Blob.seq b
    && authorised r (Blob.signer b) (Blob.signerKey b)
    && Config.ecdsaVerify (Blob.signerKey b) (sha (bytesOf b.toNat 216)) (Blob.signature b)
    && (if action = 3 then Blob.newKey b == 0 && activeSigner != slot + 1 else Config.isPoint (Blob.newKey b))
    && (action != 2 || (r.ops.mapIdx (fun k o => k = slot || o.st != 1 || o.key != Blob.newKey b)).all id)

/-- The operator slot of a Key Manage. -/
def Command.opSlot (c : Command) : Nat := bitsOf (Pkt.cdwA c.pkt) 8 2
/-- The signer of the active Bolt slot. -/
def Dev.activeSigner (s : Dev) : Nat := slotSigner s.slots (2 + slotBoltActive s.slots)

/-- An accepted blob changes the record; any other fails and changes nothing. -/
def Dev.blobCommand (s : Dev) (c : Command) (slot : Nat) (b : BitVec 2560) (f : KeyRec → KeyRec) : Dev :=
  if blobOk s.keyRec s.activeSigner (Pkt.cdwA c.pkt % 16) slot b then
    (s.writeKeys { f s.keyRec with seq := Blob.seq b }).keyDone c
  else s.keyFail c St.authenticationFailed

/-- ENROL_OPERATOR_KEY: the key replaces any in the slot. -/
def execEnrolOperatorKey (acc : Nat) (blob : BitVec 2560) (s : State) : Res :=
  actOn s (fun d => d.serialCmd acc 0x8d (fun a => a % 16 = 2)) (fun d c =>
    d.blobCommand c c.opSlot blob (fun r => { r with ops := r.ops.set c.opSlot ⟨1, Blob.newKey blob⟩ }))

/-- A Bolt slot that a revoked key signed becomes empty (R458). -/
def Dev.emptySigned (s : Dev) (slot : Nat) : Dev :=
  s.each [2, 3] (fun s k =>
    if slotState s.slots k = 1 && slotSigner s.slots k = slot + 1 then
      s.setSlot k 0 0xff 0 (slotBoltActive s.slots) (slotWardenNext s.slots)
    else s)

/-- REVOKE_OPERATOR_KEY. -/
def execRevokeOperatorKey (acc : Nat) (blob : BitVec 2560) (s : State) : Res :=
  actOn s (fun d => d.serialCmd acc 0x8d (fun a => a % 16 = 3)) (fun d c =>
    let ok := blobOk d.keyRec d.activeSigner 3 c.opSlot blob
    let e := d.blobCommand c c.opSlot blob (fun r => { r with ops := r.ops.set c.opSlot ⟨2, 0⟩ })
    if ok then e.emptySigned c.opSlot else e)

/-- ENROL_MAINTENANCE_KEY. -/
def execEnrolMaintenanceKey (acc : Nat) (blob : BitVec 2560) (s : State) : Res :=
  actOn s (fun d => d.serialCmd acc 0x8d (fun a => a % 16 = 4)) (fun d c =>
    d.blobCommand c 0 blob (fun r => { r with mnt := ⟨1, Blob.newKey blob⟩ }))

/-! ### Firmware Download commit (R148, R369, R371) -/

/-- A byte of the downloaded image. -/
def downloadByte (t : Tbl Block) (o : Nat) : Nat := fld ((t.find (o / 4096)).getD 0) (8 * (o % 4096)) 8

/-- The lines of 64 KiB number k of an image of n bytes; what lies past its end stays erased. -/
def imageLines (at_ : Nat → Nat) (n k : Nat) : Tbl FlashLine :=
  (List.range 255).filterMap (fun i =>
    let o := 65536 * k + 256 * i
    let d := BitVec.ofNat 2048 (ofBytes ((List.range 256).map (fun j => if o + j < n then at_ (o + j) else 0xff)))
    if d = erasedLine then none else some (i, d))

/-- The slot a commit writes: the one of its kind that is not active. -/
def Dev.idleSlot (s : Dev) (kind : Nat) : Nat := 1 - (if kind = 0 then s.wardenSlot else slotBoltActive s.slots)

/-- Write an image into a slot, sector by sector (R371). -/
def Dev.writeImage (s : Dev) (kind slot : Nat) (at_ : Nat → Nat) (n : Nat) : Dev :=
  s.each (List.range ((n + 65535) / 65536)) (fun s k => s.replaceSector (slotBase kind slot + k) (imageLines at_ n k))

/-- A read-back mismatch: the sector being written holds what it holds, and stays untagged (R371, R374; log 6). -/
def Dev.spoilSector (s : Dev) : Dev :=
  match s.nextSector with
  | none => s
  | some p =>
    let n := s.nextErases p
    let k := s.freeCtr
    let s := { s with freeCtr := k + 255 }.putSector p { lines := (List.range 255).map (fun i => (i, Config.freeLine (k + i))), sealed := true, erases := n }
    (s.put CF_ROTATE.next ((p + 1) % 512)).noteErase p n

/-- The slot record after a slot's content changed; the active bits stay. -/
def Dev.noteSlot (s : Dev) (k st signer rev : Nat) : Dev := s.setSlot k st signer rev (slotBoltActive s.slots) (slotWardenNext s.slots)

/-- The outcome of a commit, and the device after it (R148). With fewer usable code-flash sectors than the image needs it is
Image Invalid before any erase, and the slot stays as it was (12_code_flash.md, under R371). -/
def Dev.commitImage (s : Dev) (kind n : Nat) (t : Tbl Block) (readBackOk : Bool) : BitVec 16 × Dev :=
  let at_ := downloadByte t
  let slot := s.idleSlot kind
  if !(List.range ((n + 4095) / 4096)).all (fun i => t.has i) then (St.imageInvalid, s)
  else match imageOf kind at_ with
    | none => (St.imageInvalid, s)
    | some i =>
      if i.length ≠ n || slotSize kind * 65536 < n then (St.imageInvalid, s)
      else if !imageAuthentic s.keyRec kind at_ i then (St.authenticationFailed, s)
      else if s.usableCount < (n + 65535) / 65536 then (St.imageInvalid, s)
      else if readBackOk then (St.success, (s.writeImage kind slot at_ n).noteSlot (slotNo kind slot) 1 (sigSigner i.signature) i.revision)
      else (St.imageInvalid, s.spoilSector.noteSlot (slotNo kind slot) 0 0xff 0)

/-- FIRMWARE_DOWNLOAD_COMMIT; readBackOk: every line read back as it was written. -/
def execFirmwareDownloadCommit (acc : Nat) (readBackOk : Bool) (s : State) : Res :=
  actOn s (fun d => d.serialCmd acc 0x88 (fun a => a % 2 = 1)) (fun d c =>
    let kind := 1 - bitsOf (Pkt.cdwA c.pkt) 1 1
    let slot := d.idleSlot kind
    let r := d.commitImage kind (Pkt.cdwB c.pkt 36 32) d.host.download readBackOk
    let d := r.2.modHost (fun h => { h with download := [] })
    if r.1 = St.success then d.succeed acc slot 0 else d.fail acc r.1)

/-! ### Firmware Activate of a Warden image (R149) -/

/-- The slot of a Firmware Activate. -/
def Command.fwSlot (c : Command) : Nat := bitsOf (Pkt.cdwA c.pkt) 8 1

/-- FIRMWARE_ACTIVATE_WARDEN: the slot is marked for the next wake. -/
def execFirmwareActivateWarden (acc : Nat) (s : State) : Res :=
  actOn s (fun d => d.serialCmd acc 0x89 (fun a => a % 2 = 1)) (fun d c =>
    if slotState d.slots (slotNo 0 c.fwSlot) ≠ 1 then
      (d.event 0x0c02 Src.wardenFw c.fwSlot St.invalidField.toNat 0).fail acc St.invalidField
    else
      let f (g : FlashLine → Nat → Nat) := (List.range 4).map (fun i => g d.slots i)
      let d := d.writeSlots (slotBoltActive d.slots) c.fwSlot (f slotState) (f slotSigner) (f slotRevision)
      let d := d.flag WD_STATUS.next_marked (c.fwSlot != d.wardenSlot)
      (d.event 0x0c02 Src.wardenFw c.fwSlot 0 0).succeed acc 0 0)

end Sys2Proof.Machine
end

