-- ==== Sys2Proof/Machine/Bolt.lean ====
section
/-! DEFINITION. Warden and the Bolt cores: mailbox messages, FIRMWARE_ACTIVATE_BOLT and the steps of R362, watchdogs, the
machine timer, and the interrupt controller's commands (R123, R149, R346, R352 to R359, R361, R362). -/

namespace Sys2Proof.Machine
open Reg

/-! ### Closed accesses (R40, R42, R344) -/

/-- An access that is turned away: a bus error and a contained fault; a Bolt core's is counted and raises source 145 + n. -/
def Dev.turnAway (s : Dev) (w : Who) (kind addr access : Nat) : Dev :=
  let s := s.contained (busSource w) kind addr (masterId w) access
  let s := match w with
    | .bolt n => (s.addSat (BC_CORE.closed.at (4 * n)) 1).raise (Irq.boltClosed n)
    | _ => s
  s.emit (.busReply w false 0)

/-- A closed access (R42, R344). -/
def Dev.closed (s : Dev) (w : Who) (addr access : Nat) : Dev := s.turnAway w Kind.closedAccess addr access

/-- An access to what does not exist (R15, R40); of a Bolt core it is one that R344's table does not allow (log 30). -/
def Dev.unmapped (s : Dev) (w : Who) (addr access : Nat) : Dev := s.turnAway w Kind.unmappedAccess addr access

/-- A served access. -/
def Dev.served (s : Dev) (w : Who) (v : Nat) : Dev := s.emit (.busReply w true (BitVec.ofNat 512 v))

/-! ### Mailbox messages (R352, R353) -/

/-- Warden sends a message to the Bolt cores: the next place of its ring, then core 0's doorbell (log 26). -/
def Dev.mailDown (s : Dev) (kind reason : Nat) : Dev :=
  let seq := s.cores.seqDown + 1
  let a := 0x000102000000 + (seq - 1) % 1024 * 64
  let d := BitVec.ofNat 512 (pack [(0, 16, seq), (16, 16, kind), (32, 8, 0xff), (64, 8, reason)])
  (((s.modCores (fun c => { c with seqDown := seq })).writeLine a d).emit (.mail .warden kind)).raise (Irq.toBolt 0)

/-- Core n sends a message to Warden: the next place of its ring, then its doorbell. -/
def Dev.mailUp (s : Dev) (n kind : Nat) (payload : List (Nat × Nat × Nat)) : Dev :=
  let seq := (s.cores.seqUp.find n).getD 0 + 1
  let a := 0x000102010000 + n * 0x1000 + (seq - 1) % 64 * 64
  let d := BitVec.ofNat 512 (pack ([(0, 16, seq), (16, 16, kind), (32, 8, n)] ++ payload))
  (((s.modCores (fun c => { c with seqUp := c.seqUp.put n seq })).writeLine a d).emit (.mail (.bolt n) kind)).raise (Irq.fromBolt n)

def Dev.core (s : Dev) (n : Nat) : Core := (s.cores.bolt.find n).getD {}
def Dev.modCore (s : Dev) (n : Nat) (f : Core → Core) : Dev := s.modCores (fun c => { c with bolt := c.bolt.put n (f ((c.bolt.find n).getD {})) })
/-- A Bolt core executes. -/
def Dev.coreRuns (s : Dev) (n : Nat) : Bool := n < 16 && (s.core n).run && !(s.core n).halted && !(s.core n).debug && !s.isDead
/-- Warden firmware runs: its image has started and Deadbolt has not begun. -/
def Dev.wardenRuns (s : Dev) : Bool := s.cores.wardenRunning && !s.isDead

/-- Warden owes a message of this type and reason. -/
def Dev.owes (s : Dev) (kind reason : Nat) : Bool := s.wardenRuns && s.cores.toSend.contains (kind, reason)
/-- Send it. -/
def Dev.sendOwed (s : Dev) (kind reason : Nat) : Dev :=
  (s.modCores (fun c => { c with toSend := c.toSend.erase (kind, reason) })).mailDown kind reason
def Dev.owe (s : Dev) (kind reason : Nat) : Dev := s.modCores (fun c => { c with toSend := c.toSend ++ [(kind, reason)] })

/-- PREPARE: Prepare goes to policy firmware, for a Stop (1) or an activation (2). -/
def execPrepare (reason : Nat) (s : State) : Res := act s (fun d => d.owes 1 reason) (fun d => d.sendOwed 1 reason)
/-- MAILBOX_RELEASE. -/
def execMailboxRelease (s : State) : Res := act s (fun d => d.owes 2 0) (fun d => d.sendOwed 2 0)

/-! ### The activation hold (R123, R251) -/

/-- QE resumes starts; the hold's time does not count for CD's fallback timers or RC's. -/
def Dev.endHold (s : Dev) : Dev :=
  match s.qe.hold with
  | none => s
  | some t =>
    let s := s.modQe (fun e => { e with hold := none })
    let s := s.modCd (fun c => { c with reqs := c.reqs.map (fun r =>
      if r.st == .waitingStep then { r with paused := r.paused + (s.now - max t r.timer) } else r) })
    s.modRc (fun r => { r with belowSince := r.belowSince.map (fun b => b + (s.now - max t b)) })

/-- The end of a Firmware Activate of a Bolt image: its event and its completion (R362). -/
def Dev.activateResult (s : Dev) (a : Activation) (status : BitVec 16) : Dev :=
  match a.acc with
  | none => s
  | some acc =>
    let s := s.event 0x0c02 Src.wardenFw a.slot status.toNat 0
    if status = St.success then s.succeed acc 0 0 else s.fail acc status

/-- Step 3: policy firmware refused or did not answer; nothing changes. -/
def Dev.activationRefused (s : Dev) (a : Activation) : Dev :=
  let s := (s.modCores (fun c => { c with act := none })).owe 2 0
  s.endHold.activateResult a St.activationFailed

/-- FIRMWARE_ACTIVATE_BOLT: step 1 of R362. It waits for its turn (R461) and for a running Hasp or restart (R303, R362). -/
def execFirmwareActivateBolt (acc : Nat) (s : State) : Res :=
  actOn s (fun d => d.serialCmd acc 0x89 (fun a => a % 2 = 0)) (fun d c =>
    if slotState d.slots (slotNo 1 c.fwSlot) ≠ 1 then
      (d.event 0x0c02 Src.wardenFw c.fwSlot St.invalidField.toNat 0).fail acc St.invalidField
    else if d.pw.hasp.isSome || d.cores.act.isSome then d
    else
      let d := d.modCmd acc (fun c => { c with phase := .running })
      let d := (d.modQe (fun e => { e with hold := some d.now })).zeroDeficits.raise Irq.activateBegun
      (d.modCores (fun k => { k with act := some ⟨some acc, .waitAnswer, d.now, c.fwSlot, d.boltSlot⟩ })).owe 1 2)

def Dev.setAct (s : Dev) (a : Activation) (st : ActStep) : Dev := s.modCores (fun c => { c with act := some { a with step := st } })

/-- PREPARE_ANSWER: a Bolt core answers Prepare, for an activation or for Hasp. -/
def execPrepareAnswer (core : Nat) (refuse : Bool) (s : State) : Res :=
  act s (fun d => d.coreRuns core && d.wardenRuns) (fun d =>
    let d := d.mailUp core 3 [(64, 8, if refuse then 1 else 0)]
    match d.cores.act.filter (fun a => a.step == .waitAnswer), d.pw.hasp with
    | some a, _ => if refuse then d.activationRefused a else (d.setAct a .sendHalt).owe 4 0
    | none, some h =>
      if d.pw.phase == .preparing && h.boltAnswer.isNone then d.modPw (fun w => { w with hasp := some { h with boltAnswer := some (!refuse) } }) else d
    | none, none => d)

/-- ACTIVATION_PREPARE_TIMEOUT. -/
def execActivationPrepareTimeout (s : State) : Res :=
  actOn s (fun d => d.cores.act.filter (fun a => a.step == .waitAnswer && d.wardenRuns && d.expired a.start (msTicks 250)))
    (fun d a => d.activationRefused a)

/-- HALT_NOTICE: the 1 ms wait begins; a restart's bound counts from here. -/
def execHaltNotice (s : State) : Res :=
  actOn s (fun d => if d.owes 4 0 then d.cores.act else none) (fun d a =>
    let d := d.sendOwed 4 0
    d.setAct { a with start := if a.acc.isNone then d.now else a.start } (.haltWait d.now))

/-- A slot's signer, for event 0x0C01. -/
def Dev.signerOf (s : Dev) (kind slot : Nat) : Nat := s.slotKey (slotNo kind slot)
/-- The Bolt cores start from a slot, and the event says so. -/
def Dev.launch (s : Dev) (slot : Nat) : Dev := (s.startBolt slot).event 0x0c01 Src.imageAuth 1 slot (s.signerOf 1 slot)

/-- HALT_WAIT_EXPIRY: the cores are halted and start from the slot. -/
def execHaltWaitExpiry (s : State) : Res :=
  actOn s (fun d => d.cores.act.filter (fun a => match a.step with
      | .haltWait t => d.wardenRuns && d.expired t (msTicks 1)
      | _ => false))
    (fun d a => (d.launch a.slot).setAct a .waitReady)

/-- Image Ready from the image that an activation or restart started. -/
def Dev.imageReady (s : Dev) (a : Activation) : Dev :=
  let s := s.modCores (fun c => { c with act := none })
  match a.step, a.acc with
  | .waitReady, some _ =>
    let d := s.slots
    let f (g : FlashLine → Nat → Nat) := (List.range 4).map (fun i => g d i)
    let s := s.writeSlots a.slot (slotWardenNext d) (f slotState) (f slotSigner) (f slotRevision)
    (s.endHold.notice 8 a.slot 0 0).activateResult a St.success
  | _, _ => s.endHold

/-- IMAGE_READY: a started image reports ready with its header's revision. -/
def execImageReady (core : Nat) (revision : BitVec 64) (s : State) : Res :=
  act s (fun d => d.coreRuns core && d.wardenRuns) (fun d =>
    let d := d.mailUp core 5 [(64, 64, revision.toNat)]
    let ok := ((d.slotImage 1 d.boltSlot).map (fun i => i.revision)) == some revision.toNat
    if !ok || d.bit BC_CTRL.ready then d
    else
      let d := (d.flag BC_CTRL.ready true).raise Irq.imageReady
      match d.cores.act with
      | some a => (match a.step with
        | .waitReady => d.imageReady a
        | .oldImage _ => d.imageReady a
        | _ => d)
      | none => d)

/-- Policy firmware is lost (R359, R362). -/
def Dev.policyLost (s : Dev) : Dev := s.fatal Src.bolt Kind.policyLost s.boltSlot 0

/-- IMAGE_READY_TIMEOUT. -/
def execImageReadyTimeout (s : State) : Res :=
  actOn s (fun d => if d.wardenRuns then d.cores.act else none) (fun d a =>
    match a.step with
    | .waitReady =>
      if !d.expired a.start (msTicks 1500) then d
      else if a.acc.isNone then d.policyLost
      else ((d.launch a.old).setAct a (.oldImage d.now)).activateResult a St.activationFailed
    | .oldImage t => if d.expired t (msTicks 1500) then d.policyLost else d
    | _ => d)

/-- ACTIVATION_HOLD_END: the hold has lasted 2 s. -/
def execActivationHoldEnd (s : State) : Res :=
  act s (fun d => match d.qe.hold with | some t => d.expired t (msTicks 2000) | none => false) (fun d => d.endHold)

/-- EVENT_REQUEST (R353). -/
def execEventRequest (core : Nat) (code : Byte) (p0 p1 p2 : Dword) (s : State) : Res :=
  act s (fun d => d.coreRuns core && d.wardenRuns) (fun d =>
    (d.mailUp core 6 [(64, 8, code.toNat), (96, 32, p0.toNat), (128, 32, p1.toNat), (160, 32, p2.toNat)]).record
      (0x0b00 + code.toNat) (Src.boltCore core) 0 true p0.toNat p1.toNat p2.toNat)

/-! ### Watchdogs (R358, R359) -/

/-- A program or erase that stalls the window runs (R376). -/
def Dev.cfRuns (s : Dev) : Bool := s.cf.op != .none && !s.cf.suspended
/-- Core n's watchdog runs. -/
def Dev.dogRuns (s : Dev) (n : Nat) : Bool := s.bit (BC_WDOG.enable.at (8 * n)) && s.coreRuns n && !s.cfRuns
/-- Ticks core n's watchdog has run. -/
def Dev.dogTicks (s : Dev) (n : Nat) : Nat := (s.core n).dogRan + (if s.dogRuns n then s.now - (s.core n).dogSince else 0)
/-- Bring the watchdogs' counts up to now, before something changes whether they run. -/
def Dev.settleDogs (s : Dev) : Dev :=
  s.each (List.range 16) (fun s n => if s.cores.bolt.has n then s.modCore n (fun c => { c with dogRan := s.dogTicks n, dogSince := s.now }) else s)

/-- A write to core n's kick register. -/
def Dev.kickBolt (s : Dev) (n : Nat) (v : Dword) : Dev :=
  if v = 0x4b1c then s.modCore n (fun c => { c with dogRan := 0, dogSince := s.now }) else s

/-- BOLT_WATCHDOG_KICK: by core n itself or by Warden. -/
def execBoltWatchdogKick (w : Who) (core : Nat) (v : Dword) (s : State) : Res :=
  act s (fun d => d.awake && core < 16 && (w == .warden || (match w with | .bolt _ => true | _ => false))) (fun d =>
    if w == .warden || w == .bolt core then (d.kickBolt core v).served w 0 else d.closed w (BC_WDOG_KICK.kick.addr + 8 * core) 4)

/-- BOLT_WATCHDOG_EXPIRY: the core halts and Warden restarts the cluster. -/
def execBoltWatchdogExpiry (core : Nat) (s : State) : Res :=
  act s (fun d => d.dogRuns core && d.get (BC_WDOG.limit_ms.at (8 * core)) * 1000 + 1 ≤ d.dogTicks core) (fun d =>
    let d := ((d.settleDogs.modCore core (fun c => { c with halted := true })).put (BC_CORE.state.at (4 * core)) 3).raise (Irq.boltWdog core)
    let d := d.contained (Src.boltCore core) Kind.boltWatchdog core 0x3f 11
    if d.isDead || d.cores.act.isSome then d
    else (d.modCores (fun c => { c with act := some ⟨none, .sendHalt, d.now, d.boltSlot, d.boltSlot⟩ })).owe 4 0)

/-- A write to Warden's kick register; a new limit applies from here (R358). -/
def Dev.kickWarden (s : Dev) (v : Dword) : Dev :=
  if v = 0x4b1c then s.modCores (fun c => { c with wdogStart := s.now, wdogLimit := s.get WD_WDOG.limit_ms }) else s

/-- WARDEN_WATCHDOG_KICK. -/
def execWardenWatchdogKick (v : Dword) (s : State) : Res := act s (fun d => d.awake) (fun d => d.kickWarden v)

/-- WARDEN_WATCHDOG_EXPIRY: from the first ROM instruction on; or its comparison is inverted (R424). -/
def execWardenWatchdogExpiry (s : State) : Res :=
  act s (fun d => d.awake && (d.armedFor Src.wdog || d.expired d.cores.wdogStart (msTicks d.cores.wdogLimit))) (fun d =>
    let i := d.injectAt Src.wdog
    i.2.faultMsg { source := Src.wdog, kind := Kind.wardenWatchdog, cls := 2, access := 11, injected := i.1 })

/-- MACHINE_TIMER_INTERRUPT (R346). -/
def execMachineTimerInterrupt (core : Nat) (s : State) : Res :=
  act s (fun d => d.coreRuns core && d.get (BC_MTIMECMP.cmp.at (8 * core)) ≤ d.now) (fun d => d.modCore core (fun c => { c with timerIrq := true }))

/-! ### Interrupt controller (R354 to R357) -/

/-- Whether source n goes to target t: 0 Warden, 1 + k Bolt core k. -/
def Dev.routedTo (s : Dev) (n t : Nat) : Bool :=
  let g := s.get (routeReg IC_ROUTE.target n)
  if t = 0 then g = 1 else g = 2 && s.get (routeReg IC_ROUTE.core n) = t - 1

/-- The source a claim of target t returns: pending, not in service, of the highest priority, then the lowest number. -/
def Dev.claimable (s : Dev) (t : Nat) : Option Nat :=
  let pri (n : Nat) : Nat := s.get (routeReg IC_ROUTE.priority n)
  ((List.range 320).filter (fun n => s.icIsPending n && !s.inService n && s.routedTo n t && pri n ≠ 0)).foldl
    (fun b n => match b with
      | none => some n
      | some x => if pri x < pri n then some n else some x) none

/-- Target t's machine external interrupt: asserted while a source can be claimed (R355). -/
def Dev.externalIrq (s : Dev) (t : Nat) : Bool := (s.claimable t).isSome

/-- Who may use target t's registers: Warden any of them, a Bolt core its own (R356). -/
def icOwner (w : Who) (t : Nat) : Bool :=
  match w with
  | .warden => true
  | .bolt n => t = n + 1
  | .host _ => false

/-- A read of IC_CLAIM[t]. -/
def Dev.claimIrq (s : Dev) (w : Who) (t : Nat) : Dev :=
  match s.claimable t with
  | none => s.served w 0x3ff
  | some n => ((s.setIcPending n false).modCores (fun c => { c with service := c.service ++ [(n, t)] })).served w n

/-- A write of IC_COMPLETE[t]: service ends, and a source raised meanwhile is delivered. -/
def Dev.completeIrq (s : Dev) (t n : Nat) : Dev := (s.modCores (fun c => { c with service := c.service.erase (n, t) })).deliver n

/-- Whether w may raise source n. -/
def mayRaise (w : Who) (n : Nat) : Bool :=
  match w with
  | .warden => n < 16 || (129 ≤ n && n ≤ 144)
  | .bolt k => n < 16 || n = 113 + k
  | .host _ => false

/-- A requester that the interrupt controller's registers answer. -/
def isCore : Who → Bool
  | .host _ => false
  | _ => true

/-- IC_CLAIM. -/
def execIcClaim (w : Who) (t : Nat) (s : State) : Res :=
  act s (fun d => d.awake && isCore w && t < 17) (fun d => if icOwner w t then d.claimIrq w t else d.closed w (IC_CLAIM.source.addr + 8 * t) 2)

/-- IC_COMPLETE. -/
def execIcComplete (w : Who) (t n : Nat) (s : State) : Res :=
  act s (fun d => d.awake && isCore w && t < 17) (fun d =>
    if icOwner w t then (d.completeIrq t n).served w 0 else d.closed w (IC_COMPLETE.source.addr + 8 * t) 4)

/-- IC_RAISE. -/
def execIcRaise (w : Who) (n : Nat) (s : State) : Res :=
  act s (fun d => d.awake && isCore w) (fun d => if mayRaise w n then (d.raise n).served w 0 else d.closed w IC_RAISE.source.addr 4)

/-- Sources marked "any, host" (R354). -/
def hostSource (n : Nat) : Bool := n = 26 || (161 ≤ n && n ≤ 184)
def fixedRoute (n : Nat) : Bool := Regs.fixedWarden n || Regs.fixedBolt n

/-- A Bolt core's route write keeps the rules: the source is not fixed, and its old and new targets are none or a Bolt core. -/
def Dev.boltRouteOk (s : Dev) (n : Nat) (v : Dword) : Bool :=
  let old := s.get (routeReg IC_ROUTE.target n)
  let new := fld v 29 3
  !fixedRoute n && (old = 0 || old = 2) && (new = 0 || new = 2)

/-- Write the fields of IC_ROUTE[n] that may take their value; a host target needs a source marked for it (R13, R354, R356). -/
def Dev.writeRoute (s : Dev) (w : Who) (n : Nat) (v : Dword) : Dev :=
  let t := fld v 29 3
  let s := if fixedRoute n then s
    else
      let s := if t ≤ 2 || (t ≤ 4 && hostSource n) then s.put (routeReg IC_ROUTE.target n) t else s
      s.put (routeReg IC_ROUTE.core n) (fld v 20 4)
  let s := s.put (routeReg IC_ROUTE.priority n) (fld v 10 3)
  let s := if w == .warden && fld v 0 10 ≤ 512 then s.put (routeReg IC_ROUTE.vector n) (fld v 0 10) else s
  s.deliver n

/-- IC_ROUTE. -/
def execIcRoute (w : Who) (n : Nat) (v : Dword) (s : State) : Res :=
  act s (fun d => d.awake && isCore w && n < 320) (fun d =>
    if w == .warden || d.boltRouteOk n v then (d.writeRoute w n v).served w 0 else d.closed w (IC_ROUTE.target.addr + 4 * n) 4)

end Sys2Proof.Machine
end

