-- ==== Sys2Proof/Machine/Admin.lean ====
section
/-! DEFINITION. SET_WALL_TIME, SEAL, DOMAIN_JOIN, DOMAIN_LEAVE, and COMMIT_POINT of every command that reaches it in a step of
its own (R86, R156 to R159). -/

namespace Sys2Proof.Machine
open Reg

/-! ### Wall time (R156) -/

/-- SET_WALL_TIME: the value takes effect now. -/
def execSetWallTime (acc : Nat) (s : State) : Res :=
  actOn s (fun d => d.startedOp acc 0x8e) (fun d c =>
    let v := Pkt.cdwB c.pkt 36 64
    if v = 0 then d.fail acc St.invalidField
    else
      (d.modHost (fun h => { h with
        wall := some (v, d.now)
        wallAcc := acc })).modCmd acc (fun c => { c with phase := .running }))

/-- The verdict phase of this wake's audit has ended: boot step 8 is over (R292, R247). -/
def Dev.auditDone (s : Dev) : Bool := s.pw.phase != .booting || 9 ≤ s.pw.bootStep

/-- Its commit point: the end of the verdict phase; result says whether its value served this wake's drift ages. -/
def Dev.commitWall (s : Dev) (c : Command) : Dev := if s.auditDone then s.succeed c.acc c.waitOn2 0 else s

/-! ### Seal (R157, R280) -/

/-- SEAL: first every completed write is made durable. -/
def execSeal (acc : Nat) (s : State) : Res :=
  actOn s (fun d => d.startedOp acc 0x8f) (fun d c =>
    if Pkt.cdwA c.pkt ≠ 0x5ea1 then d.fail acc St.invalidField
    else if d.isSealed && d.rc.sealSeq.isNone then d.succeed acc 0 0
    else (d.modCmd acc (fun c => { c with
      phase := .running
      cover := d.undurableIn 0 })).stir)

/-- Seal's commit point is the transition, once every write that has committed by now is durable; its completion waits for the
checkpoint that records it (R157, R280; log 82). waitOn is that checkpoint. -/
def Dev.commitSeal (s : Dev) (c : Command) : Dev :=
  if !(s.undurableIn 0).isEmpty then (s.modCmd c.acc (fun x => { x with cover := s.undurableIn 0 })).stir
  else
    let s := s.becomeSealed
    (s.numberCommit c.acc).modCmd c.acc (fun c => { c with
      phase := .durable
      done := some { status := St.success }
      cover := []
      waitOn := s.rc.sealSeq.getD (s.get MP_CKPT_SEQ.seq) })

/-! ### Domain (R158) -/

/-- A Peer Copy Out or a peer write is outstanding. -/
def Dev.peerWork (s : Dev) : Bool := s.qe.cmds.any (fun c => c.op = 0x08 || c.peer.isSome)

/-- Set the domain, or fail with Busy and QE's unit ID. -/
def Dev.setDomain (s : Dev) (acc : Nat) (dom : Option (Qword × Nat)) : Dev :=
  if s.peerWork then s.failWith acc { status := St.busy, result2 := BitVec.ofNat 32 Src.qe } 0
  else (s.modHost (fun h => { h with domain := dom })).succeed acc 0 0

/-- DOMAIN_JOIN. -/
def execDomainJoin (acc : Nat) (s : State) : Res :=
  actOn s (fun d => (d.startedOp acc 0x90).filter (fun c => Pkt.cdwA c.pkt % 2 = 0)) (fun d c =>
    d.setDomain acc (some (BitVec.ofNat 64 (Pkt.cdwB c.pkt 36 64), Pkt.cdwB c.pkt 44 16)))

/-- DOMAIN_LEAVE. -/
def execDomainLeave (acc : Nat) (s : State) : Res :=
  actOn s (fun d => (d.startedOp acc 0x90).filter (fun c => Pkt.cdwA c.pkt % 2 = 1)) (fun d _ => d.setDomain acc none)

/-! ### COMMIT_POINT (R86) -/

/-- The commit point of an I/O command at work. -/
def Dev.commitIo (s : Dev) (c : Command) : Dev :=
  if c.op = 0x01 then s.commitWrite c
  else if c.op = 0x02 then s.commitRead c
  else if c.op = 0x03 then s.commitFlush c
  else if c.op = 0x04 then s.commitTrim c
  else if c.op = 0x05 then s.commitVerify c
  else if c.op = 0x06 then s.commitTrim c
  else s

/-- The commit point of an admin command at work. -/
def Dev.commitAdmin (s : Dev) (c : Command) : Dev :=
  if c.op = 0x80 || c.op = 0x81 then s.commitOut c
  else if c.op = 0x88 then s.commitPiece c
  else if c.op = 0x8d then s.commitRekey c
  else if c.op = 0x8e then s.commitWall c
  else if c.op = 0x8f then s.commitSeal c
  else s

/-- COMMIT_POINT: a command that has what it needs passes its commit point (log 1: one that does not, cannot). -/
def execCommitPoint (acc : Nat) (s : State) : Res :=
  actOn s (fun d => (d.runningCmd acc).filter (fun _ => !d.qe.dead)) (fun d c =>
    if c.queue = 0 then d.commitAdmin c else d.commitIo c)

end Sys2Proof.Machine
end

