-- ==== Sys2Proof/Machine/Formats.lean ====
section
/-! DEFINITION. The bytes of every codeword on flash: user blocks and filler (R225), footers (R180, R181, R233, R243, R441, R446),
pages (R163, R166, R263), checkpoint records (R185, R282, R304), log and health codewords (R436, R446), parity (R232) and witness
patterns (R243), encoded and scrambled (R224, R226). Byte strings are numbers, lowest byte first (R9). -/

namespace Sys2Proof.Machine
open Reg

/-- 4092 bytes with their CRC-32C after them. -/
def withCrc (v : Nat) : Nat := v + crc32c (bytesOf v 4092) <<< 32736

/-- A bit for each number of a list. -/
def bitSet (l : List Nat) : Nat := pack (l.dedup.map (fun i => (i, 1, 1)))

/-! ### Footers -/

/-- R180's and R233's footer kinds. -/
def SetKind.code : SetKind → Nat
  | .data => 1
  | .map => 2
  | .checkpoint => 3
  | .parity => 4
  | .witness => 5
  | .log => 6
  | .health => 7

/-- Bytes 0 to 63 of a footer (R180). -/
def Dev.footerHead (s : Dev) (place : Nat) (x : OnFlash) : Nat :=
  pack [(0, 16, 1), (16, 8, x.kind.code), (24, 8, x.stream), (32, 5, s.slotCount), (40, 1, if x.padded then 1 else 0),
    (41, 1, if Pga.wl place + 1 = s.wordLines then 1 else 0), (64, 64, x.seq), (128, 40, place), (168, 40, x.successor),
    (208, 48, x.opt.toNat), (256, 64, x.ckptSeq)]

/-- A data footer entry (R181). -/
def slotFooter (e : SlotEntry) : Nat :=
  let bits (p : Stored → Bool) : Nat := bitSet ((List.range 16).filter (fun i => (e.blocks[i]?).any p))
  pack [(0, 36, gkeyGran e.key), (40, 5, gkeyNs e.key), (45, 3, e.kind), (48, 16, e.stamp.toNat), (64, 8, e.epoch.toNat),
    (80, 16, if e.sub then bits (fun b => b != .zero) else 0xffff), (96, 16, bits (fun b => b == .poisoned)),
    (112, 40, if e.kind = 2 then e.source else 0)]

/-- A map-page entry of a footer (R181). -/
def pageFooter (replica : Nat) (c : PageCopy) : Nat :=
  pack [(0, 5, pageNs c.page), (5, 31, pageIndex c.page), (36, 8, c.epoch.toNat), (44, 1, replica), (45, 19, c.pageSeq)]

/-- The positions whose data sets a parity set covers (R233). -/
def Dev.coveredPositions (s : Dev) (place : Nat) (x : OnFlash) : List Nat :=
  let members := s.groupOf (Pga.dieLun place)
  (Tbl.keys (s.nand.sets.filter (fun e => x.covered.contains e.2.seq))).filterMap (fun a =>
    members.findIdx? (fun l => l = Pga.dieLun a))

/-- Bytes 64 to 4091 of a footer, by kind (R180, R233, R441). -/
def Dev.footerBody (s : Dev) (place : Nat) (x : OnFlash) : Nat :=
  match x.kind with
  | .data => pack (x.slots.mapIdx (fun i e => (512 + 256 * i, 256, slotFooter e)))
  | .map => pack (x.copies.mapIdx (fun i c => (512 + 64 * i, 64, pageFooter x.replica c)))
  | .parity => pack [(512, 32, bitSet (s.coveredPositions place x)), (544, 6, x.covered.length), (550, 1, if x.early then 1 else 0)]
  | .log => pack [(512, 32, ((x.events.head?).map (fun e => e.seq)).getD 0), (544, 16, x.events.length), (560, 32, x.clears),
      (592, 8, if 96 ≤ Pga.block place then 1 else 0), (600, 32, x.dropped)]
  | .checkpoint | .witness | .health => 0

def Dev.footer (s : Dev) (place : Nat) (x : OnFlash) : Nat := withCrc (s.footerHead place x + s.footerBody place x)

/-- A signed byte. -/
def byteOf (v : Int) : Nat := (v % 256).toNat

/-- A witness footer (R243). -/
def Dev.witnessFooter (s : Dev) (w : Witness) : Nat :=
  withCrc (pack ([(0, 16, 1), (16, 8, 5), (24, 8, w.reason), (32, 32, w.seq), (64, 32, w.stamp), (96, 48, w.opt.toNat), (144, 32, w.pcc),
    (176, 3, w.wear)] ++ (List.range s.thresholds).map (fun t => (192 + 8 * t, 8, byteOf ((w.valley.find t).getD 0)))))

/-! ### Pages -/

/-- A directory or root page entry (R166). -/
def dirEntryBits (e : DirEntry) : Nat := pack [(0, 44, e.addrA), (44, 1, if e.lost then 1 else 0), (48, 44, e.addrB), (96, 32, e.pageSeq)]
def dirTable (t : Tbl DirEntry) : Nat := pack (t.map (fun e => (128 * e.1, 128, dirEntryBits e.2)))

/-- The 4096 bytes of a page of any kind (R165, R263, R264). -/
def pageData (c : PageCopy) : Nat :=
  if pageNs c.page = dirNs || pageNs c.page = rootNs then dirTable c.dirs
  else if pageNs c.page = tableNs then pack (c.blocks.map (fun e => (128 * e.1, 128, blockBytes e.2)))
  else
    let base := gkey (pageNs c.page) (512 * pageIndex c.page)
    pack ((List.range 512).map (fun i => (64 * i, 64, ((c.entries.find (base + i)).getD Ent.absent).toNat)))

/-! ### Checkpoint records (R185, R282, R304) -/

/-- First entry and count of an extent. -/
def extentBits (e : Nat × Nat) : Nat := pack [(0, 28, e.1), (28, 28, e.2)]

/-- Codeword 0 without its crc. -/
def recordHead (r : CkptRec) : Nat :=
  pack ([(0, 16, 1), (16, 1, if r.stop then 1 else 0), (17, 1, if r.wall.isSome then 1 else 0), (24, 8, r.bits), (32, 64, r.seq),
    (96, 64, r.cutSeq), (160, 48, r.opt.toNat), (208, 32, r.pcc), (240, 64, r.wall.getD 0), (304, 16, max r.roots.length 1),
    (320, 16, r.replay.length)] ++ r.replay.mapIdx (fun i e =>
      (512 + 128 * i, 128, pack [(0, 40, e.stripe), (40, 8, e.stream), (48, 9, e.from_)])))

/-- Codeword 9: the namespace table; entry n − 1 is namespace n (log 93). -/
def recordNs (r : CkptRec) : Nat :=
  pack ((List.range 16).map (fun i =>
    let n := r.ns.find (i + 1)
    let extents := (n.map (fun n => n.extents)).getD []
    (2048 * i, 2048, pack ([(0, 64, (n.map (fun n => n.size)).getD 0), (64, 8, ((r.epochs.find (i + 1)).getD 0).toNat), (72, 8, extents.length)]
      ++ extents.mapIdx (fun k e => (80 + 56 * k, 56, extentBits e))))))

/-- Codeword 10: the reclaim state (R282). -/
def recordReclaim (r : CkptRec) : Nat :=
  pack [(0, 16, 1), (16, 1, if r.sealed then 1 else 0), (24, 8, r.failed.length), (32, 56, extentBits r.tableExtent), (96, 32, r.q),
    (128, 32, r.spareFormat), (160, 48, r.sealedOpt.toNat), (256, 64, r.moved), (512, 4096, bitSet r.failed), (4608, 4096, bitSet r.rebuilt)]

/-- Codeword 11: the stop body (R304). -/
def recordStop (r : CkptRec) : Nat :=
  if r.stop then
    pack [(0, 16, 1), (16, 8, 1), (24, 1, r.stopPort.getD 0), (32, 48, r.prepareOpt.toNat), (80, 64, r.prepareCkpt), (144, 13, r.witnessOk),
      (160, 8, r.maxTemp.toNat), (192, 32, r.prepareMs), (512, 4096, bitSet r.witnessFailed)]
  else 0

/-- Codeword k of a record; that of codewords 1 to 8 is a part of the root table. -/
def recordWord (r : CkptRec) (k : Nat) : Nat :=
  let body (k : Nat) : Nat :=
    if k = 0 then recordHead r
    else if k ≤ 8 then dirTable ((r.roots.filter (fun e => e.1 / 256 = k - 1)).map (fun e => (e.1 % 256, e.2)))
    else if k = 9 then recordNs r
    else if k = 10 then recordReclaim r
    else if k = 11 then recordStop r
    else 0
  if k = 0 then body 0 + crc32c ((List.range 12).flatMap (fun j => bytesOf (body j) 4092)) <<< 32736 else body k

/-! ### Log and health codewords -/

/-- Codeword 0 of a health snapshot (R446). -/
def healthWord (x : OnFlash) (h : Health) : Nat :=
  withCrc (pack ([(0, 16, 1), (16, 48, x.opt.toNat), (64, 32, x.pcc), (96, 64, h.l0), (160, 64, h.l1), (224, 64, h.l2), (288, 64, h.l3),
    (352, 64, h.l4), (416, 64, h.uncorrectable)] ++ (List.range 34).map (fun i => (480 + 32 * i, 32, (h.bins.find i).getD 0))))

/-! ### Codewords -/

/-- A stored block as data and metadata (R22, R225). -/
def userWord (addr : Nat) (e : SlotEntry) (i : Nat) : Nat :=
  let fields (zero poisoned : Bool) : Nat := userFields e.key i zero poisoned e.stamp.toNat e.epoch.toNat
  match e.blocks[i]? with
  | some (.cipher k b) => cwWord .user addr (fields false false) (encryptUnit k (16 * gkeyGran e.key + i) b).toNat
  | some .zero => cwWord .user addr (fields true false) 0
  | some .poisoned => cwWord .user addr (fields false true) 0
  | none => cwWord .filler addr 0 0

/-- Data and metadata of codeword k of a set that is no parity set. -/
def Dev.memberWord (s : Dev) (place : Nat) (x : OnFlash) (k : Nat) : Nat :=
  let addr := place * 16 + k
  if k + 1 = s.codewords then cwWord .system addr 0 (s.footer place x)
  else
    let system : Option Nat := match x.kind with
      | .map => (x.copies[k]?).map pageData
      | .checkpoint => if k < 16 then (s.nand.recs.find? (fun r => r.places.contains place)).map (fun r => recordWord r k) else none
      | .log => if 128 * k < x.events.length then some (pack (((x.events.drop (128 * k)).take 128).mapIdx (fun i e => (256 * i, 256, eventBytes e)))) else none
      | .health => if k = 0 then x.snap.map (healthWord x) else none
      | _ => none
    match x.kind, system with
    | .data, _ => (match x.slots[k / 16]? with
        | some e => userWord addr e (k % 16)
        | none => cwWord .filler addr 0 0)
    | _, some d => cwWord .system addr 0 d
    | _, none => cwWord .filler addr 0 0

/-- Data and metadata of codeword k of a set: a parity set's are the XOR of those of the data sets it covers (R232). -/
def Dev.setWord (s : Dev) (place : Nat) (x : OnFlash) (k : Nat) : Nat :=
  if x.kind == .parity && k + 1 != s.codewords then
    (s.nand.sets.filter (fun e => x.covered.contains e.2.seq)).foldl (fun a e => a ^^^ s.memberWord e.1 e.2 k) 0
  else s.memberWord place x k

/-- The witness line at a set's place, if it is one. -/
def Dev.lineAt (s : Dev) (place : Nat) : Option Witness :=
  (s.witnesses (Pga.dieLun place)).find? (fun w => w.which = Pga.block place && w.wl = Pga.wl place)

/-- Codeword k of a witness line: raw pattern that runs on across codewords, then the footer (R243). -/
def Dev.lineCodeword (s : Dev) (place : Nat) (w : Witness) (k : Nat) : Nat :=
  let n := s.get CD_GEOMETRY.codeword_bytes
  if k + 1 = s.codewords then scramble (place * 16 + k) n (encodeWord s.bitsPerCell (cwWord .system (place * 16 + k) 0 (s.witnessFooter w)))
  else bitsOf (prbsBits (prbsSeed (place * 16)) (8 * n * (k + 1))) (8 * n * k) (8 * n)

/-- The bytes that the cells of a codeword hold: encoded and scrambled, and every bit 1 where nothing has been programmed. -/
def Dev.cells (s : Dev) (addr : Nat) : Nat :=
  let place := Pga.set (addr / 16)
  let n := s.get CD_GEOMETRY.codeword_bytes
  match s.lineAt place, s.nand.sets.find place with
  | some w, _ => s.lineCodeword place w (cwIndex addr)
  | none, some x => scramble addr n (encodeWord s.bitsPerCell (s.setWord place x (cwIndex addr)))
  | none, none => 2 ^ (8 * n) - 1

end Sys2Proof.Machine
end

