-- ==== Sys2Proof/Machine/Media.lean ====
section
/-! DEFINITION. MS's commands: NEXT_OPERATION, TOKEN_CLAIM, TAIL_RETURN, RAMP_DELAY, RAMP_TICK, LUN_READY, OP_LIMIT_EXPIRY,
ERASE_SUSPEND, ERASE_RESUME, ZQ_SHORT_CALIBRATION, DATA_TRANSFER_END, PROG_AGE and IDLE_PAD (R178, R195, R205 to R220). -/

namespace Sys2Proof.Machine
open Reg

/-! ### The choice of R210 -/

/-- The group of a command's reads, and its place in the group. -/
def Dev.cmdGroup (s : Dev) (acc startNo : Nat) : Nat × Nat :=
  match s.cmd acc with
  | some c =>
    let urgentQueue := match s.queue c.port c.queue with | some q => q.cls == .urgent | none => false
    if c.rank == .master then (1, acc) else if c.rank == .urgent || urgentQueue then (2, startNo) else (4, startNo)
  | none => (4, startNo)

/-- The group of a Reclaim unit's reads. -/
def Dev.unitGroup (s : Dev) (unit startNo : Nat) : Nat × Nat :=
  match s.rc.units.find? (fun u => u.id = unit) with
  | some u => if u.urgent || s.bit QE_PORT_SHARE.reclaim_urgent then (2, u.startNo) else (4, u.startNo)
  | none => (4, startNo)

/-- The group of a codeword request; a member read takes its parent's. -/
def Dev.reqGroup (s : Dev) (r : CwReq) : Nat × Nat :=
  let owner : CwReq := match r.who with
    | .member p => (s.cd.reqs.find? (fun (q : CwReq) => q.id = p)).getD r
    | _ => r
  match owner.who with
  | .reclaim u _ _ => s.unitGroup u owner.startNo
  | _ => s.cmdGroup owner.acc owner.startNo

/-- The lesser of two places in the order. -/
def first (a b : Nat × Nat) : Nat × Nat := if a.1 < b.1 || (a.1 = b.1 && a.2 ≤ b.2) then a else b

/-- A sealed set that group 3 takes (R210, R244, R441). -/
def Dev.setPresses (s : Dev) (x : WlSet) : Bool :=
  s.bm.pressured || x.aged || x.needed || 8 ≤ x.stream || x.kind == .witness || x.kind == .log || x.kind == .health

/-- The oldest sealed set of a LUN that waits for its program (R206, R210). -/
def Dev.oldestSet (s : Dev) (lun : Nat) : Option WlSet :=
  let seqs := (s.ms.ops.filter (fun o => o.lun = lun)).filterMap (fun o => match o.kind with | .program q => some q | _ => none)
  (seqs.filterMap (fun q => s.setOf q)).foldl (fun b x => match b with
    | none => some x
    | some y => if x.seq < y.seq then some x else some y) none

/-- An erase of block group b waits or runs on a LUN. -/
def Dev.eraseWaits (s : Dev) (lun b : Nat) : Bool := s.ms.ops.any (fun o => o.lun = lun && o.kind == .erase b)

/-- Erases that no sealed set waits on are held in Hasp Prepare (R221). -/
def Dev.eraseHeld (s : Dev) (lun b : Nat) : Bool :=
  s.pw.phase == .preparing && !s.ms.sets.any (fun x => x.st != .failed && Pga.dieLun x.place = lun && Pga.block x.place = b)

/-- The group and place of a queued operation; none where it cannot be taken now (R206, R210, R211, R221, R305). A ZQ calibration goes
first, and a Raw Read with the remaining reads (log 84). -/
def Dev.opGroup (s : Dev) (o : FlashOp) : Option (Nat × Nat) :=
  match o.kind with
  | .read _ _ _ reqs => some ((s.cd.reqs.filter (fun r => reqs.contains r.id)).foldl (fun b r => first b (s.reqGroup r)) (4, o.startNo + 2 ^ 64))
  | .verify _ => some (0, 0)
  | .program q =>
    match s.oldestSet o.lun with
    | some x =>
      if x.seq != q || s.bit PW_STATE.prog_hold || s.eraseWaits o.lun (Pga.block x.place) then none
      else some (if s.setPresses x then 3 else 5, q)
    | none => none
  | .erase b =>
    if s.bit PW_STATE.prog_hold || s.eraseHeld o.lun b then none
    else match s.oldestSet o.lun with
      | some x => some (if Pga.block x.place = b && s.setPresses x then (3, x.seq) else (6, o.id))
      | none => some (6, o.id)
  | .raw _ _ => some (4, o.startNo)
  | .zq => some (0, 0)

/-- What a LUN may take: inside a suspended erase only the reads that were queued at the suspend (R204, R212). -/
def Dev.queuedOps (s : Dev) (lun : Nat) : List FlashOp :=
  let q := s.ms.ops.filter (fun o => o.lun = lun && o.st == .queued)
  match s.suspendedOp lun with
  | some e => q.filter (fun o => e.readsLeft.contains o.id)
  | none => q

/-- The LUN's next operation by R210. -/
def Dev.chooseOp (s : Dev) (lun : Nat) : Option FlashOp :=
  ((s.queuedOps lun).filterMap (fun o => (s.opGroup o).map (fun g => (g, o)))).foldl (fun b x => match b with
    | none => some x
    | some y => if first x.1 y.1 = x.1 && x.1 != y.1 then some x else some y) none |>.map (fun x => x.2)

/-- A program first moves its data; every other operation goes to the array. -/
def Dev.beginOp (s : Dev) (o : FlashOp) : Dev :=
  match o.kind with
  | .program q =>
    let o := { o with st := OpState.loading, kib := s.opKib o.kind }
    ((s.modOp o.id (fun _ => o)).modSet q (fun x => { x with st := .programming })).startKib o
  | _ => s.tryStart o

/-- What the LUN's present operation still needs to go on. -/
def Dev.continueOp (s : Dev) (o : FlashOp) : Dev :=
  match o.st with
  | .waiting _ => s.tryStart o
  | .loading => if o.kib = 0 then s.tryStart o else s.startKib o
  | .unloading => s.startKib o
  | _ => s

/-- MS schedules: system work only, or all of it (R202). -/
def Dev.msWorks (s : Dev) : Bool := !s.isDead && 2 ≤ s.get MS_STATUS.state && s.get MS_STATUS.state ≤ 5

/-- NEXT_OPERATION: a LUN takes its next operation, or goes on with the one it has. -/
def execNextOperation (channel lun : Nat) (s : State) : Res :=
  act s (fun d => d.msWorks && channel < 128 && lun < 32 && !d.lunFailed (channel * 32 + lun)) (fun d =>
    match d.activeOp (channel * 32 + lun) with
    | some o => d.continueOp o
    | none =>
      match d.chooseOp (channel * 32 + lun) with
      | some o => d.beginOp o
      | none => d)

/-! ### Tokens -/

/-- TOKEN_CLAIM (R217). -/
def execTokenClaim (op : Nat) (s : State) : Res :=
  actOn s (fun d => if d.isDead then none else (d.ms.ops.find? (fun o => o.id = op)).bind (fun o => o.tokenWait)) (fun d t =>
    if d.expired t (d.get MS_PROG_CFG.token_wait_us) then d.claim op else d)

/-- TAIL_RETURN: the oldest tail ends (R215). -/
def execTailReturn (s : State) : Res :=
  actOn s (fun d => if d.isDead then none else d.ms.tails.head?) (fun d t =>
    if d.expired t (d.get MS_COST_TAIL.tail_us) then
      (d.unhold (d.get MS_COST_TAIL.tail_ma)).modMs (fun m => { m with tails := m.tails.tail })
    else d)

/-- The ramp's ceiling after t whole ms (R219). -/
def Dev.rampCeiling (s : Dev) (t : Nat) : Nat :=
  let ramp := max (s.get MS_RAMP_CFG.ramp_ms) 1
  let start := s.get MS_RAMP_CFG.start_pct
  s.get MS_BUDGET.budget_ma * (start * ramp + (100 - start) * min t ramp) / (100 * ramp)

/-- The ceiling rises; the ramp's end raises source 77. -/
def Dev.setCeiling (s : Dev) (n : Nat) : Dev :=
  let s := s.put MS_LEDGER.ceiling_ma n
  if n < s.get MS_BUDGET.budget_ma then s.flag MS_STATUS.ramp true
  else if s.bit MS_STATUS.ramp then (s.flag MS_STATUS.ramp false).raise (Irq.ms 4) else s

/-- RAMP_DELAY (R219). -/
def execRampDelay (s : State) : Res :=
  actOn s (fun d => d.ms.fphyAt) (fun d t =>
    if d.ms.rampAt.isNone && d.expired t (msTicks (d.get MS_RAMP_CFG.delay_ms)) then
      (d.modMs (fun m => { m with rampAt := some d.now })).setCeiling (d.rampCeiling 0)
    else d)

/-- RAMP_TICK: a whole ms of the ramp has passed (R219). -/
def execRampTick (s : State) : Res :=
  actOn s (fun d => d.ms.rampAt) (fun d t =>
    if d.bit MS_STATUS.ramp then d.setCeiling (max (d.get MS_LEDGER.ceiling_ma) (d.rampCeiling ((d.now - t) / 1000))) else d)

/-! ### Ends of array operations and transfers -/

/-- A program, or the footer verify after it, failed: a witness line is left as it is (R244), any other set as R208 states. -/
def Dev.setNotProgrammed (s : Dev) (q : Nat) (status : Bool) : Dev :=
  match (s.setOf q).bind (fun x => x.line.map (fun w => (x, w))) with
  | some (x, w) =>
    let lun := Pga.dieLun x.place
    ((s.countFail MS_FAILS.prog_fails lun status).dropSet q).lineDone lun w false
  | none => s.programFailed q status

/-- An erase failed: a witness block group is replaced, and the line that waited for it takes another place (R208, R242). -/
def Dev.blockNotErased (s : Dev) (lun b : Nat) : Dev :=
  if (s.entry lun b).state == .witness then
    let bound := s.ms.sets.filter (fun x => x.kind == .witness && Pga.dieLun x.place = lun && Pga.block x.place = b)
    let s := (s.eraseFailed lun b).replaceWitness lun b
    s.each bound (fun s x => s.queueWitness lun ((x.line.map (fun w => w.reason)).getD 1))
  else s.eraseFailed lun b

/-- A read's array time is over: its column is set, and its data waits for the channel. -/
def Dev.beginUnload (s : Dev) (o : FlashOp) (footer : Bool) : Dev :=
  let o := { o with st := OpState.unloading, kib := s.opKib o.kind, footer := footer }
  ((s.issue o.lun 8).modOp o.id (fun _ => o)).startKib o

/-- A read is queued once more (R208). -/
def Dev.readAgain (s : Dev) (o : FlashOp) : Dev :=
  s.modOp o.id (fun o => { o with
    st := .queued
    retried := true
    resetting := false
    cost := 0 })

/-- A sweep of a witness line for itself: it decodes nothing and can lose no tier. -/
def Requester.sweeps : Requester → Bool
  | .sweep _ => true
  | .interval _ => true
  | .fresh _ => true
  | _ => false

/-- The witness line that a request sweeps: its own, or for an L4 the newest of the codeword's LUN. -/
def Dev.sweptPlace (s : Dev) (r : CwReq) : Option Nat :=
  if r.who.sweeps then some (r.addr / 16) else s.witnessPlace (Pga.dieLun (r.addr / 16))

/-- A request's read has been moved: its tier's next read, or its decode (R250). -/
def Dev.readMoved (s : Dev) (id : Nat) : Dev :=
  match s.cd.reqs.find? (fun r => r.id = id) with
  | none => s
  | some r =>
    if r.st != .reading then s
    else if r.sweep = 1 then s.sweepDone r
    else if 1 < r.sweep then
      let r := { r with sweep := r.sweep - 1 }
      match s.sweptPlace r with
      | some w => (s.modReq id (fun _ => r)).issueSweep w r
      | none => s.reqEnded r false
    else if 0 < r.left then
      let r := { r with left := r.left - 1 }
      (s.modReq id (fun _ => r)).issueRead r
    else s.modReq id (fun r => { r with st := .decoding })

/-- A request's read has failed twice: its tier is lost, while a sweep of a witness line goes on (R208, R252, R253). -/
def Dev.readLost (s : Dev) (id : Nat) : Dev :=
  if s.cd.reqs.any (fun r => r.id = id && r.who.sweeps) then s.readMoved id
  else s.modReq id (fun r => { r with st := .decoding, left := 0, sweep := 0, dead := true })

/-- An operation has failed by its kind after a reset (R208): a read is issued once more. A suspended erase of the LUN that the reset
cut short is made again (R213). -/
def Dev.opTimedOut (s : Dev) (o : FlashOp) : Dev :=
  let s := match s.suspendedOp o.lun with
    | some e => s.modOp e.id (fun e => { e with st := .queued, ran := 0, suspends := 0, readsLeft := [] })
    | none => s
  match o.kind with
  | .read _ _ _ reqs => if o.retried then (s.dropOp o.id).each reqs (fun s r => s.readLost r) else s.readAgain o
  | .raw _ i => if o.retried then (s.dropOp o.id).answer .ms i 2 0 0 else s.readAgain o
  | .verify q => if o.retried then (s.dropOp o.id).setNotProgrammed q false else s.readAgain o
  | .program q => (s.dropOp o.id).setNotProgrammed q false
  | .erase b => (s.dropOp o.id).blockNotErased o.lun b
  | .zq => s.dropOp o.id

/-- Set Features has ended: the read goes to the array (R205). -/
def Dev.refsSet (s : Dev) (o : FlashOp) : Dev :=
  let o := { o with st := OpState.queued, cost := 0 }
  (s.modOp o.id (fun _ => o)).tryStart o

/-- An array operation has ended with this status. -/
def Dev.arrayEnded (s : Dev) (o : FlashOp) (pass footerOk : Bool) : Dev :=
  match o.kind with
  | .read _ _ _ _ | .raw _ _ => s.beginUnload o false
  | .verify _ => s.beginUnload o footerOk
  | .program q =>
    if pass then
      (s.modOp o.id (fun o => { o with kind := .verify q, st := .queued, cost := 0 })).modSet q (fun x => { x with st := .programmed })
    else ((s.dropOp o.id).setNotProgrammed q true).stir
  | .erase b => (if pass then (s.dropOp o.id).eraseDone o.lun b else (s.dropOp o.id).blockNotErased o.lun b).stir
  | .zq => s.dropOp o.id

/-- A LUN is ready: FC reads its status, its tokens come back, and the tail of an array operation begins (R195, R206, R215). -/
def Dev.opReady (s : Dev) (o : FlashOp) (pass footerOk : Bool) : Dev :=
  let s := (s.issue o.lun 5).unhold o.cost
  if o.st == .setting then s.refsSet o
  else if o.resetting then (s.takeTail.opTimedOut o).stir
  else if o.kind == .zq then s.dropOp o.id
  else s.takeTail.arrayEnded o pass footerOk

/-- LUN_READY (R206, R208): a LUN's operation ends. pass is its status; footerOk whether a footer verify read will decode at L0. -/
def execLunReady (channel lun : Nat) (pass footerOk : Bool) (s : State) : Res :=
  actOn s (fun d => d.ms.ops.find? (fun o => o.lun = channel * 32 + lun && (o.st == .array || o.st == .setting)
      && channel < 128 && lun < 32 && !d.isDead)) (fun d o => d.opReady o pass footerOk)

/-- A Raw Read's bytes are in: those the cells hold, but for the bits that the cells read wrong (R223). -/
def Dev.rawDone (s : Dev) (addr i : Nat) : Dev :=
  match s.descOf .ms i with
  | none => s
  | some d =>
    let n := s.get CD_GEOMETRY.codeword_bytes
    let wrong := ofBytes (d.wrong.flatMap (fun x => bytesOf x.toNat 64))
    (s.writeBuffer (bodyAt d.entry 16 64) (bytesOf (s.cells addr ^^^ wrong) n) 0x34).answer .ms i 0 n 0

/-- A set's footer has been read back (R206). The verify of a witness line goes on with the sweep that finds its valleys (R244). -/
def Dev.footerRead (s : Dev) (x : WlSet) (ok : Bool) : Dev :=
  if !ok then (s.setNotProgrammed x.seq false).stir
  else if x.kind == .witness then s.startSweep x.place s.sweepLevel 0 (.fresh x.seq)
  else (s.setVerified x).stir

/-- The last KiB of a transfer has been moved. -/
def Dev.transferDone (s : Dev) (o : FlashOp) : Dev :=
  match o.kind with
  | .read _ _ _ reqs => s.dropOp o.id |>.each reqs (fun s r => s.readMoved r)
  | .raw a i => (s.dropOp o.id).rawDone a i
  | .verify q =>
    match s.setOf q with
    | some x => (s.dropOp o.id).footerRead x o.footer
    | none => s.dropOp o.id
  | .program _ => s.tryStart o
  | .erase _ | .zq => s

/-- DATA_TRANSFER_END: a KiB of a transfer ends, and with the last one the transfer (R204, R206, R215). -/
def execDataTransferEnd (channel lun : Nat) (s : State) : Res :=
  actOn s (fun d => d.ms.ops.find? (fun o => o.lun = channel * 32 + lun && o.moving && channel < 128 && lun < 32 && !d.isDead)) (fun d o =>
    let n := { o with
      moving := false
      kib := o.kib - 1
      begun := o.kib != 1
      held := none }
    let d := (d.unhold (d.get MS_COST_XFER.xfer_ma)).modOp o.id (fun _ => n)
    if n.kib = 0 then d.transferDone n else d.startKib n)

/-! ### Limits, suspends, calibration -/

/-- The limit of an operation in ticks, time spent suspended apart (R209); a calibration has none. -/
def Dev.opLimit (s : Dev) (o : FlashOp) : Option Nat :=
  if o.resetting then some (msTicks (s.get MS_OP_LIMIT.reset_ms))
  else match o.kind with
    | .read _ _ _ _ | .verify _ | .raw _ _ => some (msTicks (s.get MS_OP_LIMIT.read_ms))
    | .program _ => some (msTicks (s.get MS_OP_LIMIT.prog_ms))
    | .erase _ => some (msTicks (s.get MS_OP_LIMIT.erase_ms) - o.ran)
    | .zq => none

/-- An operation overran: MS issues Reset LUN; a LUN that is not ready within reset_ms fails (R208). -/
def Dev.opOverran (s : Dev) (o : FlashOp) : Dev :=
  if o.resetting then s.failLun o.lun 2
  else
    let c := o.lun / 32
    let s := (s.addSat MS_OP_TIMEOUTS.timeouts 1).addSat (fcReg c FC_COUNTS.timeouts) 1
    let s := (s.raise (Irq.ms 2)).raise (Irq.fc c)
    let s := s.modPw (fun w => { w with hasp := w.hasp.map (fun h => { h with resetSeen := true }) })
    let o := { o with resetting := true }
    (s.modOp o.id (fun _ => o)).confirmReset o

/-- OP_LIMIT_EXPIRY (R208, R209): a LUN's operation op, or the reset after it, has run for its limit. -/
def execOpLimitExpiry (channel lun op : Nat) (s : State) : Res :=
  actOn s (fun d => d.ms.ops.find? (fun o => o.id = op && o.lun = channel * 32 + lun && o.st == .array && channel < 128 && lun < 32 && !d.isDead
      && (match d.opLimit o with | some l => d.expired o.start l | none => false))) (fun d o => d.opOverran o)

/-- The reads of groups 1, 2 and 4 that wait on a LUN, in R210 order (R212). -/
def Dev.waitingReads (s : Dev) (lun : Nat) : List FlashOp :=
  let rs := (s.ms.ops.filter (fun o => o.lun = lun && o.st == .queued)).filterMap (fun o => match o.kind with
    | .read _ _ _ _ => (s.opGroup o).map (fun g => (g, o))
    | _ => none)
  (sortBy (fun a b => first a.1 b.1 = a.1) rs).map (fun x => x.2)

/-- An erase suspends for the reads that wait, unless it had ended. -/
def Dev.suspendOp (d : Dev) (o : FlashOp) (complete : Bool) : Dev :=
  let reads := d.waitingReads o.lun
  if reads.isEmpty || !d.expired o.start (d.get MS_SUSPEND_CFG.resume_min_us) || d.get MS_SUSPEND_CFG.max_suspends ≤ o.suspends then d
  else
    let d := d.issue o.lun 13
    if complete then d.opReady o true false
    else
      let n := { o with
        st := OpState.suspended
        ran := o.ran + (d.now - o.start)
        suspends := o.suspends + 1
        readsLeft := (reads.take (d.get MS_SUSPEND_CFG.per_suspend)).map (fun r => r.id) }
      ((d.unhold o.cost).modOp o.id (fun _ => n)).add MS_SUSPENDS.suspends 1

/-- ERASE_SUSPEND (R212, R213); complete: the status shows that the erase had finished. -/
def execEraseSuspend (channel lun : Nat) (complete : Bool) (s : State) : Res :=
  actOn s (fun d => d.ms.ops.find? (fun o => o.lun = channel * 32 + lun && o.kind.isErase && !o.resetting && o.st == .array
      && channel < 128 && lun < 32 && !d.isDead)) (fun d o => d.suspendOp o complete)

/-- ERASE_RESUME: the reads of the suspend are done; ahead of any claim, as soon as its cost fits (R212, R217, R305). -/
def execEraseResume (channel lun : Nat) (s : State) : Res :=
  actOn s (fun d => if d.isDead || 128 ≤ channel || 32 ≤ lun then none else (d.suspendedOp (channel * 32 + lun)).filter (fun o => d.mayResume o))
    (fun d o =>
      let cost := d.get MS_COST_ERASE.erase_ma
      ((d.hold cost).modOp o.id (fun o => { o with st := .array, start := d.now, cost := cost, readsLeft := [] })).issue o.lun 14)

/-- ZQ_SHORT_CALIBRATION: the interval has passed, and every LUN of the channel gets its calibration (R195, R215). -/
def execZqShortCalibration (channel : Nat) (s : State) : Res :=
  actOn s (fun d => d.ms.zq.find channel) (fun d t =>
    if d.get (fcReg channel FC_STATUS.state) = 4 && d.msWorks && d.expired t (msTicks (d.get (fcReg channel FC_ZQ_CFG.zq_interval_ms))) then
      let luns := d.goodLuns.filter (fun l => l / 32 = channel && !d.ms.ops.any (fun o => o.lun = l && o.kind == .zq))
      (d.modMs (fun m => { m with zq := m.zq.put channel d.now })).each luns (fun d l => d.queueOp l .zq 0 0)
    else d)

/-! ### Sealed sets that age, open sets that idle -/

/-- PROG_AGE (R211). -/
def execProgAge (set : Nat) (s : State) : Res :=
  actOn s (fun d => if d.isDead then none else d.setOf set) (fun d x =>
    if d.expired x.sealedAt (msTicks (d.get MS_PROG_CFG.prog_age_ms)) then d.modSet set (fun x => { x with aged := true }) else d)

/-- IDLE_PAD (R178). -/
def execIdlePad (stream : Nat) (s : State) : Res :=
  actOn s (fun d => if d.isDead then none else d.openSet stream) (fun d o =>
    if d.expired o.last (secTicks (d.get MP_CKPT_CFG.idle_pad_s)) then (d.modOpenSet stream (fun o => { o with sealing := true })).stir else d)

end Sys2Proof.Machine
end

