-- ==== Sys2Proof/Machine/PowerOps.lean ====
section
/-! DEFINITION. Power as shared operations: what a cut leaves (R176, R177, R383), the states in which the device is dark
(R285), an arrival (R286, R291, R490) and a PERST_N reset in Run (R290, R291). -/

namespace Sys2Proof.Machine
open Reg

/-! ### The code-flash array cut short (R383) -/

/-- A line whose program is cut short holds undefined data, unless that would pass for what the spec rules out. -/
def Dev.cutLine (s : Dev) (p i : Nat) (ok : Sector → Bool) : Dev :=
  let r := s.draw
  let x := s.sector p
  let y := { x with lines := x.lines.put i (Config.freeLine r.1) }
  if ok y then r.2.putSector p y else r.2

/-- A program leaves its line undefined and its sector's tag absent or unchanged; a mark cut short is no mark; an erase has
left its sector torn from its beginning. -/
def Dev.cutCodeFlash (s : Dev) : Dev :=
  match s.cf.op with
  | .program p i _ => s.cutLine p i (fun y => y.tag.isNone || y.tag == (s.sector p).tag)
  | .mark p i _ => s.cutLine p i (fun y => (markOf (y.line i)).isNone)
  | .erase _ _ | .none => s

/-- What the flash parts and the code flash hold after a loss of power or a reset. -/
def Dev.cut (s : Dev) : Dev := s.cutFlash.cutCodeFlash

/-! ### Dark states -/

/-- Every register, memory and counter is lost; the flash parts, the code flash and the levels at the pins are not. -/
def Dev.dark (s : Dev) (ph : PwPhase) : Dev := {
  nand := s.nand
  cf := { sectors := s.cf.sectors }
  out := s.out
  freeCtr := s.freeCtr
  pw := {
    phase := ph
    wakeStep := 0
    domains := []
    perstLow := s.pw.perstLow
    pwrFailLow := s.pw.pwrFailLow
    straps := s.pw.straps
    latchPower := false } }

/-- VDD_AON is removed: the cause latch goes too. -/
def Dev.lose (s : Dev) : Dev := s.cut.dark .unpowered


/-- An arrival: AON is released, the latch is set, the straps are sampled, and step 1 of the wake order begins. -/
def Dev.powerUp (s : Dev) (straps : BitVec 8) (wake : Bool) : Dev :=
  ((s.dark .waking).modPw (fun w => { w with
    wakeStep := 1
    domains := [(1, ⟨true, true, true, true⟩)]
    straps := straps
    latchPower := !wake
    latchWake := wake })).setReg PW_STRAPS.spare.addr straps.toNat

/-- WAKE_N held low for us microseconds with the wake detector armed. A pulse below 10 microseconds may or may not act. The
straps are sampled again; the board holds them (R286, R490). -/
def Dev.wakeSeen (s : Dev) (us : Nat) : Dev :=
  if us = 0 then s
  else if 10 ≤ us then s.powerUp s.pw.straps true
  else
    let r := s.draw
    if Config.freeBool r.1 then r.2.powerUp r.2.pw.straps true else r.2

/-- Stop: the wake detector is armed and the cause latch is clear (R301 step 7); a WAKE_N that is still low begins a wake (R302). -/
def Dev.enterStop (s : Dev) : Dev :=
  let low := s.pw.wakeUntil - s.now
  ((s.cut.dark .stopped).modPw (fun w => { w with detectorArmed := true })).wakeSeen low

/-- PERST_N low in Run: all logic but AON's is reset; AON keeps the latch and PW_STRAPS, and sets perst_reset. -/
def Dev.perstReset (s : Dev) : Dev :=
  let d := (s.cut.dark .waking).modPw (fun w => { w with
    perstLow := true
    perstReset := true
    latchPower := s.pw.latchPower
    latchWake := s.pw.latchWake })
  (d.setReg PW_STRAPS.spare.addr (s.reg PW_STRAPS.spare.addr)).put PW_BOOT_CAUSE.cause 0x40

end Sys2Proof.Machine
end

