-- ==== Sys2Proof/Machine/Hasp.lean ====
section
/-! DEFINITION. Hasp: STOP, HASP_READY_ANSWER, HASP_PREPARE_TIMEOUT, HASP_COMMIT_OVERRUN and the PW_CMD commands 2 to 4
(R150, R151, R186, R221, R299 to R304, R443). -/

namespace Sys2Proof.Machine
open Reg

/-! ### Prepare -/

/-- The unit IDs of the participants, in the order of R299. -/
def haspUnits : List Nat := [Src.qe, Src.bm, Src.mp, Src.ms, Src.cd, Src.rc, Src.ev, Src.bolt]

def Dev.modHasp (s : Dev) (f : Hasp → Hasp) : Dev := s.modPw (fun w => { w with hasp := w.hasp.map f })

/-- Start Prepare, for a Stop command or for none: every unit quiesces, and Prepare goes to policy firmware. -/
def Dev.beginPrepare (s : Dev) (acc : Option Nat) : Dev :=
  let h : Hasp := { acc := acc, start := s.now, prepareOpt := s.opt }
  let s := s.modPw (fun w => { w with
    phase := .preparing
    hasp := some h })
  let s := s.setReg PW_HASP_STATUS.outcome.addr 0
  let s := ((s.put PW_HASP_STATUS.outcome 1).put MS_STATUS.state 4).put RC_STATUS.state 3
  let s := s.modEv (fun e => { e with snapshotDone := false })
  ((s.raise Irq.prepareBegun).owe 1 1).stir

/-- Prepare may begin: the device is Running and no Hasp, activation or restart is under way (R303). -/
def Dev.mayPrepare (s : Dev) : Bool := s.pw.phase == .running && s.pw.hasp.isNone && s.cores.act.isNone && s.qe.hold.isNone

/-- STOP (R150, R300). -/
def execStop (acc : Nat) (s : State) : Res :=
  actOn s (fun d => if d.mayPrepare then d.startedOp acc 0x8a else none) (fun d _ =>
    (d.modCmd acc (fun c => { c with phase := .running })).beginPrepare (some acc))

/-- PW_CMD_BEGIN_PREPARE. -/
def execPwCmdBeginPrepare (s : State) : Res := act s (fun d => d.mayPrepare && d.wardenRuns) (fun d => (d.put PW_CMD.cmd 2).beginPrepare none)

/-! ### Release -/

/-- Prepare ends without Commit: every unit resumes, and QE accepts packets again. -/
def Dev.resumeUnits (s : Dev) : Dev :=
  let s := s.modPw (fun w => { w with
    phase := .running
    hasp := none })
  let s := (s.msRunning.put RC_STATUS.state 2).put EV_STATUS.state 1
  let s := s.modQe (fun e => { e with haspDrop := false })
  let s := s.modCores (fun c => { c with toSend := c.toSend.erase (1, 1) })
  ((s.put PW_HASP_STATUS.outcome 3).owe 2 0).raise Irq.haspReleased

/-- Release with the participants that refused: event, status, and the Stop's Busy (R300). -/
def Dev.haspRelease (s : Dev) (refused : Nat) (timedOut : Bool) : Dev :=
  match s.pw.hasp with
  | none => s
  | some h =>
    let unit := ((List.range 8).find? (fun i => refused.testBit i)).map (fun i => haspUnits.getD i 0)
    let id := unit.getD 0
    let s := (s.put PW_HASP_STATUS.refused refused).put PW_HASP_STATUS.refuser id
    let s := (s.flag PW_HASP_STATUS.timed_out timedOut).resumeUnits
    let s := s.event 0x0102 Src.wardenFw refused id (if timedOut then 1 else 0)
    let s := match h.acc with
      | some a => s.failWith a { status := St.busy, result2 := BitVec.ofNat 32 id } 0
      | none => s
    s.stir

/-- PW_CMD_RELEASE: Warden ends Prepare; no unit has refused. -/
def execPwCmdRelease (s : State) : Res :=
  act s (fun d => d.pw.phase == .preparing && d.wardenRuns) (fun d =>
    (d.put PW_CMD.cmd 3).haspRelease (d.get PW_HASP_STATUS.refused) false)

/-- HASP_PREPARE_TIMEOUT: a unit that has not answered counts as refusing (R300). -/
def execHaspPrepareTimeout (s : State) : Res :=
  actOn s (fun d => if d.pw.phase == .preparing then d.pw.hasp else none) (fun d h =>
    if d.expired h.start (msTicks (d.get PW_HASP_CFG.prepare_ms)) then d.haspRelease (255 - d.get PW_HASP_STATUS.ready) true else d)

/-! ### The answers (R299) -/

/-- What a participant answers now: ready, refuse, or not yet. -/
inductive Ready where
  | yes | no | notYet
deriving DecidableEq, Repr

def Ready.ofBool (b : Bool) : Ready := if b then .yes else .notYet

/-- An operation that R221 holds: an erase that no sealed set waits on and that has not begun. -/
def Dev.heldErase (s : Dev) (o : FlashOp) : Bool :=
  match o.kind with
  | .erase b => o.st == .queued && s.eraseHeld o.lun b
  | _ => false

/-- R221's condition. -/
def Dev.msQuiet (s : Dev) : Bool :=
  s.ms.ops.all (fun o => s.heldErase o) && s.ms.sets.isEmpty && s.get MS_LEDGER.held_ma = s.ms.tails.length * s.get MS_COST_TAIL.tail_ma

def Dev.rowsClosed (s : Dev) : Bool := s.ms.stripes.all (fun t => t.row.sets.isEmpty && t.unverified.isEmpty)

/-- Every completed write-class command is durable as a Flush of all namespaces would make it, and the map has been checkpointed
with an empty replay list (R150, R186). -/
def Dev.writesKept (s : Dev) (h : Hasp) : Bool :=
  s.bm.opens.isEmpty && s.bm.sealeds.isEmpty && (s.undurableIn 0).isEmpty && s.mp.dirty.isEmpty
    && h.prepareCkpt != 0 && s.mp.ckpt.isNone && h.prepareCkpt ≤ s.get MP_CKPT_SEQ.seq

/-- No Ladder Request is open, and no witness program pending (R244, R251, R299). -/
def Dev.ladderIdle (s : Dev) : Bool := s.cd.reqs.all (fun r => !r.posted && r.st != .waitingStep)
def Dev.witnessIdle (s : Dev) : Bool := s.goodLuns.all (fun l => !s.lineUnderway l)

/-- A participant's answer. -/
def Dev.haspAnswer (s : Dev) (h : Hasp) (unit : Nat) : Ready :=
  match unit with
  | 0 => if s.qe.cmds.all (fun c => some c.acc == h.acc) then .yes else .no
  | 1 => .ofBool (s.bm.opens.isEmpty && s.bm.sealeds.isEmpty)
  | 2 => .ofBool (s.writesKept h)
  | 3 => if s.pw.pwrFailLow || h.resetSeen then .no else .ofBool (s.writesKept h && s.msQuiet)
  | 4 => .ofBool (s.rowsClosed && s.ladderIdle && s.witnessIdle)
  | 5 => .ofBool (s.rc.units.all (fun u => !u.started))
  | 6 => .ofBool (s.ev.ring.isEmpty && s.ev.snapshotDone && !s.evBusy .log && !s.evBusy .health)
  | 7 => match h.boltAnswer with
    | some true => .yes
    | some false => .no
    | none => .notYet
  | _ => .notYet

/-- A unit's ready answer: its own state follows, and from QE's on every packet is dropped (R151). -/
def Dev.unitReady (s : Dev) (unit : Nat) : Dev :=
  let s := s.put PW_HASP_STATUS.ready (s.get PW_HASP_STATUS.ready + 2 ^ unit)
  if unit = 0 then s.modQe (fun e => { e with haspDrop := true })
  else if unit = 3 then s.put MS_STATUS.state 5
  else if unit = 6 then s.put EV_STATUS.state 2
  else s

/-! ### Commit (R301, R304) -/

/-- The hottest sensor in whole degrees. -/
def Dev.maxTemp (s : Dev) : BitVec 8 := BitVec.ofInt 8 ((s.hottest.getD 0) / 16)

/-- The stop record: the next checkpoint with the same root table, an empty replay list and the stop body. good and bad: the LUNs
whose stop witness has verified, and those whose stop witness has not. -/
def Dev.stopRecord (s : Dev) (h : Hasp) (good bad : List Nat) : CkptRec :=
  let r := s.ckptRecord { seq := s.get MP_CKPT_SEQ.seq + 1, cutSeq := s.ms.progSeq, replay := [], stop := true
                          opt := h.stopOpt, wall := s.wallNow }
  { r with
    stop := true
    pcc := h.stopPcc
    witnessFailed := bad
    witnessOk := good.length
    stopPort := (h.acc.bind (fun a => s.cmd a)).map (fun c => c.port)
    prepareOpt := h.prepareOpt
    prepareCkpt := h.prepareCkpt
    maxTemp := h.maxTemp
    prepareMs := ((h.commitStart.getD h.start) - h.start) / 1000 }

/-- Steps 5 and 6: the flash is deselected and the DRAM held in reset. -/
def Dev.dropMedia (s : Dev) : Dev :=
  ((s.flashOff.put DC_STATUS.state 0).modMem (fun m => { m with dram := [] })).modHasp (fun h => { h with commitStep := 6 })

/-- One copy of a record is programmed within the present step, at the next word line of a ring (R184, R301). -/
def Dev.putRecord (s : Dev) (ring : Nat) (r : CkptRec) : Dev :=
  let lun := s.ringLun ring
  match (if s.lunFailed lun then none else s.ringNext lun) with
  | none => s
  | some (b, wl) =>
    let place := Pga.mk lun b wl 0
    let s := (if wl = 0 then s.eraseNow lun b else s).takeSeq
    let x : WlSet := { seq := s.ms.progSeq, kind := .checkpoint, stream := 9, place := place, stripe := noStripe, slots := [], padded := false
                       sealedAt := s.now, successor := noStripe, ckptSeq := s.get MP_CKPT_SEQ.seq, opt := s.opt, record := some r }
    (s.modNand (fun n => { n with sets := n.sets.put place x.flash })).keepRecord r place

/-- Steps 3 and 4: with no copy of the record verified after its tries, a fatal fault. -/
def Dev.writeStop (s : Dev) (good bad : List Nat) (recordOk : Bool) : Dev :=
  match s.pw.hasp with
  | none => s
  | some h =>
    if recordOk then
      let r := s.stopRecord h good bad
      let s := (((s.putRecord 0 r).putRecord 1 r).put MP_CKPT_SEQ.seq r.seq).modHasp (fun h => { h with commitStep := 4 })
      (match h.acc with
       | some a => s.succeed a h.stopOpt.toNat 0
       | none => s).dropMedia
    else s.fatal Src.wardenFw Kind.stopRecord 0 0

/-- Commit begins: steps 1 and 2, then the rest. badWitness: the LUNs whose stop witness fails its verify. -/
def Dev.beginCommit (s : Dev) (badWitness : List Nat) (recordOk : Bool) : Dev :=
  let s := s.modPw (fun w => { w with phase := .committing })
  let s := (s.put PW_HASP_STATUS.outcome 2).modHasp (fun h => { h with
    commitStart := some s.now
    stopOpt := s.opt
    stopPcc := s.pcc
    maxTemp := s.maxTemp
    commitStep := 2 })
  let luns := s.goodLuns.filter (fun l => (s.witnessNext l).isSome)
  let bad := luns.filter (fun l => badWitness.contains l)
  let good := luns.filter (fun l => !badWitness.contains l)
  (s.each luns (fun s l => s.programWitness l 2 (good.contains l))).writeStop good bad recordOk

/-- HASP_READY_ANSWER: a participant answers once; the eighth ready answer begins Commit, a refusal releases. -/
def execHaspReadyAnswer (unit : Nat) (badWitness : List Nat) (recordOk : Bool) (s : State) : Res :=
  actOn s (fun d => if d.pw.phase == .preparing && !(d.get PW_HASP_STATUS.ready).testBit unit then d.pw.hasp else none) (fun d h =>
    match d.haspAnswer h unit with
    | .yes =>
      let d := d.unitReady unit
      if d.get PW_HASP_STATUS.ready = 255 then d.beginCommit badWitness recordOk else d
    | .no => d.haspRelease (2 ^ unit) false
    | .notYet => d)

/-- Step 4's completion has left: no completion of the Stop waits any longer. -/
def Dev.stopPosted (s : Dev) (h : Hasp) : Bool :=
  match h.acc with
  | some a => (s.cmd a).isNone
  | none => true

/-- PW_CMD_COMMIT_STEP_7: the switches open (R301, R285). -/
def execPwCmdCommitStep7 (s : State) : Res :=
  actOn s (fun d => if d.pw.phase == .committing then d.pw.hasp else none) (fun d h =>
    if h.commitStep = 6 && d.stopPosted h then d.enterStop else d)

/-- HASP_COMMIT_OVERRUN: a sequencing fault of step 3 and domain 0 (R289, R301). -/
def execHaspCommitOverrun (s : State) : Res :=
  actOn s (fun d => if d.pw.phase == .committing then d.pw.hasp.bind (fun h => h.commitStart) else none) (fun d t =>
    if d.expired t (msTicks (d.get PW_HASP_CFG.commit_ms)) then
      let d := (d.put PW_SEQ_FAULT.valid 1).put PW_SEQ_FAULT.step 3
      d.privileged { source := Src.pw, kind := Kind.sequencing, cls := 2, addr := 3 * 32, access := 11 }
    else d)

end Sys2Proof.Machine
end

