-- ==== Sys2Proof/Machine/Power.lean ====
section
/-! DEFINITION. Arrivals, the wake order, PERST_N, losses of VDD_AON and PWR_FAIL_N: POWER_ON, WAKE_N, PWR_GOOD, CLK_READY,
MEM_READY, SEQUENCING_FAULT, PERST_N_ASSERT, PERST_N_RELEASE, VDD_AON_LOSS, PWR_FAIL_N_ASSERT, PWR_FAIL_N_RELEASE and
PWR_FAIL_RESUME (R286 to R292, R302, R305, R490, R493, R495). -/

namespace Sys2Proof.Machine
open Reg

/-! ### Domains -/

def Dev.powerDomain (s : Dev) (d : Nat) : Domain := (s.pw.domains.find d).getD {}
def Dev.setPowerDomain (s : Dev) (d : Nat) (x : Domain) : Dev := s.modPw (fun w => { w with domains := w.domains.put d x })
/-- Change every domain that PW switches. -/
def Dev.allDomains (s : Dev) (f : Nat → Domain → Domain) : Dev :=
  s.each ((List.range 23).map (fun i => i + 2)) (fun s d => s.setPowerDomain d (f d (s.powerDomain d)))

/-- The order in which step 1 closes the switches (R288). -/
def switchOrder : List Nat := [2, 23, 24, 22, 7, 5, 6, 8, 9, 10, 11, 21, 12, 13, 14, 15, 16, 3, 4, 17, 18, 19, 20]
/-- The domain whose pwr_good step 1 waits for. -/
def Dev.nextSwitch (s : Dev) : Option Nat := switchOrder.find? (fun d => !(s.powerDomain d).pwrGood)
/-- Every domain's arrays are ready: step 3 has ended. -/
def Dev.arraysReady (s : Dev) : Bool := switchOrder.all (fun d => (s.powerDomain d).memReady)
/-- A step of the wake order runs. -/
def Dev.wakeAt (s : Dev) (n : Nat) : Bool := s.pw.phase == .waking && s.pw.wakeStep = n

/-! ### PWR_FAIL_N's effects in Run (R305) -/

/-- An assertion: confirms are withheld, it is counted and recorded, and in Prepare MS refuses (R302). -/
def Dev.pwrFail (s : Dev) : Dev :=
  let s := ((s.put PW_STATE.pwr_fail 1).put PW_STATE.prog_hold 1).addSat PW_PWRFAIL.count 1
  let s := s.modPw (fun w => { w with
    failSince := s.now
    highSince := none })
  let s := (s.event 0x0103 Src.pw (s.get PW_PWRFAIL.count) 0 0).raise Irq.pwrFail
  if s.pw.phase == .preparing then s.haspRelease 8 false else s

/-- Logic runs and Deadbolt has not been entered: PW acts on PWR_FAIL_N. -/
def Dev.pwrFailActs (s : Dev) : Bool := s.awake || s.pw.phase == .loadFailed

/-- PWR_FAIL_N_ASSERT: held low for ns. A pulse below 1 microsecond may or may not act (R495; log 15). -/
def execPwrFailNAssert (ns : Nat) (s : State) : Res :=
  act s (fun d => d.pw.phase != .unpowered && !d.pw.pwrFailLow) (fun d =>
    let r := d.draw
    let takes : Bool := 1000 ≤ ns || Config.freeBool r.1
    let d := if 1000 ≤ ns then d else r.2
    if takes then
      let d := d.modPw (fun w => { w with pwrFailLow := true })
      if d.pwrFailActs then d.pwrFail else d
    else d)

/-- PWR_FAIL_N_RELEASE: the length is recorded, and the 10 ms hold timer starts. -/
def execPwrFailNRelease (s : State) : Res :=
  act s (fun d => d.pw.pwrFailLow) (fun d =>
    let d := d.modPw (fun w => { w with pwrFailLow := false })
    if d.pwrFailActs then
      let ms := (d.now - d.pw.failSince) / 1000
      let d := (d.put PW_STATE.pwr_fail 0).put PW_PWRFAIL.longest_ms (max (d.get PW_PWRFAIL.longest_ms) (min ms 65535))
      let d := d.modPw (fun w => { w with highSince := some d.now })
      (d.event 0x0104 Src.pw ms 0 0).raise Irq.pwrFailEnd
    else d)

/-- PWR_FAIL_RESUME: high for 10 ms. -/
def execPwrFailResume (s : State) : Res :=
  actOn s (fun d => if d.pwrFailActs && !d.pw.pwrFailLow && d.bit PW_STATE.prog_hold then d.pw.highSince else none) (fun d t =>
    if d.expired t (msTicks 10) then
      ((d.put PW_STATE.prog_hold 0).modPw (fun w => { w with highSince := none })).stir
    else d)

/-! ### Arrivals (R286, R291, R490) -/

/-- A power-on that finds the device unpowered, or the power-on that State.reset stands in (log 3). -/
def Dev.mayPowerOn (s : Dev) : Bool :=
  s.pw.phase == .unpowered || (s.wakeAt 1 && switchOrder.all (fun d => !(s.powerDomain d).pwrGood))

/-- POWER_ON. Straps 4 to 7 other than 0 are outside specification. -/
def execPowerOn (straps : BitVec 8) (s : State) : Res :=
  if straps.toNat / 16 ≠ 0 then .fault .outsideSpecification
  else act s (fun d => d.mayPowerOn) (fun d => d.powerUp straps false)

/-- WAKE_N, held low for us: it acts in Stop, and in Commit where it is still low as step 7 arms the detector (R302). -/
def execWakeN (us : Nat) (s : State) : Res :=
  act s (fun d => d.pw.phase == .stopped || d.pw.phase == .committing) (fun d =>
    if d.pw.phase == .stopped then d.wakeSeen us
    else d.modPw (fun w => { w with wakeUntil := max w.wakeUntil (d.now + us) }))

/-! ### The wake order (R288) -/

/-- Step 4: logic is released, OPT counts from 0, and the boot sequence begins (R288, R292, R358, R434). -/
def Dev.releaseLogic (s : Dev) : Dev :=
  let r := s.draw
  let s := r.2.allDomains (fun d x => { x with released := !(17 ≤ d && d ≤ 20) })
  let up := (Config.freeWord r.1).toNat % 2 ^ 16
  let s := s.each (switchOrder.filter (fun d => !(17 ≤ d && d ≤ 20))) (fun s d => s.put (PW_DOMAIN.up_time.at (4 * (d - 1))) up)
  let s := s.modPw (fun w => { w with
    phase := .booting
    wakeStep := 4
    bootStep := 1
    stepStart := s.now
    step4 := s.now
    optSub := 0 })
  let s := (s.put PW_OPT.opt 0).modCores (fun c => { c with wdogStart := s.now })
  let s := s.modEv (fun e => { e with lastWrite := s.now })
  let s := s.put PW_BOOT_CAUSE.cause (s.get PW_BOOT_CAUSE.cause + (if s.pw.latchPower then 16 else 0) + (if s.pw.latchWake then 32 else 0))
  if s.pw.pwrFailLow then s.pwrFail else s

/-- PWR_GOOD: the awaited switch output has settled; after the last one step 2 begins. -/
def execPwrGood (s : State) : Res :=
  actOn s (fun d => if d.wakeAt 1 then d.nextSwitch else none) (fun d k =>
    let d := d.setPowerDomain k { d.powerDomain k with pwrGood := true }
    if d.nextSwitch.isNone then d.modPw (fun w => { w with wakeStep := 2 }) else d)

/-- CLK_READY. -/
def execClkReady (s : State) : Res :=
  act s (fun d => d.wakeAt 2) (fun d =>
    (d.allDomains (fun _ x => { x with clkReady := true })).modPw (fun w => { w with wakeStep := 3 }))

/-- MEM_READY: step 3 ends; step 4 follows where PERST_N is high. -/
def execMemReady (s : State) : Res :=
  act s (fun d => d.wakeAt 3 && !d.arraysReady) (fun d =>
    let d := d.allDomains (fun _ x => { x with
      pwrGood := true
      clkReady := true
      memReady := true })
    if d.pw.perstLow then d else d.releaseLogic)

/-- The step whose ready signal is awaited. -/
def Dev.awaits (s : Dev) : Bool := s.wakeAt 1 || s.wakeAt 2 || (s.wakeAt 3 && !s.arraysReady)

/-- A sequencing fault of the step that is awaited. -/
def Dev.sequenceFailed (d : Dev) : Dev :=
  let r := d.draw
  let any := switchOrder.getD ((Config.freeWord r.1).toNat % 23) 2
  let d := if d.wakeAt 1 then d else r.2
  let k := if d.wakeAt 1 then d.nextSwitch.getD 2 else any
  let step := d.pw.wakeStep - 1
  let d := ((d.put PW_SEQ_FAULT.valid 1).put PW_SEQ_FAULT.step step).put PW_SEQ_FAULT.domain k
  d.privileged { source := Src.pw, kind := Kind.sequencing, cls := 2, addr := k + step * 32, access := 11 }

/-- SEQUENCING_FAULT (R289): in step 1 the domain whose switch was closed; in steps 2 and 3 any one domain (log 6). -/
def execSequencingFault (s : State) : Res :=
  act s (fun d => d.awaits) (fun d => d.sequenceFailed)

/-! ### PERST_N (R290, R291) -/

/-- A port's configuration space, MSI-X table and PBA at their reset values; what QE keeps stays. -/
def Port.configReset (pt : Port) : Port :=
  { state := pt.state
    stray := pt.stray
    errSeq := pt.errSeq
    errLog := pt.errLog
    notices := pt.notices
    lost := pt.lost
    noticeMask := pt.noticeMask
    deadSignalled := pt.deadSignalled }

/-- The HP_ registers of port p but for its window translation entries. -/
def Dev.resetHp (s : Dev) (p : Nat) : Dev :=
  s.each [0, 4, 8, 12, 16, 20, 24] (fun s o => let a := 0x205000000 + p * 0x1000000 + o; s.setReg a (Regs.reset a))

/-- In Deadbolt PERST_N resets HCTL and HPHY only, and the endpoint returns. -/
def Dev.perstDead (s : Dev) : Dev :=
  (s.each s.portList (fun s p => (s.modPort p Port.configReset).resetHp p)).modPw (fun w => { w with perstLow := true })

def Dev.perstAssert (s : Dev) : Dev :=
  if s.isDead then (if s.logicOn then s.perstDead else s.modPw (fun w => { w with perstLow := true }))
  else if s.awake || s.pw.phase == .loadFailed then s.perstReset
  else s.modPw (fun w => { w with perstLow := true })

/-- PERST_N_ASSERT: low for us. A pulse below 100 microseconds may or may not act (R495). -/
def execPerstNAssert (us : Nat) (s : State) : Res :=
  act s (fun d => !d.pw.perstLow) (fun d =>
    if 100 ≤ us then d.perstAssert
    else
      let r := d.draw
      if Config.freeBool r.1 then r.2.perstAssert else r.2)

/-- PERST_N_RELEASE: step 4 follows where step 3 has ended; after a reset in Run, step 3 is performed first. -/
def execPerstNRelease (s : State) : Res :=
  act s (fun d => d.pw.perstLow) (fun d =>
    let d := d.modPw (fun w => { w with perstLow := false })
    if d.wakeAt 0 && d.pw.perstReset then d.modPw (fun w => { w with wakeStep := 3 })
    else if d.wakeAt 3 && d.arraysReady then d.releaseLogic else d)

/-! ### Loss of VDD_AON (R493) -/

/-- VDD_AON_LOSS. -/
def execVddAonLoss (s : State) : Res := act s (fun d => d.pw.phase != .unpowered) (fun d => d.lose)

end Sys2Proof.Machine
end

