-- ==== Sys2Proof/Machine/CodeFlash.lean ====
section
/-! DEFINITION. The code flash: CODEFLASH_SCAN, the command sequences PROGRAM_LINE, SECTOR_ERASE, CF_ERASE_SUSPEND,
CF_ERASE_RESUME and CF_RESET, CF_SEQUENCE_TIMEOUT and CF_OPERATION_DONE, and reads of the window (R363 to R383). -/

namespace Sys2Proof.Machine
open Reg

/-! ### The scan (R367) -/

/-- The scan's registers and map; the boot ROM reads the Deadbolt mark (R296 step 1). -/
def Dev.scan (s : Dev) : Dev :=
  let top := s.topGeneration
  let s := s.modCf (fun c => { c with map := s.scanMap })
  let s := ((s.put CF_GEN_NEXT.generation (top.1 + 1)).put CF_MAX_CYCLES.erases s.maxCycles).put CF_ROTATE.next ((top.2 + 1) % 512)
  let s := s.put CF_STATUS.scan_done 1
  let n (f : Sector → Bool) : Nat := (s.cf.sectors.filter (fun e => f e.2)).length
  let s := (s.put CF_SCAN.retired (n (fun x => 20000 ≤ x.erases))).put CF_SCAN.torn (n (fun x => !x.sealed))
  s.modPw (fun w => { w with mark := (s.marks.head?).map (fun m => m.2.2) })

/-- CODEFLASH_SCAN, at every release of CODEFLASH: boot step 1 ends with it. A calibration row whose CRC fails is fatal. -/
def execCodeflashScan (calibrationOk : Bool) (s : State) : Res :=
  act s (fun d => d.pw.phase == .booting && !d.bit CF_STATUS.scan_done) (fun d =>
    if calibrationOk then d.scan.endBootStep 1 else d.scan.fatal Src.codeFlash Kind.calibration 0 7)

/-! ### Reads of the window (R366, R368, R376) -/

/-- The window waits: the scan has not ended, or an operation runs. -/
def Dev.windowWaits (s : Dev) : Bool := !s.bit CF_STATUS.scan_done || s.cfRuns

/-- Serve a read or fetch of window address a. -/
def Dev.serveWindow (s : Dev) (w : Who) (fetch : Bool) (a size : Nat) : Dev :=
  let off := a - 0x10000000
  match s.cf.map.find (off / 65536) with
  | none => (s.contained Src.codeFlash Kind.unmappedAccess a (masterId w) (if fetch then 1 else 2)).emit (.busReply w false 0)
  | some p =>
    let l := (s.sector p).shown (off / 256 % 256)
    s.served w (bitsOf l.toNat (8 * (off % 256)) (8 * size))

/-- A read or fetch: it stalls while the window waits. -/
def Dev.readWindow (s : Dev) (w : Who) (fetch : Bool) (a size : Nat) : Dev :=
  if s.windowWaits then (s.modCf (fun c => { c with stalled := c.stalled ++ [(w, fetch, a, size)] })).flag CF_STATUS.waiting true
  else s.serveWindow w fetch a size

/-- The stalled accesses are served once the array can be read. -/
def Dev.unstall (s : Dev) : Dev :=
  if s.windowWaits then s
  else
    let l := s.cf.stalled
    let s := (s.modCf (fun c => { c with stalled := [] })).flag CF_STATUS.waiting false
    s.each l (fun s x => s.serveWindow x.1 x.2.1 x.2.2.1 x.2.2.2)

/-! ### Command writes (R371 to R376) -/

def programStart : List (Nat × Dword) := [(0x5550, 0xaa), (0x2aa8, 0x55), (0x5550, 0xa0)]
def eraseStart : List (Nat × Dword) := [(0x5550, 0xaa), (0x2aa8, 0x55), (0x5550, 0x80), (0x5550, 0xaa), (0x2aa8, 0x55)]

def Dev.endSequence (s : Dev) : Dev := s.modCf (fun c => { c with seq := [] })
/-- A sequence is abandoned, and the offending write ignored. -/
def Dev.seqError (s : Dev) : Dev := s.endSequence.flag CF_STATUS.seq_error true
/-- A recognised sequence ends without being started. -/
def Dev.refuseOp (s : Dev) : Dev := s.endSequence.flag CF_STATUS.refused true
/-- A write continues its sequence. -/
def Dev.continueSeq (s : Dev) (w : Nat × Dword) : Dev :=
  s.modCf (fun c => { c with
    seq := c.seq ++ [w]
    seqTick := s.now })

/-- An operation begins; Bolt watchdogs pause while it runs. -/
def Dev.beginCfOp (s : Dev) (op : CfOp) (code : Nat) : Dev :=
  let s := s.settleDogs.endSequence.modCf (fun c => { c with
    op := op
    resumedAt := none
    suspendAsked := false })
  (s.put CF_STATUS.op code).flag CF_STATUS.busy true

/-- The 64th data word: the line that holds the first one's offset is programmed in the selected sector. -/
def Dev.beginProgram (s : Dev) (base : Nat) (words : List Dword) : Dev :=
  let p := s.get CF_SECTOR_SEL.sector
  let i := base / 256 % 256
  if s.isMapped p && i = 255 then s.refuseOp
  else s.beginCfOp (.program p i (BitVec.ofNat 2048 (words.foldr (fun w a => w.toNat + 2 ^ 32 * a) 0))) 1

/-- The sixth write: the selected sector is erased; until the erase ends it is torn (R366). -/
def Dev.beginErase (s : Dev) : Dev :=
  let p := s.get CF_SECTOR_SEL.sector
  if s.isMapped p || 20000 ≤ (s.sector p).erases then s.refuseOp
  else
    let n := s.nextErases p
    (s.putSector p tornSector).beginCfOp (.erase p n) 2

/-- A data word of a program. -/
def Dev.dataWord (s : Dev) (off : Nat) (v : Dword) : Dev :=
  let got := s.cf.seq.drop 3
  let base := (match got.head? with
    | some w => w.1
    | none => off) % 65536
  if base % 256 = 0 && off % 65536 = base + 4 * got.length then
    if got.length = 63 then s.beginProgram base ((got.map (fun w => w.2)) ++ [v]) else s.continueSeq (off, v)
  else if v = 0xf0 then s.endSequence else s.seqError

/-- A write while the array is idle. -/
def Dev.idleWrite (s : Dev) (off : Nat) (v : Dword) : Dev :=
  let q := s.cf.seq
  if q.take 3 == programStart then s.dataWord off v
  else if v = 0xf0 then s.endSequence
  else if q == eraseStart then (if v = 0x30 then s.beginErase else s.seqError)
  else if (q ++ [(off, v)]).isPrefixOf programStart || (q ++ [(off, v)]).isPrefixOf eraseStart then s.continueSeq (off, v)
  else s.seqError

/-- The erase that runs is suspended, and the stalled reads go on. -/
def Dev.suspendErase (s : Dev) : Dev :=
  let s := s.settleDogs.modCf (fun c => { c with
    suspended := true
    suspendAsked := false })
  ((s.flag CF_STATUS.suspended true).flag CF_STATUS.busy false).unstall

/-- A 0xB0 while an erase runs: it waits until the erase has run 1 ms since its last resume (R375). -/
def Dev.askSuspend (s : Dev) : Dev :=
  match s.cf.resumedAt with
  | some t => if s.expired t 1000 then s.suspendErase else s.modCf (fun c => { c with suspendAsked := true })
  | none => s.suspendErase

/-- A suspend that waited, once 1 ms has run. -/
def Dev.dueSuspend (s : Dev) : Dev :=
  match s.cf.resumedAt with
  | some t => if s.cf.suspendAsked && s.expired t 1000 then s.suspendErase else s
  | none => s

/-- A 0x30 while an erase is suspended. -/
def Dev.resumeErase (s : Dev) : Dev :=
  let s := s.settleDogs.modCf (fun c => { c with
    suspended := false
    resumedAt := some s.now })
  (s.flag CF_STATUS.suspended false).flag CF_STATUS.busy true

/-- One 32-bit command write of Warden's at a window offset (R372, R373). -/
def Dev.cfWrite (s : Dev) (off : Nat) (v : Dword) : Dev :=
  match s.cf.op with
  | .none => s.idleWrite off v
  | .program _ _ _ | .mark _ _ _ => s.seqError
  | .erase _ _ =>
    if s.cf.suspended then (if v = 0x30 then s.resumeErase else if v = 0xf0 then s else s.seqError)
    else if v = 0xb0 then s.askSuspend else s.seqError

/-- Warden firmware or the boot ROM can write the window. -/
def Dev.cfOpen (s : Dev) : Bool := s.awake && !s.isDead && s.bit CF_STATUS.scan_done

/-- A write of Warden's to the window: one that is not of 32 bits matches no sequence (R372, R373). -/
def Dev.windowWrite (s : Dev) (off : Nat) (v : Dword) (size : Nat) : Dev := if size = 4 then s.cfWrite off v else s.seqError

/-- PROGRAM_LINE: the three unlock writes, then the 64 data words at the line's offsets. -/
def execProgramLine (off : Nat) (words : List Dword) (s : State) : Res :=
  act s (fun d => d.cfOpen) (fun d =>
    d.each (programStart ++ words.mapIdx (fun k w => (off + 4 * k, w))) (fun d w => d.cfWrite w.1 w.2))

/-- SECTOR_ERASE: five unlock writes, then 0x30 at any offset. -/
def execSectorErase (off : Nat) (s : State) : Res :=
  act s (fun d => d.cfOpen) (fun d => d.each (eraseStart ++ [(off, 0x30)]) (fun d w => d.cfWrite w.1 w.2))

/-- CF_ERASE_SUSPEND. -/
def execCfEraseSuspend (off : Nat) (s : State) : Res := act s (fun d => d.cfOpen) (fun d => d.cfWrite off 0xb0)
/-- CF_ERASE_RESUME. -/
def execCfEraseResume (off : Nat) (s : State) : Res := act s (fun d => d.cfOpen) (fun d => d.cfWrite off 0x30)
/-- CF_RESET. -/
def execCfReset (off : Nat) (s : State) : Res := act s (fun d => d.cfOpen) (fun d => d.cfWrite off 0xf0)

/-- CF_SEQUENCE_TIMEOUT: more than 100 microseconds since the last write of a sequence. -/
def execCfSequenceTimeout (s : State) : Res :=
  act s (fun d => !d.cf.seq.isEmpty && d.expired d.cf.seqTick 100) (fun d => d.seqError)

/-! ### The end of an operation (R366, R371, R374, R380) -/

/-- The array is idle again; a mark that waited for a program goes next. -/
def Dev.cfOpEnded (s : Dev) (us : Nat) : Dev :=
  let s := s.settleDogs.modCf (fun c => { c with
    op := .none
    suspendAsked := false
    resumedAt := none })
  let s := ((s.put CF_STATUS.op 0).flag CF_STATUS.busy false).put CF_OP_TIME.us us
  ((s.flag CF_STATUS.done true).raise Irq.cfDone).unstall

/-- CF_OPERATION_DONE: the running operation has ended after us microseconds of run time, at most R375's maximum. -/
def execCfOperationDone (us : Nat) (s : State) : Res :=
  act s (fun d => d.cfRuns && us ≤ 200000) (fun d =>
    match d.cf.op with
    | .none => d
    | .program p i l =>
      if us ≤ 600 then
        let d := d.putSector p ((d.sector p).program i l)
        let d := (if i = 255 then d.readTag p else d).cfOpEnded us
        match d.cf.markWaits with
        | some m => d.startMark m
        | none => d
      else d
    | .mark p i l =>
      if us ≤ 600 then (((d.putSector p ((d.sector p).program i l)).put CF_MARK_CFG.mark_written 1).cfOpEnded us) else d
    | .erase p n => ((d.putSector p { sealed := true, erases := n }).noteErase p n).cfOpEnded us)

end Sys2Proof.Machine
end

