-- ==== Sys2Proof/Machine/OnChip.lean ====
section
/-! DEFINITION. On-chip memories and DRAM: SP_CLEAR, MARCH, MARCH_DONE, RAW_WRITE, RAW_READ_TEST, DC_TEST_MASK, PATROL_SCRUB
and DRAM_TEMPERATURE_POLL (R385, R397 to R407). -/

namespace Sys2Proof.Machine
open Reg

/-- Warden's registers of the released domains can be written: Run, boot included, outside Deadbolt. -/
def Dev.wardenWrites (s : Dev) : Bool := s.awake && !s.isDead

/-! ### SP_CLEAR (R385) -/

/-- Clear the valid bit and the poison of n lines from line first on, within the memory of the first. -/
def Dev.clearSpLines (s : Dev) (first n : Nat) : Dev :=
  let r := s.region (first * 64)
  (s.modMem (fun m => { m with lines := m.lines.filter (fun e => !(first ≤ e.1 && e.1 < first + n && s.region (e.1 * 64) == r)) })).endReservations
    (fun k => first ≤ k && k < first + n)

/-- SP_CLEAR: a write of SP_CLEAR_CMD. -/
def execSpClear (v : Dword) (s : State) : Res :=
  act s (fun d => d.wardenWrites) (fun d =>
    let n := fld v 0 19
    let d := if 1 ≤ n && n ≤ 262144 then d.put SP_CLEAR_CMD.lines n else d
    if v.getLsbD 31 && (d.region (d.get SP_CLEAR_BASE.line * 64)).onChip then
      d.clearSpLines (d.get SP_CLEAR_BASE.line) (d.get SP_CLEAR_CMD.lines)
    else d)

/-! ### The march engine (R398 to R401) -/

/-- The first line and the number of lines of a region of SP_MARCH_CMD. -/
def marchRegion (r : Nat) : Nat × Nat :=
  if r < 64 then (0x000100000000 / 64 + r * 4096, 4096)
  else if r < 80 then (0x000101000000 / 64 + (r - 64) * 4096, 4096)
  else if r = 80 then (0x000102000000 / 64, 4096)
  else (0x000101800000 / 64, 8192)

/-- MARCH: a write of SP_MARCH_CMD. The Warden scratchpad is marched in preserving mode only. -/
def execMarch (v : Dword) (s : State) : Res :=
  act s (fun d => d.wardenWrites) (fun d =>
    let d := if fld v 0 8 ≤ 81 then d.put SP_MARCH_CMD.region (fld v 0 8) else d
    let d := d.flag SP_MARCH_CMD.preserving (v.getLsbD 8)
    let r := d.get SP_MARCH_CMD.region
    if v.getLsbD 31 && d.mem.march.isNone && (r != 81 || v.getLsbD 8) then
      ((((d.modMem (fun m => { m with march := some (r, v.getLsbD 8) })).put SP_STATUS.march_busy 1).put SP_MARCH_STATUS.region r).put
        SP_MARCH_STATUS.tested 0)
    else d)

/-- What a march leaves: a destructive one no valid line, a preserving one every line without poison. -/
def Dev.marched (s : Dev) (r : Nat) (preserving : Bool) : Dev :=
  let g := marchRegion r
  let hit (k : Nat) : Bool := g.1 ≤ k && k < g.1 + g.2
  if preserving then
    s.modMem (fun m => { m with lines := m.lines.map (fun e => if hit e.1 then (e.1, { e.2 with poisoned := false }) else e) })
  else (s.modMem (fun m => { m with lines := m.lines.filter (fun e => !hit e.1) })).endReservations hit

/-- The end of a march of region r, whose first failing line is the given one of the region. -/
def Dev.marchEnded (s : Dev) (r : Nat) (preserving : Bool) (failLine : Option Nat) : Dev :=
  let g := marchRegion r
  let s := ((s.marched r preserving).modMem (fun m => { m with march := none })).put SP_STATUS.march_busy 0
  let s := ((s.put SP_MARCH_STATUS.region r).put SP_MARCH_STATUS.tested g.2).flag SP_MARCH_STATUS.fail failLine.isSome
  let s := (s.put SP_MARCH_FAIL.line ((failLine.map (fun k => g.1 + k)).getD 0)).put SP_MARCH_STATUS.done 1
  let s := s.raise Irq.marchDone
  match failLine with
  | some k => s.fatal Src.march Kind.memoryTest ((g.1 + k) * 64) 10
  | none => s

/-- MARCH_DONE. -/
def execMarchDone (failLine : Option Nat) (s : State) : Res :=
  actOn s (fun d => if d.wardenWrites then d.mem.march else none) (fun d m =>
    if failLine.all (fun k => k < (marchRegion m.1).2) then d.marchEnded m.1 m.2 failLine else d)

/-! ### Raw line access and check symbols (R397) -/

/-- The line under test, where it is one of an on-chip memory. -/
def Dev.testLine (s : Dev) : Option Nat :=
  let a := s.get SP_TEST_ADDR.line * 64
  if (s.region a).onChip then some a else none

/-- RAW_WRITE: SP_TEST_CMD with go and op 0. -/
def execRawWrite (s : State) : Res :=
  actOn s (fun d => if d.wardenWrites then d.testLine else none) (fun d a =>
    let data := (List.range 16).foldr (fun k x => d.get (SP_TEST_DATA.data.at (4 * k)) + 2 ^ 32 * x) 0
    (d.put SP_TEST_CMD.op 0).putChip a (some { data := BitVec.ofNat 512 data, crc := BitVec.ofNat 32 (d.get SP_TEST_CRC.crc) }))

/-- The raw content of a line enters the test registers. -/
def Dev.rawReadLine (d : Dev) (a : Nat) : Dev :=
  let r := d.draw
  let free := (Config.freeLine r.1).toNat
  let d := if (d.chip a).isSome then d else r.2
  let data := ((d.chip a).map (fun l => l.data.toNat)).getD (free % 2 ^ 512)
  let crc := ((d.chip a).map (fun l => l.crc.toNat)).getD (free / 2 ^ 512 % 2 ^ 32)
  let d := d.each (List.range 16) (fun d k => d.put (SP_TEST_DATA.data.at (4 * k)) (bitsOf data (32 * k) 32))
  (d.put SP_TEST_CMD.op 1).put SP_TEST_CRC.crc crc

/-- RAW_READ_TEST: SP_TEST_CMD with go and op 1. What a line without its valid bit holds is open (log 6). -/
def execRawReadTest (s : State) : Res :=
  actOn s (fun d => if d.wardenWrites then d.testLine else none) (fun d a => d.rawReadLine a)

/-- DC_TEST_MASK: a write of the register by Warden. -/
def execDcTestMask (v : Dword) (s : State) : Res :=
  act s (fun d => d.wardenWrites) (fun d => (d.put DC_TEST_MASK.mask (fld v 0 16)).flag DC_TEST_MASK.armed (v.getLsbD 31))

/-! ### DRAM upkeep (R402, R407) -/

/-- One line read by the patrol: a correctable one is written back. The counts are the pass's corrected and
uncorrectable lines. -/
def Dev.scrubLine (x : Dev × Nat × Nat) (e : Nat × DramLine) : Dev × Nat × Nat :=
  let s := x.1
  let a := dramBase + 64 * e.1
  if s.isDead || e.2.bad = 0 && !e.2.poisoned then x
  else if e.2.poisoned || !oneDevice e.2.bad then (s.dramUncorrectable a 0x3b 9 false, x.2.1, x.2.2 + 1)
  else ((s.putDram a { e.2 with bad := 0 }).dramCorrected a 0x3b 9 false, x.2.1 + 1, x.2.2)

/-- One pass over the DRAM (R405). -/
def Dev.scrubPass (d : Dev) : Dev :=
  let x := d.mem.dram.foldl Dev.scrubLine (d, 0, 0)
  if x.1.isDead then x.1
  else
    let d := (x.1.modMem (fun m => { m with scrubOpt := d.optTicks })).addSat DC_SCRUB_STATUS.passes 1
    (d.event 0x0501 Src.dc (d.get DC_SCRUB_STATUS.passes) x.2.1 x.2.2).raise Irq.scrubDone

/-- PATROL_SCRUB: scrub_h hours of OPT have passed since the last pass. -/
def execPatrolScrub (s : State) : Res :=
  act s (fun d => d.wardenWrites && d.get DC_STATUS.state = 2
      && d.optExpired d.mem.scrubOpt (hourTicks (d.get DC_SCRUB_CFG.scrub_h))) (fun d => d.scrubPass)

/-- DRAM_TEMPERATURE_POLL: above 85 °C the channel's refresh rate is doubled. -/
def execDramTemperaturePoll (channel : Nat) (hot : Bool) (s : State) : Res :=
  act s (fun d => d.wardenWrites && d.get DC_STATUS.state = 2 && channel < 6) (fun d =>
    let rest := d.mem.hotChannels.filter (fun c => c != channel)
    d.modMem (fun m => { m with hotChannels := if hot then rest ++ [channel] else rest }))

end Sys2Proof.Machine
end

