-- ==== Sys2Proof/Machine/Faults.lean ====
section
/-! DEFINITION. The fault collector's commands: FAULT_MESSAGE, PRIVILEGED_FAULT, FT_ACK and FT_INJECT (R411 to R425). -/

namespace Sys2Proof.Machine
open Reg

/-- The class a checker may send with a kind (R412, R415). -/
def classOk (kind cls : Nat) : Bool :=
  if kind = Kind.lineCrc || kind = Kind.dramUncorrectable then cls ≤ 2
  else if kind = Kind.dramCorrected then cls = 0
  else if kind < 0x20 then cls = 1
  else cls = 2

/-- One of these commands fails because a line of a QE or BM memory that held its packet or data does; which is free (log 79). -/
def Dev.oneFails (s : Dev) (cs : List Command) (src : Nat) : Dev :=
  let r := s.choose ((cs.filter (fun c => !c.committed)).map (fun c => c.acc))
  match r.1 with
  | some a => (r.2.lineFails a src).stir
  | none => r.2

/-- What the unit of a memory does at the error that a Line CRC message tells of (R389). The memories whose lines stand in
State, the caches and the engines' tables need nothing more: their accesses complete, or are commands of their own. -/
def Dev.unitActs (s : Dev) (source kind cls : Nat) : Dev :=
  if kind != Kind.lineCrc || s.isDead then s
  else if source = Src.qeFifo && cls = 1 then s.oneFails s.qe.cmds source
  else if source = Src.qeDeficits && cls = 0 then s.loseDeficits
  else if source = Src.ingressStaging && cls = 1 then
    (s.oneFails (s.qe.cmds.filter (fun c => s.qe.grants.any (fun g => g.acc = c.acc))) source).raise Irq.stagingCrc
  else if source = Src.ingressStaging || source = Src.readStaging then s.raise Irq.stagingCrc
  else if source = Src.keySlots && cls = 1 then
    (let r := s.choose s.cx.slots.keys
     match r.1 with
     | some k => r.2.loseKey k
     | none => r.2)
  else if source = Src.shared || source = Src.mailbox then s.raise Irq.spCrc
  else s

/-- FAULT_MESSAGE: a checker's message in the layout of R411. A checker whose inject control is armed reports the injected
fault, and the control disarms (R424). -/
def execFaultMessage (msg : BitVec 78) (s : State) : Res :=
  let source := fld msg 0 10
  let kind := fld msg 10 6
  let cls := fld msg 16 2
  act s (fun d => d.logicOn && Src.listed source && Kind.known kind && !Kind.privileged kind && classOk kind cls) (fun d =>
    let i := d.injectAt source
    let m : FaultMsg := {
      source := source, kind := kind, cls := cls, addr := fld msg 18 48, master := fld msg 66 8, access := fld msg 74 4
      injected := i.1 }
    (i.2.unitActs source kind cls).faultMsg m)

/-- PRIVILEGED_FAULT: a privileged kind drives the AON latch. -/
def execPrivilegedFault (source kind : Nat) (addr : BitVec 48) (s : State) : Res :=
  act s (fun d => d.pw.phase != .unpowered && d.pw.phase != .stopped && Src.listed source && Kind.privileged kind) (fun d =>
    let i := d.injectAt source
    i.2.privileged { source := source, kind := kind, cls := 2, addr := addr.toNat, access := 11, injected := i.1 })

/-- Free the capture record of a class. -/
def Dev.ackCapture (s : Dev) (cls : Nat) : Dev := if (s.capture cls).valid then s.setCapture cls {} else s

/-- FT_ACK: by Warden or policy firmware. Nothing acknowledges the fatal record. -/
def execFtAck (w : Who) (v : Dword) (s : State) : Res :=
  act s (fun d => d.wardenWrites && isCore w) (fun d =>
    let d := if v.getLsbD 0 then d.ackCapture 0 else d
    (if v.getLsbD 1 then d.ackCapture 1 else d).served w 0)

/-- FT_INJECT: Warden's; ignored while a control is armed. A source that R414 does not list leaves the field, and arm acts (R13). -/
def execFtInject (w : Who) (v : Dword) (s : State) : Res :=
  act s (fun d => d.wardenWrites && isCore w) (fun d =>
    if w == .warden then
      (if d.bit FT_INJECT.arm then d
       else
         let d := if Src.listed (fld v 0 10) then d.put FT_INJECT.source (fld v 0 10) else d
         (d.flag FT_INJECT.arm (v.getLsbD 31)).flag FT_STATUS.armed (v.getLsbD 31)).served w 0
    else d.closed w FT_INJECT.arm.addr 4)

end Sys2Proof.Machine
end

