-- ==== Sys2Proof/Machine/Thermal.lean ====
section
/-! DEFINITION. Time and temperature: TIMEBASE_TICK, OPT_TICK, TEMPERATURE_UPDATE, THERMAL_TRIP and TC_MONITOR_UPDATE (R30,
R31, R240, R426, R433, R502, R503). -/

namespace Sys2Proof.Machine
open Reg

/-! ### Ticks (R31, R433) -/

/-- OPT counts from step 4 until the device leaves Run, and the timebase from PERST_N's release (R31, R291, R433). -/
def Dev.optRuns (s : Dev) : Bool := s.awake || s.pw.phase == .loadFailed
def Dev.ticks (s : Dev) : Bool := (s.optRuns || s.pw.phase == .waking) && !s.pw.perstLow

/-- TIMEBASE_TICK: 100 cycles of REFCLK0. Each thousandth is due at OPT before the next. -/
def execTimebaseTick (s : State) : Res :=
  act s (fun d => d.ticks && d.pw.optSub < 1000) (fun d =>
    let d := d.put PW_TIMEBASE.ticks (d.now + 1)
    if d.optRuns then (d.modPw (fun w => { w with optSub := w.optSub + 1 })).dueSuspend else d)

/-- A LUN's drift clock runs for one ms of OPT: run_factor/16 hours to the hour (R240). -/
def Drift.advance (x : Drift) (factor : Nat) : Drift :=
  let r := x.rest + factor
  { x with
    d := x.d + r / 3600000
    rest := r % 3600000 }

/-- The drift clocks after one ms; a data age may have reached the budget where a clock moved. -/
def Dev.driftTick (s : Dev) : Dev :=
  let f := s.get CD_DRIFT_CFG.run_factor
  let moved := s.cd.drift.any (fun e => 3600000 ≤ e.2.rest + f)
  let s := s.modCd (fun c => { c with drift := c.drift.map (fun e => (e.1, e.2.advance f)) })
  if moved && s.inRun then s.noteDrift else s

/-- OPT_TICK: PW raises OPT by one ms every 1000 ticks. -/
def execOptTick (s : State) : Res :=
  act s (fun d => d.optRuns && !d.pw.perstLow && 1000 ≤ d.pw.optSub) (fun d =>
    let d := (d.put PW_OPT.opt (d.opt.toNat + 1)).modPw (fun w => { w with optSub := w.optSub - 1000 })
    if d.auditDone then d.driftTick else d)

/-! ### Sensors (R426, R502, R503) -/

/-- The sensors and trip comparators run: AON is released and the device is not in Stop. -/
def Dev.sensorsRun (s : Dev) : Bool := s.pw.phase != .unpowered && s.pw.phase != .stopped

/-- A sensor's reading in 1/16 °C. -/
def Dev.reading (s : Dev) (i : Nat) : Int := (BitVec.ofNat 16 (s.get (TS_TEMP.temp.at (4 * i)))).toInt

/-- The hottest sensor: the lowest index of the highest valid reading. -/
def Dev.hottestSensor (s : Dev) : Nat :=
  match s.hottest with
  | none => 0
  | some t => ((List.range 24).find? (fun i => s.bit (TS_TEMP.valid.at (4 * i)) && s.reading i = t)).getD 0

/-- The warning and its re-arm; the interrupt and the record need released logic. -/
def Dev.warn (s : Dev) (i : Nat) : Dev :=
  let t := s.reading i
  let w := TS_TEMP.warned.at (4 * i)
  let limit : Int := 16 * (s.get TS_WARN_CFG.warn_c : Int)
  if !s.bit w && limit ≤ t then
    let s := s.put w 1
    if s.logicOn then
      (s.raise (Irq.warm i)).event 0x0106 (Src.sensor i) i (BitVec.ofInt 32 (t / 16)).toNat 0
    else s
  else if s.bit w && t < limit - 16 * (s.get TS_WARN_CFG.hyst_c : Int) then s.put w 0
  else s

/-- TEMPERATURE_UPDATE. -/
def execTemperatureUpdate (sensor : Nat) (reading : BitVec 16) (s : State) : Res :=
  act s (fun d => d.sensorsRun && sensor < 24) (fun d =>
    let d := (d.put (TS_TEMP.temp.at (4 * sensor)) reading.toNat).put (TS_TEMP.valid.at (4 * sensor)) 1
    let k := d.hottestSensor
    ((d.put TS_MAX.sensor k).put TS_MAX.temp (d.get (TS_TEMP.temp.at (4 * k)))).warn sensor)

/-- THERMAL_TRIP: a comparator finds 125 °C reached, or its comparison inverted (R424). THERM_TRIP_N stays asserted until
VDD_AON is removed. Before logic is released, the AON latch records the trip itself. -/
def execThermalTrip (sensor : Nat) (s : State) : Res :=
  act s (fun d => d.sensorsRun && sensor < 24 && !d.pw.thermTrip
      && (d.armedFor (Src.sensor sensor) || (d.bit (TS_TEMP.valid.at (4 * sensor)) && 2000 ≤ d.reading sensor))) (fun d =>
    let i := d.injectAt (Src.sensor sensor)
    let d := i.2.modPw (fun w => { w with thermTrip := true })
    if d.logicOn then
      d.faultMsg { source := Src.sensor sensor, kind := Kind.thermalTrip, cls := 2, addr := sensor, access := 11, injected := i.1 }
    else d.enterDeadbolt (Src.sensor sensor) Kind.thermalTrip false)

/-- TC_MONITOR_UPDATE: any value within R16, measured beside sensor 22. -/
def execTcMonitorUpdate (s : State) : Res :=
  act s (fun d => d.optRuns && !d.pw.perstLow) (fun d =>
    let r := d.draw
    ((r.2.put TS_TC_MONITOR.tc_ps (300 + (Config.freeWord r.1).toNat % 111)).put TS_TC_MONITOR.sensor 22).put TS_TC_MONITOR.valid 1)

end Sys2Proof.Machine
end

