-- ==== Sys2Proof/Machine/ImageCheck.lean ====
section
/-! DEFINITION. The configuration image: its header, records and record types with the legal ranges of their fields, what a
passing image loads, and the cross-checks (R470, R472 to R478, R194, R199, R200, R218, R224, R281, R318, R321 to R323, R403,
R409). -/

namespace Sys2Proof.Machine
open Reg

/-! ### The NOR (R470) -/

/-- n bytes of the NOR from offset o on as a number; a byte past the given content reads erased. -/
def norNum (img : List Byte) (o n : Nat) : Nat := ofBytes ((List.range n).map (fun i => ((img[o + i]?).getD 0xff).toNat))

/-- Mode m of 1-1-1, 1-1-2, 1-2-2, 1-1-4, 1-4-4 is advertised and needs no write. -/
def norQualifies (n : NorInfo) (m : Nat) : Bool := n.clocks.getD m 0 ≠ 0 && (m < 3 || n.quadNoWrite)
/-- The mode the loader selects: the first that qualifies, from 1-4-4 down. -/
def norMode (n : NorInfo) : Option Nat := [4, 3, 2, 1, 0].find? (fun m => norQualifies n m)
/-- Discovery succeeds. -/
def norOk (n : NorInfo) : Bool :=
  n.sfdp && 16 ≤ n.densityMib && n.densityMib ≤ 256 && (norMode n).isSome && (n.densityMib = 16 || n.table4)
/-- The strap-selected SPI clock in MHz (R490). -/
def Dev.strapClock (s : Dev) : Nat := [25, 50, 100, 133].getD (s.get PW_STRAPS.spi_clk) 25

/-! ### The header (R472) -/

/-- The first header byte at fault. -/
def headerFault (img : List Byte) (densityMib : Nat) : Option Nat :=
  let v := norNum img 0 64
  let length := bitsOf v 64 32
  if bitsOf v 0 32 ≠ ascii "ZCFG" then some 0
  else if bitsOf v 32 16 ≠ 1 then some 4
  else if bitsOf v 48 16 ≠ 64 then some 6
  else if length % 256 ≠ 0 || length < 512 || 4194304 < length || densityMib * 1048576 < length then some 8
  else if bitsOf v 96 32 ≠ length - 256 then some 12
  else if bitsOf v 128 16 = 0 || 256 < bitsOf v 128 16 then some 16
  else if bitsOf v 144 16 ≠ 0 then some 18
  else if bitsOf v 352 128 ≠ 0 then some 44
  else none

/-- The crc field agrees: CRC-32C over the image with the field taken as 0. -/
def imageCrcOk (img : List Byte) (length : Nat) : Bool :=
  norNum img 60 4 = crc32c ((List.range length).map (fun i => if 60 ≤ i ∧ i < 64 then 0 else norNum img i 1))

/-! ### Records (R474, R475) -/

/-- A record: its type, its header's offset and its body's length. -/
structure ImgRec where
  type : Nat
  off : Nat
  len : Nat
deriving DecidableEq, Repr

/-- The body lengths of the known types but Notes. -/
def recordLen (t : Nat) : Option Nat :=
  if t = 0 then none
  else [16, 2048, 24, 96, 44, 208, 36, 12, 16, 6976, 16, 168, 16, 32, 8, 8][t - 1]?

def requiredTypes : List Nat := [1, 2, 3, 4, 6, 10]

/-- Read n more records from offset o on: the header of the first at fault, or the records. -/
def readRecords (img : List Byte) (sig : Nat) : Nat → Nat → List ImgRec → Sum Nat (List ImgRec)
  | 0, _, done => .inr done
  | n + 1, o, done =>
    let t := norNum img o 2
    let len := norNum img (o + 4) 4
    let end_ := o + 8 + len
    let next := (end_ + 7) / 8 * 8
    let known : Bool := if t < 0x8000 then recordLen t == some len else true
    let gap : Bool := n = 0 || norNum img end_ (next - end_) = 0
    if o + 8 ≤ sig && norNum img (o + 2) 1 = 1 && len % 4 = 0 && end_ ≤ sig && known && gap && !done.any (fun r => r.type = t) then
      readRecords img sig n next (done ++ [⟨t, o, len⟩])
    else .inl o

/-- Where the records end. -/
def recordsEnd (recs : List ImgRec) : Nat := ((recs.getLast?).map (fun r => r.off + 8 + r.len)).getD 64

/-! ### Fields (R475 to R477, and the register tables) -/

/-- Fields in rising order: lowest bit, width and legal range. The bits between them are reserved. -/
abbrev FieldSpec := List (Nat × Nat × Nat × Nat)

/-- The first bytes of the fields at fault in the n bits of v from bit pos on. -/
def fieldFaults (v n : Nat) : Nat → FieldSpec → List Nat
  | pos, [] => if bitsOf v pos (n - pos) = 0 then [] else [pos / 8]
  | pos, (l, w, lo, hi) :: r =>
    (if bitsOf v pos (l - pos) = 0 then [] else [pos / 8])
      ++ (if lo ≤ bitsOf v l w ∧ bitsOf v l w ≤ hi then [] else [l / 8]) ++ fieldFaults v n (l + w) r

/-- A 32-bit word's fields at word k of a body. -/
def inWord (k : Nat) (f : FieldSpec) : FieldSpec := f.map (fun x => (32 * k + x.1, x.2))
/-- A field of any value. -/
def anyBits (l w : Nat) : Nat × Nat × Nat × Nat := (l, w, 0, 2 ^ w - 1)

def budgetSpec : FieldSpec :=
  inWord 0 [(0, 16, 1000, 65535), (16, 16, 1000, 5000)] ++ inWord 1 [(0, 10, 100, 1000), (10, 10, 0, 500), (24, 8, 1, 100)]
    ++ inWord 2 [(0, 8, 1, 255)] ++ inWord 3 [(0, 10, 1, 1023)] ++ inWord 4 [(0, 10, 1, 1023)] ++ inWord 5 [(0, 8, 1, 255)]
    ++ inWord 6 [(0, 8, 0, 255), (16, 10, 0, 1000)] ++ inWord 7 [(0, 13, 1, 4096), (13, 10, 1, 512), (23, 9, 1, 511)]
    ++ inWord 8 [(0, 3, 0, 4), (8, 8, 1, 16), (16, 16, 100, 10000)] ++ inWord 9 [(0, 8, 1, 255), (8, 8, 50, 95), (16, 16, 100, 10000)]
    ++ inWord 10 [(0, 8, 1, 255), (8, 8, 1, 255), (16, 8, 1, 255), (24, 8, 1, 255)]

/-- QE_ARB_WEIGHT, QE_AGE_CFG, QE_DATA_TIMEOUT and QE_PULL_CFG of one port, from word k on. -/
def queueSpec (k : Nat) : FieldSpec :=
  inWord k [(0, 8, 1, 255), (8, 8, 1, 255), (16, 8, 1, 255), (24, 8, 1, 255)] ++ inWord (k + 1) [(0, 16, 10, 10000), (16, 16, 1000, 60000)]
    ++ inWord (k + 2) [(0, 17, 1, 60000)] ++ inWord (k + 3) [(0, 2, 0, 3)]

def geometrySpec : FieldSpec :=
  inWord 0 [(0, 1, 0, 1), (1, 3, 0, 5), (4, 1, 0, 1), (5, 5, 1, 16), (10, 2, 0, 2), (12, 3, 2, 6), (15, 3, 3, 5), (18, 1, 0, 1), (19, 4, 0, 15)]
    ++ inWord 1 [(0, 15, 1, 32767), (16, 10, 16, 512)] ++ inWord 2 [(0, 5, 1, 16), (16, 10, 17, 1023)]
    ++ inWord 3 [(0, 13, 0, 8191), (18, 3, 3, 5), (21, 6, 8, 32)] ++ inWord 4 [(0, 16, 100, 10000)] ++ inWord 5 [anyBits 0 16, anyBits 16 16]

/-- A flash command entry (R476). -/
def commandSpec (k : Nat) : FieldSpec :=
  if k < 22 then inWord k ([anyBits 0 8, anyBits 8 8] ++ (if k < 20 then [] else [anyBits 16 8]) ++ [(24, 1, 1, 1), (25, 1, 0, 1)]) else []

def tableSpec : FieldSpec :=
  [(0, 16, 1, 1), (16, 8, 3, 5), anyBits 24 8, (32, 8, 0, 4)] ++ (List.range 5).map (fun j => anyBits (64 + 32 * j) 32) ++ [anyBits 256 47360]
    ++ (List.range 8).map (fun w => anyBits (47360 + 32 * w) 24)
    ++ (List.range 128).flatMap (fun i => [anyBits (47616 + 64 * i) 16, anyBits (47648 + 64 * i) 32])

/-- A window translation entry (R321); only an entry in use has ranges to meet. -/
def windowSpec (v k : Nat) : FieldSpec :=
  let b := 128 * k
  if bitsOf v (b + 61) 1 = 1 then
    [anyBits b 40, (b + 40, 2, 0, 2), (b + 48, 6, 12, 36), (b + 56, 4, 0, 10), anyBits (b + 60) 1, anyBits (b + 61) 1, anyBits (b + 64) 48]
  else [anyBits b 40, anyBits (b + 40) 2, anyBits (b + 48) 6, anyBits (b + 56) 4, anyBits (b + 60) 1, anyBits (b + 61) 1, anyBits (b + 64) 48]

/-- Key, salt and hash are 0 where the record does not use them. -/
def credentialSpec (v : Nat) : FieldSpec :=
  let key (l w : Nat) (used : Bool) : Nat × Nat × Nat × Nat := if used then anyBits l w else (l, w, 0, 0)
  let pass := bitsOf v 63 1 = 1
  inWord 0 [(0, 2, 0, 2)] ++ inWord 1 [(0, 7, 0, 100), (29, 1, 0, 1), (30, 1, 0, 1), (31, 1, 0, 1)]
    ++ [key 64 768 (bitsOf v 61 1 = 1), key 832 128 pass, key 960 384 pass]

/-- The fields of a record body v of type t; ports: how many the device has. -/
def bodySpec (ports t v : Nat) : FieldSpec :=
  match t with
  | 1 => [anyBits 0 16, anyBits 16 16, anyBits 32 16, anyBits 48 16, (64, 8, 30, 36), (72, 1, 0, 1)]
  | 2 => (List.range (64 * ports)).flatMap (windowSpec v) ++ (if ports = 2 then [] else [anyBits 8192 8192])
  | 3 => geometrySpec
  | 4 => (List.range 24).flatMap commandSpec
  | 5 => budgetSpec
  | 6 => inWord 0 [(0, 4, 0, 3), (4, 2, 1, 2), (23, 9, 32, 256)] ++ inWord 1 [(0, 8, 1, 168)] ++ inWord 2 [(0, 5, 4, 16)] ++ inWord 3 [(0, 8, 1, 192)]
      ++ (List.range 12).map (fun k => anyBits (128 + 128 * k) 64)
  | 7 => queueSpec 0 ++ queueSpec 4 ++ inWord 8 [(0, 8, 1, 255), (8, 8, 1, 255), (16, 8, 1, 255)]
  | 8 => inWord 0 [(0, 16, 100, 2000), (16, 16, 100, 30000)] ++ inWord 1 [(0, 8, 10, 60), (8, 8, 1, 16), (16, 8, 4, 32), (24, 8, 1, 60)]
      ++ inWord 2 [(0, 16, 10, 3600), (16, 16, 60, 3600)]
  | 9 => inWord 0 [(0, 8, 5, 50), (8, 3, 0, 7), (11, 5, 5, 31), (16, 16, 1, 10000)] ++ inWord 1 [(0, 8, 16, 255), (8, 8, 16, 255), (16, 16, 24, 65535)]
      ++ inWord 2 [(0, 8, 1, 168), (8, 8, 1, 32), (22, 10, 1, 1023)] ++ inWord 3 [(0, 16, 100, 65535)]
  | 10 => tableSpec
  | 11 => [anyBits 0 128]
  | 12 => credentialSpec v
  | 13 => [(0, 64, 1, 2 ^ 64 - 1), (64, 16, 0, 511)]
  | 14 => inWord 0 [anyBits 0 16, anyBits 16 16] ++ inWord 1 [(0, 12, 16, 4095)] ++ inWord 2 [(0, 2, 0, 3)] ++ inWord 3 [(0, 16, 1, 65533), anyBits 16 16]
      ++ inWord 4 [anyBits 0 16] ++ inWord 5 [(0, 8, 1, 255), (8, 8, 1, 255), (16, 16, 16, 65535)] ++ inWord 6 [(0, 6, 0, 32)] ++ inWord 7 [(0, 9, 100, 400)]
  | 15 => [(0, 32, 0x54494d50, 0x54494d50), (32, 7, 0, 127)]
  | _ => [anyBits 0 64]

/-- The body of a record as a number. -/
def ImgRec.body (r : ImgRec) (img : List Byte) : Nat := norNum img (r.off + 8) r.len

/-- The faults of one record as NOR offsets: the reserved byte of its header, then its fields. -/
def recordFaults (img : List Byte) (ports : Nat) (r : ImgRec) : List Nat :=
  (if norNum img (r.off + 3) 1 = 0 then [] else [r.off + 3])
    ++ (if r.type < 0x8000 then (fieldFaults (r.body img) (8 * r.len) 0 (bodySpec ports r.type (r.body img))).map (fun o => r.off + 8 + o) else [])

/-! ### What a passing image loads (R475, R478, R480) -/

/-- An image's records by type, with the bytes they lie in. -/
structure Img where
  bytes : List Byte
  recs : List ImgRec

def Img.find (i : Img) (t : Nat) : Option ImgRec := i.recs.find? (fun r => r.type = t)
/-- The body of the record of type t; 0 where it is absent. -/
def Img.body (i : Img) (t : Nat) : Nat := ((i.find t).map (fun r => r.body i.bytes)).getD 0
def Img.has (i : Img) (t : Nat) : Bool := (i.find t).isSome
/-- Word k of the record of type t. -/
def Img.word (i : Img) (t k : Nat) : Nat := bitsOf (i.body t) (32 * k) 32

/-- Registers that a record gives: type, word in the body, address. -/
def imageRegs : List (Nat × Nat × Nat) :=
  [(3, 1, 0x20b000050), (3, 2, 0x20a000004), (3, 3, 0x20d000004), (5, 0, 0x20b000004), (5, 1, 0x20b000008), (5, 2, 0x20b000010),
   (5, 3, 0x20b000014), (5, 4, 0x20b000018), (5, 5, 0x20b00001c), (5, 6, 0x20b000020), (5, 7, 0x20b000024), (5, 8, 0x20b000028),
   (5, 9, 0x20b00002c), (5, 10, 0x20b000030), (6, 0, 0x209000004), (6, 1, 0x209000008), (6, 3, 0x20a000008), (7, 0, 0x207000028),
   (7, 1, 0x20700002c), (7, 2, 0x207000020), (7, 3, 0x207000024), (7, 4, 0x207100028), (7, 5, 0x20710002c), (7, 6, 0x207100020),
   (7, 7, 0x207100024), (7, 8, 0x207000030), (8, 0, 0x20000000c), (8, 1, 0x20a000018), (8, 2, 0x202000018), (9, 0, 0x20d000008),
   (9, 1, 0x20d00000c), (9, 2, 0x20d000010), (9, 3, 0x20d000014), (12, 0, 0x214000004), (12, 1, 0x214000008), (14, 0, 0x20f000008),
   (14, 1, 0x20f00000c), (14, 2, 0x20f000010), (14, 5, 0x20f00001c), (14, 6, 0x20f000020), (14, 7, 0x20f000024)]

/-- The port registers that Set Feature changes and an FLR restores (R122, R144). -/
def featureRegs : List Nat := [0x207000028, 0x20700002c, 0x207000020, 0x207000024, 0x207100028, 0x20710002c, 0x207100020, 0x207100024]

/-- The registers of the image. -/
def Dev.loadRegs (s : Dev) (i : Img) : Dev :=
  let s := s.each (imageRegs.filter (fun r => i.has r.1)) (fun s r => s.setReg r.2.2 (i.word r.1 r.2.1))
  let s := s.each (List.range 128) (fun s n => (s.setReg (fcReg n FC_CFG.iface).addr (i.word 3 0)).setReg (fcReg n FC_ZQ_CFG.zq_interval_ms).addr (i.word 3 4))
  let s := if i.has 14 then s.setReg RC_AGE_CFG.a1_h.addr (bitsOf (i.body 14) 96 64) else s
  let s := if i.has 16 then s.setReg FT_KIND_RAISE.raise.addr (i.body 16) else s
  if i.has 9 then s else s.put CD_WITNESS_CFG.hard_rber ([450, 650, 900].getD (s.bitsPerCell - 3) 900)

/-- The image's data that no register holds. -/
def Dev.loadImage (s : Dev) (i : Img) : Dev :=
  let ident := i.body 1
  let maint := i.body 12
  let domain : Option (Qword × Nat) := if i.has 13 then some (BitVec.ofNat 64 (bitsOf (i.body 13) 0 64), bitsOf (i.body 13) 64 16) else none
  let s := s.loadRegs i
  let m : Image := {
    loaded := true
    vendorId := bitsOf ident 0 16
    deviceIdPci := bitsOf ident 16 16
    subVendor := bitsOf ident 32 16
    subId := bitsOf ident 48 16
    bar2Log2 := bitsOf ident 64 8
    bar4 := bitsOf ident 72 1 = 1
    wte := (List.range 128).map (fun k => BitVec.ofNat 128 (bitsOf (i.body 2) (128 * k) 128))
    dataPage := bitsOf (i.word 3 5) 0 16
    rawPage := bitsOf (i.word 3 5) 16 16
    marchMask := BitVec.ofNat 128 (i.body 11)
    maintKey := BitVec.ofNat 768 (bitsOf maint 64 768)
    salt := BitVec.ofNat 128 (bitsOf maint 832 128)
    hash := BitVec.ofNat 384 (bitsOf maint 960 384)
    domain := domain
    permit := if i.has 15 then some (bitsOf (i.word 15 1) 0 7) else none
    flashCmds := (List.range 24).map (fun k => BitVec.ofNat 32 (i.word 4 k))
    seeds := (List.range 12).map (fun k => BitVec.ofNat 128 (bitsOf (i.body 6) (128 + 128 * k) 128))
    queueRegs := featureRegs.map (fun a => (a, s.reg a)) }
  let s := { s with image := m }
  let s := (s.modHost (fun h => { h with domain := domain })).modBm (fun b => { b with gib := bitsOf (i.word 6 2) 0 5 })
  s.modCd (fun c => { c with table := (bytesOf (i.body 10) 6976).map (fun b => BitVec.ofNat 8 b) })

/-! ### Cross-checks (R478): each on the device as the image would leave it -/

def Dev.geometryOk (s : Dev) : Bool :=
  let b := s.get FC_CFG.bits_per_cell
  let l := codewordLen b
  let luns := s.get FC_CFG.luns_per_ce
  17 ≤ s.codewords && s.codewords ≤ 1023 && 16 ≤ s.wordLines && s.wordLines ≤ 512 && s.blockGroups ≤ 32767
    && s.blockGroups * s.wordLines * s.planes * b * s.image.dataPage ≤ 2 ^ 40
    && s.codewords = b * (s.planes * s.image.rawPage / l) && s.get CD_GEOMETRY.codeword_bytes = l
    && s.slotCount = min 16 ((s.codewords - 1) / 16) && s.bitsPerCell = b
    && (s.cd.table.getD 2 0).toNat = b && (s.cd.table.getD 3 0).toNat = 2 ^ b - 1
    && luns % 2 ^ s.get FC_CFG.lpv = 0 && (s.bit FC_CFG.buffer || luns * (if s.bit FC_CFG.ce1 then 2 else 1) ≤ 8)

/-- Entry k of port p's window translation as R322 fixes it: kind, BAR, offset, size_log2, base, writable, valid. -/
def fixedWindow (bar2Log2 : Nat) (bar4 : Bool) (p k : Nat) : Nat :=
  let hp := 0x205000000 + p * 0x1000000
  let e (kind bar off size base writable : Nat) (valid : Bool) : Nat :=
    pack [(0, 40, off), (40, 2, bar), (48, 6, size), (56, 4, kind), (60, 1, writable), (61, 1, if valid then 1 else 0), (64, 48, base)]
  [e 0 0 0 16 (hp + 0x100000) 0 true, e 1 0 0x10000 16 hp 0 true, e 1 0 0x100000 20 (0x207000000 + p * 0x100000) 1 true, e 2 0 0x200000 21 0 1 true,
   e 3 0 0x400000 16 0x201800000 0 true, e 4 0 0x410000 14 (hp + 0x200000) 1 true, e 5 0 0x414000 12 (hp + 0x204000) 0 true, e 6 1 0 bar2Log2 0 1 true,
   e 7 2 0 21 0 1 bar4, e 8 2 0x200000 21 0 1 bar4, e 9 2 0x800000 23 0 1 bar4].getD k 0

/-- The register blocks an observation window may show: PW_, FT_, EV_, QE_, BM_, DC_, MP_, MS_, FC_, CD_, RC_, TS_ (R323). -/
def observable (base size : Nat) : Bool :=
  [0x00, 0x01, 0x02, 0x07, 0x08, 0x09, 0x0a, 0x0b, 0x0c, 0x0d, 0x0f, 0x13].any (fun k =>
    0x200000000 + k * 0x1000000 ≤ base && base + size ≤ 0x200000000 + (k + 1) * 0x1000000)

def winValid (e : BitVec 128) : Bool := fld e 61 1 = 1
def winSize (e : BitVec 128) : Nat := 2 ^ fld e 48 6

/-- An observation window in use (R321, R323). -/
def observeOk (e : BitVec 128) : Bool :=
  let off := fld e 0 40
  let base := fld e 64 48
  fld e 56 4 = 10 && fld e 60 1 = 0 && fld e 40 2 = 0 && off % winSize e = 0 && base % winSize e = 0
    && 0x800000 ≤ off && off + winSize e ≤ 0x10000000 && observable base (winSize e)

/-- Two entries in use overlap within a BAR. -/
def winOverlap (a b : BitVec 128) : Bool :=
  winValid a && winValid b && fld a 40 2 = fld b 40 2 && fld a 0 40 < fld b 0 40 + winSize b && fld b 0 40 < fld a 0 40 + winSize a

/-- R322 and R323 for one port. An absent entry 8 to 10 need only be invalid. -/
def Dev.windowsOk (s : Dev) (p : Nat) : Bool :=
  let l := (s.image.wte.drop (64 * p)).take 64
  let fixed := (List.range 11).all (fun k =>
    let e := l.getD k 0
    if 8 ≤ k && !s.image.bar4 then !winValid e else e.toNat = fixedWindow s.image.bar2Log2 s.image.bar4 p k)
  fixed && (l.drop 11).all (fun e => !winValid e || observeOk e)
    && (List.range 64).all (fun j => (List.range j).all (fun i => !winOverlap (l.getD i 0) (l.getD j 0)))

/-- GiB in bytes. -/
def gib (n : Nat) : Nat := n * 2 ^ 30

def Dev.bar2Ok (s : Dev) : Bool := s.bm.gib * 16384 + 16384 ≤ 2 ^ (s.image.bar2Log2 - 16)

/-- R403's size rule, and the allotment of R409 with Warden's 256 MiB. -/
def Dev.dramOk (s : Dev) : Bool :=
  let density := 8 * (s.get DC_TOPOLOGY.density + 1)
  s.get DC_TOPOLOGY.size_gib ≤ 12 * density * s.get DC_TOPOLOGY.ranks
    && (s.allotment.map (fun n => (n + 63) / 64 * 64)).sum + 268435456 ≤ s.dramSize

/-- No single operation cost exceeds the ramp's starting ceiling (R218). -/
def Dev.budgetOk (s : Dev) : Bool :=
  let top := s.get MS_BUDGET.budget_ma * s.get MS_RAMP_CFG.start_pct / 100
  [s.get MS_COST_PROG.prog_ma, s.get MS_COST_ERASE.erase_ma, s.get MS_COST_XFER.xfer_ma, s.get MS_COST_TAIL.tail_ma,
   s.get MS_COST_READ.read_ma * s.planes].all (fun n => n ≤ top)

def Dev.queuesOk (s : Dev) : Bool :=
  [0, 1].all (fun p => s.get (qeReg p QE_AGE_CFG.promotion_ms) < s.get (qeReg p QE_AGE_CFG.hard_age_ms))

/-- Bytes of granules in a full block stripe. -/
def Dev.stripeBytes (s : Dev) : Nat := (s.width - 1) * s.wordLines * s.slotCount * 65536

/-- target > floor > seal reserve, R281's reserve, and rising age thresholds. -/
def Dev.reclaimOk (s : Dev) : Bool :=
  s.get RC_SEAL_CFG.reserve < s.get RC_FLOOR_CFG.floor && s.get RC_FLOOR_CFG.floor < s.get RC_FLOOR_CFG.target
    && gib (s.bm.gib + 16) ≤ s.get RC_SEAL_CFG.reserve * s.stripeBytes
    && s.get RC_AGE_CFG.a1_h < s.get RC_AGE_CFG.a2_h && s.get RC_AGE_CFG.a2_h < s.get RC_AGE_CFG.a3_h

def Dev.maintenanceOk (s : Dev) : Bool :=
  (!s.bit MT_AUTH_CFG.image_key || Config.isPoint s.image.maintKey) && (!s.bit MT_AUTH_CFG.password || 1 ≤ s.get MT_AUTH_CFG.kiter)

/-- The cross-checks in R478's order: whether each passes, and the fields it reads as record type and byte of the body. -/
def Dev.crossChecks (s : Dev) : List (Bool × List (Nat × Nat)) :=
  [(s.geometryOk, [(3, 0), (10, 2)]), (s.portList.all (fun p => s.windowsOk p), [(2, 0), (1, 8)]), (s.bar2Ok, [(1, 8), (6, 8)]),
   (s.dramOk, [(6, 0), (3, 0)]), (s.budgetOk, [(5, 0), (3, 1)]), (s.queuesOk, [(7, 4)]), (s.reclaimOk, [(14, 0), (6, 8), (3, 6)]),
   (s.maintenanceOk, [(12, 4)]), (s.image.marchMask.toNat < 2 ^ 81, [(11, 0)])]

/-- The lowest of some offsets. -/
def lowest (l : List Nat) : Nat :=
  match l with
  | [] => 0
  | x :: r => r.foldl min x

/-- The NOR offset of the first cross-check that fails. -/
def Dev.crossFault (s : Dev) (i : Img) : Option Nat :=
  (s.crossChecks.find? (fun c => !c.1)).map (fun c => lowest (c.2.filterMap (fun f => (i.find f.1).map (fun r => r.off + 8 + f.2))))

end Sys2Proof.Machine
end

