-- ==== Sys2Proof/Machine/Load.lean ====
section
/-! DEFINITION. CONFIGURATION_LOAD: boot step 2 (R470 to R481). -/

namespace Sys2Proof.Machine
open Reg

/-- The outcome of the load: a failure's code and NOR offset, or the image. -/
def Dev.judgeImage (s : Dev) (nor : NorInfo) (img : List Byte) : Sum (Nat × Nat) Img :=
  if !norOk nor then .inl (1, 0)
  else match headerFault img nor.densityMib with
  | some o => .inl (2, o)
  | none =>
    let length := norNum img 8 4
    let sig := length - 256
    let block := norNum img sig 256
    let device := norNum img 20 8
    if !imageCrcOk img length then .inl (3, 60)
    else if !(sigFormed block && sigAuthentic s.keyRec block ((List.range sig).map (fun i => norNum img i 1))) then .inl (4, sig)
    else if device ≠ 0 && device ≠ Config.deviceId.toNat then .inl (5, 20)
    else match readRecords img sig (norNum img 16 2) 64 [] with
    | .inl o => .inl (6, o)
    | .inr recs =>
      let faults := recs.flatMap (recordFaults img s.ports)
      let i : Img := ⟨img, recs⟩
      if !requiredTypes.all (fun t => i.has t) then .inl (7, recordsEnd recs)
      else if !faults.isEmpty then .inl (8, lowest faults)
      else match (s.loadImage i).crossFault i with
      | some o => .inl (9, o)
      | none => .inr i

/-- A hex digit, upper case. -/
def hexDigit (n : Nat) : Byte := BitVec.ofNat 8 (if n % 16 < 10 then 48 + n % 16 else 55 + n % 16)
/-- n hex digits of v, highest first. -/
def hexText (v n : Nat) : List Byte := ((List.range n).reverse).map (fun k => hexDigit (v / 16 ^ k))
/-- The ASCII bytes of a text. -/
def textBytes (t : String) : List Byte := t.toList.map (fun c => BitVec.ofNat 8 c.toNat)
def crlf : List Byte := [13, 10]

/-- CF_LOAD_INFO after discovery. -/
def Dev.noteNor (s : Dev) (nor : NorInfo) : Dev :=
  match norMode nor with
  | none => s
  | some m =>
    let s := (s.put CF_LOAD_INFO.density_mib nor.densityMib).flag CF_LOAD_INFO.addr4 (16 < nor.densityMib)
    (s.put CF_LOAD_INFO.mode m).put CF_LOAD_INFO.clock_mhz (min s.strapClock (nor.clocks.getD m 0))

/-- The duration of boot step 2, and the signer. -/
def Dev.noteLoad (s : Dev) (signer : Nat) : Dev :=
  (s.put CF_LOAD_TIME.ms ((s.now - s.pw.stepStart) / 1000)).put CF_LOAD_TIME.signer signer

/-- The load-failed state (R479). -/
def Dev.loadFails (s : Dev) (code off : Nat) : Dev :=
  let s := ((s.put CF_LOAD_STATUS.code code).put CF_LOAD_STATUS.offset off).noteLoad 0xff
  let s := s.modPw (fun w => { w with
    phase := .loadFailed
    faultN := true })
  s.emit (.uart (textBytes "CFGERR " ++ hexText code 2 ++ [32] ++ hexText off 8 ++ crlf))

/-- Every check has passed: registers, endpoint identity and window translation are loaded. -/
def Dev.loadPasses (s : Dev) (i : Img) : Dev :=
  let length := norNum i.bytes 8 4
  let s := (s.loadImage i).put CF_LOAD_STATUS.loaded 1
  let s := (s.setReg CF_LOAD_SEQ.sequence.addr (norNum i.bytes 28 8)).noteLoad (sigSigner (norNum i.bytes (length - 256) 256))
  ((s.event 0x0d01 Src.loader length i.recs.length 0).raise Irq.loadDone).endBootStep 2

/-- What the loader makes of the NOR. -/
def Dev.readImage (d : Dev) (nor : NorInfo) (image : List Byte) : Dev :=
  let r := d.judgeImage nor image
  let d := if norOk nor then d.noteNor nor else d
  let count : Nat := match r with
    | .inl f => if f.1 ≤ 2 then 0 else norNum image 16 2
    | .inr i => i.recs.length
  let d := d.put CF_LOAD_INFO.records count
  match r with
  | .inl f => d.loadFails f.1 f.2
  | .inr i => d.loadPasses i

/-- CONFIGURATION_LOAD: image is the NOR's content from address 0 on. -/
def execConfigurationLoad (nor : NorInfo) (image : List Byte) (s : State) : Res :=
  act s (fun d => d.pw.phase == .booting && d.pw.bootStep = 2) (fun d => d.readImage nor image)

end Sys2Proof.Machine
end

