-- ==== Sys2Proof/Machine/Boot.lean ====
section
/-! DEFINITION. Boot steps 3 to 5: IMAGE_AUTHENTICATION, DDR5_TRAINING, PW_CMD_RELEASE_FPHY and FLASH_BRING_UP (R193 to R203,
R219, R259, R288, R296, R361, R382, R401, R409, R452, R456, R462). -/

namespace Sys2Proof.Machine
open Reg

/-- Boot step k runs. -/
def Dev.bootAt (s : Dev) (k : Nat) : Bool := s.pw.phase == .booting && s.pw.bootStep = k
/-- A part of a step that runs only while Deadbolt has not been entered. -/
def Dev.live (s : Dev) (f : Dev → Dev) : Dev := if s.isDead then s else f s

/-! ### Step 3 -/

/-- The entropy source's start-up tests and the DRBG's seed (R462). -/
def Dev.seedDrbg (s : Dev) (ok : Bool) : Dev :=
  if ok then ((s.put WD_TRNG_STATUS.healthy 1).put WD_TRNG_STATUS.seeded 1).addSat WD_TRNG_STATUS.reseeds 1
  else s.fatal Src.wardenFw Kind.cryptoTest 0xff 0

/-- The slot of a kind that is authentic, tried first the given one and then the other (R382, R452). -/
def Dev.bootSlot (s : Dev) (kind first : Nat) : Option Nat := [first, 1 - first].find? (fun k => (s.authenticSlot kind k).isSome)

/-- Both slots of a kind failed (R452). -/
def Dev.authFailed (s : Dev) (kind : Nat) : Dev :=
  s.privileged { source := Src.imageAuth, kind := Kind.imageAuth, cls := 2, addr := kind }

/-- Control passes from the boot ROM to a Warden image. -/
def Dev.startWarden (s : Dev) (slot : Nat) : Dev :=
  let s := match s.slotImage 0 slot with
    | some i => s.each i.loads (fun s l => s.copyLoad 0 slot l)
    | none => s
  let s := ((s.put WD_STATUS.slot slot).put WD_STATUS.rom_done 1).flag WD_STATUS.next_marked (slotWardenNext s.slots != slot)
  (s.modCores (fun c => { c with wardenRunning := true })).event 0x0c01 Src.imageAuth 0 slot (s.signerOf 0 slot)

/-- The boot ROM's part: the Warden slot named by warden_next, then the other. -/
def Dev.bootWarden (s : Dev) : Dev :=
  match s.bootSlot 0 (slotWardenNext s.slots) with
  | some slot => s.startWarden slot
  | none => s.authFailed 0

/-- CX's known-answer tests; fail names an engine that failed (R259). -/
def Dev.testCx (s : Dev) (fail : Option Nat) : Dev :=
  let s := ((s.put CX_STATUS.kat_done 1).flag CX_STATUS.kat_pass fail.isNone).raise (Irq.cx 0)
  match fail with
  | some e => s.fatal Src.cx Kind.cryptoTest e 0
  | none => s

/-- One namespace key out of the key record (R456). -/
def Dev.unwrapKey (s : Dev) (n : Nat) (e : NsKey) : Dev :=
  if e.st = 0 then s
  else match Config.unwrapStorage e.wrapped with
    | some k => s.setKey n (some k)
    | none => s

def Dev.unwrapKeys (s : Dev) : Dev := s.each (s.keyRec.ns.mapIdx (fun n e => (n, e))) (fun s x => s.unwrapKey x.1 x.2)

/-- The boot march of the regions the image names; failLine is the number of a line that fails (R401). -/
def Dev.bootMarch (s : Dev) (failLine : Option Nat) : Dev :=
  s.each ((List.range 81).filter (fun r => s.image.marchMask.getLsbD r)) (fun s r =>
    let g := marchRegion r
    s.live (fun s => s.marchEnded r false ((failLine.filter (fun k => g.1 ≤ k && k < g.1 + g.2)).map (fun k => k - g.1))))

/-- The Bolt image: the active slot of the slot record, then the other. -/
def Dev.bootBolt (s : Dev) : Dev :=
  match s.bootSlot 1 (slotBoltActive s.slots) with
  | some slot => s.launch slot
  | none => s.authFailed 1

/-- Boot step 3, each part while Deadbolt has not been entered. -/
def Dev.authenticateImages (d : Dev) (katFail marchFail : Option Nat) (entropyOk : Bool) : Dev :=
  let d := (d.seedDrbg entropyOk).live Dev.bootWarden
  let d := (d.live (fun d => d.testCx katFail)).live Dev.unwrapKeys
  let d := (d.live (fun d => d.bootMarch marchFail)).live Dev.bootBolt
  d.endBootStep 3

/-- IMAGE_AUTHENTICATION: boot step 3. -/
def execImageAuthentication (katFail marchFail : Option Nat) (entropyOk : Bool) (s : State) : Res :=
  act s (fun d => d.bootAt 3) (fun d => d.authenticateImages katFail marchFail entropyOk)

/-! ### Step 4 -/

/-- A channel's training result. -/
def Dev.trained (s : Dev) (c readEye writeEye : Nat) : Dev :=
  let s := ((s.put (DC_TRAIN.pass.at (4 * c)) 1).put (DC_TRAIN.read_eye_ps.at (4 * c)) readEye).put (DC_TRAIN.write_eye_ps.at (4 * c)) writeEye
  s.put DC_STATUS.trained (s.get DC_STATUS.trained ||| 2 ^ c)

/-- A port enters Holding; with BAR4 it has its peer queue (R139). -/
def Dev.openPort (s : Dev) (p : Nat) : Dev :=
  let s := s.modPort p (fun t => { t with state := .holding })
  if s.image.bar4 then
    s.modQe (fun e => { e with
      queues := e.queues.put (qkey p peerQ) { depth := 32768, ring := 1, base := 0, cls := .w0, relaxed := false, pcheck := false, vector := 0
                                              irqCount := 1, irqTime := 0 } })
  else s

/-- The outcome of DRAM training. -/
def Dev.trainDram (d : Dev) (failed : Option Nat) (readEye writeEye : Nat) : Dev :=
  let bad := failed.filter (fun c => c < 6)
  let d := (d.put DC_STATUS.state 1).each ((List.range 6).filter (fun c => some c != bad)) (fun d c => d.trained c readEye writeEye)
  match bad with
  | some c => d.fatal Src.dc Kind.dramTraining c 0
  | none =>
    let d := (d.put DC_STATUS.state 2).raise Irq.trainingDone
    let d := (d.put BC_DRAM_LIMIT.limit (dramBase + d.dramSize - 2 ^ 28)).put RC_TABLE_BASE.base (d.allotAt 2)
    (d.each d.portList (fun d p => d.openPort p)).endBootStep 4

/-- DDR5_TRAINING: failed names a channel that fails; the eyes are those of the channels that pass. -/
def execDdr5Training (failed : Option Nat) (readEye writeEye : Nat) (s : State) : Res :=
  act s (fun d => d.bootAt 4) (fun d => d.trainDram failed readEye writeEye)

/-! ### Step 5: flash bring-up (R202, R203) -/

/-- FC_STATUS.state of a channel changes. -/
def Dev.setChannel (s : Dev) (n st : Nat) : Dev := (s.put (fcReg n FC_STATUS.state) st).raise (Irq.fc n)

/-- The FPHY domains are released, in one up_time that is open (log 6). -/
def Dev.releaseFphy (d : Dev) : Dev :=
  let r := d.draw
  let up := (Config.freeWord r.1).toNat % 2 ^ 16
  let d := r.2.each [17, 18, 19, 20] (fun d k =>
    (d.setPowerDomain k { d.powerDomain k with released := true }).put (PW_DOMAIN.up_time.at (4 * (k - 1))) up)
  let d := (d.put PW_CMD.cmd 1).modPw (fun w => { w with fphy := true })
  let d := ((d.modMs (fun m => { m with
    fphyAt := some d.now
    wpHigh := []
    ceHigh := List.range 128 })).put MS_STATUS.state 1).setCeiling 0
  d.each (List.range 128) (fun d n => d.setChannel n 1)

/-- PW_CMD_RELEASE_FPHY: the FPHY domains' logic is released, and the ramp's delay begins (R219). -/
def execPwCmdReleaseFphy (s : State) : Res :=
  act s (fun d => d.bootAt 5 && !d.pw.fphy && d.wardenRuns) (fun d => d.releaseFphy)

/-- A LUN fails at bring-up: RC absorbs it once the checkpoint is loaded, and the margin holds at once (R203, R275, R276). -/
def Dev.bringUpFails (s : Dev) (lun : Nat) : Dev :=
  let f := fcReg (lun / 32) FC_LUN_FAILED.failed
  let s := s.put f (s.get f ||| 2 ^ (lun % 32))
  let s := ((s.event 0x0701 (Src.channel (lun / 32)) (lun / 32) (lun % 32) 1).raise (Irq.ms 3)).raise (Irq.fc (lun / 32))
  let n := (s.slotLuns.filter (fun l => s.lunFailed l)).length
  let s := s.put RC_LUN_CFG.failed n
  if s.get RC_LUN_CFG.margin < n then s.fatal Src.rc Kind.lunMargin lun 0 else s

def Dev.channelReady (s : Dev) (n : Nat) : Bool := s.get (fcReg n FC_STATUS.state) = 4

/-- A channel has been trained: WP_N is high and it is ready. -/
def Dev.channelUp (s : Dev) (n readEye writeEye : Nat) : Dev :=
  let s := s.each [FC_STATUS.zq_done, FC_STATUS.dcc_done, FC_STATUS.read_trained, FC_STATUS.write_trained, FC_STATUS.wp_released]
    (fun s f => s.put (fcReg n f) 1)
  let s := (s.put (fcReg n FC_EYE.read_eye_ps) readEye).put (fcReg n FC_EYE.write_eye_ps) writeEye
  let s := (s.modMs (fun m => { m with wpHigh := m.wpHigh ++ [n], zq := m.zq.put n s.now })).setChannel n 4
  let q := n / 32
  let s := if (List.range 32).all (fun i => s.channelReady (32 * q + i)) then s.raise (Irq.fphy q) else s
  if (List.range 128).all (fun i => s.channelReady i) then
    ((s.put MS_STATUS.state 2).put CD_STATUS.state 1).modCd (fun c => { c with measureStart := s.now })
  else s

/-- A channel that fails a step of 4 or 5, or all of whose LUNs failed. Which steps it had passed is open (log 6). -/
def Dev.channelFails (s : Dev) (n : Nat) (some_ : Bool) : Dev :=
  let r := s.draw
  let passed := if some_ then (Config.freeWord r.1).toNat % 4 else 0
  let s := r.2.each ([FC_STATUS.zq_done, FC_STATUS.dcc_done, FC_STATUS.read_trained].take passed) (fun s f => s.put (fcReg n f) 1)
  (s.setChannel n 5).fatal (Src.channel n) Kind.channelFailed n 0

/-- FC issues these entries on these LUNs of a channel, LUN by LUN. -/
def Dev.issueAll (s : Dev) (luns entries : List Nat) : Dev := s.each luns (fun s l => s.each entries (fun s e => s.issue l e))

/-- A row that runs flash operations to their end admits them one after another: it goes on only where the ceiling has room for
each of these costs (R202, R216; log 94). -/
def Dev.roomFor (s : Dev) (costs : List Nat) : Bool := costs.all (fun c => s.fits c)
/-- Costs of the operations of bring-up (R202), and of reads. -/
def Dev.bringUpCosts (s : Dev) : List Nat := [s.get MS_COST_ERASE.erase_ma, s.get MS_COST_READ.read_ma, s.get MS_COST_XFER.xfer_ma]
def Dev.readCosts (s : Dev) : List Nat := [s.get MS_COST_READ.read_ma, s.get MS_COST_XFER.xfer_ma]

/-- The outcome of one channel: resets, identification, and with LUNs left interface switch, calibration and training. -/
def Dev.channelOutcome (d : Dev) (channel : Nat) (failedLuns : BitVec 32) (trained : Bool) (readEye writeEye : Nat) : Dev :=
  let all := d.lunNumbers.map (fun l => 32 * channel + l)
  let bad := d.lunNumbers.filter (fun l => failedLuns.getLsbD l)
  let left := (d.lunNumbers.filter (fun l => !failedLuns.getLsbD l)).map (fun l => 32 * channel + l)
  let d := ((d.modMs (fun m => { m with ceHigh := m.ceHigh.filter (fun n => n != channel) })).issueAll all [0]).setChannel channel 2
  let d := d.issueAll all [1, 2]
  let d := d.each bad (fun d l => d.live (fun d => d.bringUpFails (32 * channel + l)))
  d.live (fun d =>
    let d := if left.isEmpty then d else (d.setChannel channel 3).issueAll left [3, 15]
    if trained && !left.isEmpty then d.channelUp channel readEye writeEye
    else d.channelFails channel (!left.isEmpty))

/-- FLASH_BRING_UP: one channel runs its sequence under the ramp's ceiling; failedLuns are the LUNs that fail, trained whether
steps 4 and 5 pass. -/
def execFlashBringUp (channel : Nat) (failedLuns : BitVec 32) (trained : Bool) (readEye writeEye : Nat) (s : State) : Res :=
  act s (fun d => d.bootAt 5 && d.pw.fphy && channel < 128 && d.get (fcReg channel FC_STATUS.state) = 1
      && d.roomFor d.bringUpCosts) (fun d => d.channelOutcome channel failedLuns trained readEye writeEye)

end Sys2Proof.Machine
end

