-- ==== Sys2Proof/Machine/Wake.lean ====
section
/-! DEFINITION. The end of boot step 5 and boot step 6: WAKE_AUDIT_MEASUREMENT and CHECKPOINT_LOAD (R184 to R189, R201, R207,
R245, R246, R275, R294, R434, R440, R441, R446). -/

namespace Sys2Proof.Machine
open Reg

/-! ### The measurement phase (R245, R246) -/

/-- Wrong cells of the threshold at place i of the sweep level, at step k; and of all its thresholds. -/
def wrongAt (m : Measure) (k i : Nat) : Nat := (m.counts.getD k []).getD i 0
def wrongAll (m : Measure) (k : Nat) : Nat := (m.counts.getD k []).sum

/-- Of sixteen steps, the lowest at which f is smallest. -/
def leastStep (f : Nat → Nat) : Nat := (List.range 16).foldl (fun b k => if f k < f b then k else b) 0

/-- The step with the fewest wrong cells for threshold n − 1, the highest of the sweep level. -/
def Dev.valleyStep (s : Dev) (m : Measure) : Nat := leastStep (fun k => wrongAt m k ((s.levelThresholds s.sweepLevel).length - 1))

/-- The sweep step nearest the predicted reference of threshold n − 1 (log 95). -/
def Dev.predictedStep (s : Dev) (w : Witness) (age : Nat) : Nat :=
  let t := s.thresholds - 1
  leastStep (fun k => ((w.valley.find t).getD 0 - ((k * s.get CD_WITNESS_CFG.sweep_step : Nat) : Int) - s.predicted w.wear (ageBinOf age) t).natAbs)

/-- The wrong-cell rate at a step is at most hard_rber: over the cells of plane 0 (log 95). -/
def Dev.withinHard (s : Dev) (m : Measure) (k : Nat) : Bool :=
  100000 * wrongAll m k ≤ s.get CD_WITNESS_CFG.hard_rber * (8 * s.image.rawPage)

/-- The witness tier of a measurement. -/
def Dev.measureTier (s : Dev) (m : Measure) (w : Witness) (age : Nat) (beyond : Bool) : Nat :=
  if beyond then 2
  else if s.withinHard m (s.predictedStep w age) then 0
  else if s.withinHard m (s.valleyStep m) then 1 else 2

/-- CD's search for a LUN's witness blocks: two of the 64 highest block groups whose word line 0 has a footer of kind 5, the one
with the higher witness_seq there first (R242, R245). -/
def Dev.foundWitness (s : Dev) (m : Measure) : List Nat :=
  let first (b : Nat) : Option Witness := (s.witnesses m.lun).find? (fun w => w.which = b && w.wl = 0 && !m.bad.contains w.seq)
  let two := ((((List.range s.blockGroups).reverse.take 64).filterMap first).take 2)
  (sortBy (fun a b => b.seq ≤ a.seq) two).map (fun w => w.which)

/-- The lines the audit tries, in order: from the highest programmed word line of the active block down, then of the other. -/
def Dev.lineOrder (s : Dev) (m : Measure) : List Witness :=
  (s.foundWitness m).flatMap (fun b => sortBy (fun (a c : Witness) => c.wl ≤ a.wl) ((s.witnesses m.lun).filter (fun w => w.which = b)))

/-- The first line whose footer decodes, and the first below a line of this sequence. -/
def Dev.measuredLine (s : Dev) (m : Measure) : Option Witness := (s.lineOrder m).find? (fun w => !m.bad.contains w.seq)
def Dev.lowerLine (s : Dev) (m : Measure) (seq : Nat) : Option Witness :=
  (((s.lineOrder m).dropWhile (fun w => w.seq != seq)).drop 1).find? (fun w => !m.bad.contains w.seq)

/-- One LUN is measured from a witness line. -/
def Dev.measureFrom (s : Dev) (m : Measure) (w : Witness) : Dev :=
  let a := s.sweepAge w.wear (s.valleyStep m)
  let tier := s.measureTier m w a.1.1 a.1.2
  a.2.modDrift m.lun (fun x => { x with
    d := w.stamp + a.1.1
    stamp := w.stamp
    age := a.1.1
    line := some w.seq
    tier := tier
    measured := true
    marked := a.1.2
    rest := 0 })

/-- A LUN with no line to measure takes this age; what its stamp was is open (log 6). -/
def Dev.noWitness (s : Dev) (lun age : Nat) : Dev :=
  let r := s.draw
  let stamp := (Config.freeWord r.1).toNat % 2 ^ 32
  r.2.modDrift lun (fun x => { x with
    d := stamp + age
    stamp := stamp
    age := age
    line := none
    tier := 2
    measured := false
    marked := true
    rest := 0 })

/-- CD_AUDIT_LUNS counts the LUNs measured, and those marked "no witness" or "beyond curve". -/
def Dev.countMeasured (s : Dev) : Dev :=
  let n (f : Drift → Bool) : Nat := (s.goodLuns.filter (fun l => f (s.drift l))).length
  (s.put CD_AUDIT_LUNS.measured (n Drift.measured)).put CD_AUDIT_LUNS.no_witness (n Drift.marked)

/-- What was read on a LUN; where the row's operand names no such LUN, every footer decoded and no cell was wrong. -/
def measureOf (l : List Measure) (lun : Nat) : Measure := (l.find? (fun m => m.lun = lun)).getD { lun := lun, bad := [], counts := [] }

/-- The largest age measured among these LUNs. -/
def Dev.largestAge (s : Dev) (luns : List Nat) : Option Nat :=
  luns.foldl (fun b l =>
    let x := s.drift l
    if x.measured then some (max (b.getD 0) x.age) else b) none

/-- LUNs with no witness take the largest age of their channel, else of the device (R246). -/
def Dev.fillAges (s : Dev) : Dev :=
  let luns := s.goodLuns
  let device := (s.largestAge luns).getD 0
  let none_ := (luns.filter (fun l => !(s.drift l).measured)).map (fun l =>
    (l, (s.largestAge (luns.filter (fun k => k / 32 = l / 32))).getD device))
  s.each none_ (fun s x => s.noWitness x.1 x.2)

/-- The witness interval counts from the LUN's last line (R244). -/
def Dev.noteLastLines (s : Dev) : Dev :=
  s.each s.goodLuns (fun s l => s.modDrift l (fun x => { x with
    lastWitness := (((s.witnesses l).getLast?).map (fun w => 1000 * w.opt.toNat)).getD 0 }))

/-- The results enter the drift clocks, and boot step 5 ends (R245, R246). -/
def Dev.takeMeasures (d : Dev) (results : List Measure) : Dev :=
  let d := d.each d.goodLuns (fun d l =>
    match d.measuredLine (measureOf results l) with
    | some w => d.measureFrom (measureOf results l) w
    | none => d)
  let d := d.fillAges.noteLastLines.countMeasured
  let d := d.put CD_AUDIT_TIME.measure_ms (min ((d.now - d.cd.measureStart) / 1000) 65535)
  (((d.put CD_STATUS.state 2).put MP_STATUS.state 1).put RC_STATUS.state 1).endBootStep 5

/-- WAKE_AUDIT_MEASUREMENT: every LUN is measured under the ramp's ceiling, and boot step 5 ends. I/O commands wait meanwhile, since
Dev.candidate starts none before Running, and an FLR does not stop the audit, since Dev.functionReset changes neither CD nor the boot step
(R249). -/
def execWakeAuditMeasurement (results : List Measure) (s : State) : Res :=
  act s (fun d => d.bootAt 5 && d.get MS_STATUS.state = 2 && d.get CD_STATUS.state = 1 && d.roomFor d.readCosts) (fun d => d.takeMeasures results)

/-! ### The footers that replay reads (R188, R189) -/

/-- A footer and its place. -/
abbrev Footer := Nat × OnFlash

/-- A set of an earlier life of the block group. -/
def OnFlash.stale (x : OnFlash) (r : CkptRec) : Bool := x.seq ≤ r.cutSeq && x.ckptSeq + 1 < r.seq

/-- The footers of one member from a word line on. A torn set and one of an earlier life end the member; a word line that an
early close left erased is passed over (R234; log 40). -/
def Dev.memberFooters (s : Dev) (r : CkptRec) (lun block from_ : Nat) : List Footer :=
  if s.lunFailed lun then []
  else
    let places := (List.range (s.wordLines - from_)).map (fun i => Pga.mk lun block (from_ + i) 0)
    let ends (a : Nat) : Bool := s.nand.torn.contains a || (match s.nand.sets.find a with | some x => x.stale r | none => false)
    (places.takeWhile (fun a => !ends a)).filterMap (fun a => (s.nand.sets.find a).map (fun x => (a, x)))

/-- The footers of one block stripe. -/
def Dev.stripeFooters (s : Dev) (r : CkptRec) (id from_ : Nat) : List Footer :=
  (s.membersOf id).flatMap (fun l => s.memberFooters r l (Pga.block id) from_)

/-- The block stripe that follows: a named successor one of whose footers at word line 0 is younger than all of these. -/
def Dev.nextStripe (s : Dev) (r : CkptRec) (l : List Footer) : Option Nat :=
  let top := (l.map (fun f => f.2.seq)).foldl max 0
  ((l.map (fun f => f.2.successor)).dedup.filter (fun n => n != noStripe)).find? (fun n =>
    (s.stripeFooters r n 0).any (fun f => Pga.wl f.1 = 0 && top < f.2.seq))

/-- The chain of block stripes from one of them, at most fuel of them. -/
def Dev.chain (s : Dev) (r : CkptRec) (id from_ : Nat) : Nat → List (Nat × List Footer)
  | 0 => []
  | fuel + 1 =>
    let l := s.stripeFooters r id from_
    (id, l) :: (match s.nextStripe r l with
      | some n => s.chain r n 0 fuel
      | none => [])

/-- What replay from a record reads: the block stripes with their footers. -/
def Dev.walk (s : Dev) (r : CkptRec) : List (Nat × List Footer) :=
  r.replay.flatMap (fun e => s.chain r e.stripe e.from_ (s.nand.sets.length + 1))

/-- Every footer read, once. -/
def Dev.walkFooters (s : Dev) (r : CkptRec) : List Footer :=
  ((s.walk r).flatMap (fun x => x.2)).foldl (fun l f => if l.any (fun g => g.1 = f.1) then l else l ++ [f]) []

/-! ### Boot step 6 -/

/-- Sets at these places are as if never programmed, and so are the copies of a record they hold (R189). -/
def Dev.dropSets (s : Dev) (bad : List Nat) : Dev :=
  s.modNand (fun n => { n with
    sets := n.sets.filter (fun e => !bad.contains e.1)
    torn := (n.torn ++ bad).dedup
    recs := (n.recs.map (fun r => { r with places := r.places.filter (fun a => !bad.contains a) })).filter (fun r => !r.places.isEmpty) })

/-- Sets that a cut has left torn. -/
def Dev.dropTorn (s : Dev) (torn : List Nat) : Dev :=
  let bad := s.nand.sets.filter (fun e => torn.contains e.2.seq && s.nand.cut.contains e.2.seq)
  (s.dropSets (bad.map (fun e => e.1))).modNand (fun n => { n with cut := [] })

/-- Copies of records that do not decode or fail their crc are passed over (R188). -/
def Dev.dropCopies (s : Dev) (bad : List Nat) : Dev :=
  s.dropSets (s.nand.recs.flatMap (fun r => r.places.filter (fun a => bad.contains a)))

/-- Footers that replay reads from a record and that do not decode within L2: their sets are as if never programmed (R189). -/
def Dev.dropFooters (s : Dev) (r : CkptRec) (torn : List Nat) : Dev :=
  s.dropSets (((s.walkFooters r).filter (fun f => torn.contains f.2.seq)).map (fun f => f.1))

/-- The readable record with the highest sequence. -/
def Dev.highestRec (s : Dev) : Option CkptRec :=
  s.nand.recs.foldl (fun b r => match b with
    | none => some r
    | some x => if x.seq < r.seq then some r else some x) none

/-- EV finds the log and the health ring: what the newest footers and the newest snapshot hold (R440, R441, R446). -/
def Dev.locateLog (s : Dev) : Dev :=
  let n := s.nand
  let s := ((s.put EV_LOG_LOC.channel_a n.evA).put EV_LOG_LOC.channel_b n.evB).put EV_STATUS.located 1
  let s := s.addSat EV_DROPPED.dropped n.logDropped
  let s := s.put EV_NEXT_SEQ.seq (s.get EV_NEXT_SEQ.seq + n.logSeq)
  let s := s.each (List.range 34) (fun s i => s.addSat (EV_TEMP_BIN.seconds.at (4 * i)) ((n.health.bins.find i).getD 0))
  s.modEv (fun e => { e with
    health := n.health
    ring := e.ring.map (fun r => { r with seq := (r.seq + n.logSeq) % 2 ^ 24 }) })

/-- The bases of R434 are applied to OPT, PCC and the records of the staging ring; OPT timers go on from the new value. -/
def Dev.applyBases (s : Dev) (b pcc : Nat) : Dev :=
  let seconds (x : Nat) : Nat := x / 1000
  let old := s.opt.toNat
  let s := ((s.put PW_OPT.opt (old + b)).put PW_PCC.pcc pcc).put PW_OPT.based 1
  let s := s.modMem (fun m => { m with scrubOpt := m.scrubOpt + 1000 * b })
  s.modEv (fun e => { e with
    ring := e.ring.map (fun r => { r with
      opt := r.opt + BitVec.ofNat 48 b
      pcc := r.pcc + pcc })
    lastSnapshot := e.lastSnapshot + 1000 * b
    binSecond := seconds (old + b) - (seconds old - e.binSecond) })

/-- The largest stamp of R434: of the record, the footers that replay reads, and the newest record of the log. -/
def Dev.optBase (s : Dev) (r : CkptRec) : Nat :=
  let log := ((s.nand.log.getLast?).map (fun e => e.opt.toNat)).getD 0
  let feet := if r.stop then [] else (s.walkFooters r).map (fun f => f.2.opt.toNat)
  feet.foldl max (max r.opt.toNat log)

/-- Fix the boot cause (R294). -/
def Dev.fixCause (s : Dev) (c : Nat) : Dev :=
  let c := if s.pw.mark.isSome then 4 else c
  let s := s.put PW_BOOT_CAUSE.cause (s.get PW_BOOT_CAUSE.cause / 8 * 8 + c)
  s.modPw (fun w => { w with cause := c })

/-- MP's part of the record: tables, sequences, an empty cache; the directory comes from the pages that the root table leads to. -/
def Dev.loadMap (s : Dev) (r : CkptRec) : Dev :=
  let roots := s.treeRoots r.roots
  let dir := s.treeDir r
  let s := s.modMp (fun m => { m with
    map := []
    dir := dir
    roots := roots
    rootTable := r.roots
    records := []
    cached := []
    dirty := []
    ns := r.ns
    epochs := r.epochs
    ckpt := none
    again := false
    cutTick := s.now
    prevCut := r.cutSeq
    hostBlocks := 0
    mediaBytes := 0 })
  let seq := r.cutSeq + 2 ^ 32
  let s := (s.modMs (fun m => { m with progSeq := seq })).put MP_PROG_SEQ.seq seq
  let s := (s.put MP_CKPT_SEQ.seq r.seq).flag MP_STATUS.clean r.stop
  s.put MP_LOST_PAGES.lost (dir.filter (fun e => e.2.lost)).length

/-- RC's part: block table, reclaim state, victims, and the LUNs still to rebuild. -/
def Dev.loadReclaim (s : Dev) (r : CkptRec) : Dev :=
  let table := s.treeTable s.mp.dir
  let victims := (table.filter (fun e => e.2.state == .victim)).map (fun e => s.stripeOf (e.1 / 32768) (e.1 % 32768))
  let left := r.failed.filter (fun l => !r.rebuilt.contains l)
  let s := s.modRc (fun x => { x with
    table := table
    tableExtent := r.tableExtent
    failed := r.failed
    rebuilt := r.rebuilt
    q := r.q
    sealedOpt := r.sealedOpt
    victims := victims.dedup
    passes := []
    emptied := [] })
  let s := s.each left (fun s l => s.addPass { why := .rebuild l, left := s.setsIn l none, urgent := true })
  let s := (s.put RC_SPARE_FORMAT.spare r.spareFormat).put RC_MOVED.moved r.moved
  let s := (s.put RC_LUN_CFG.failed r.failed.length).flag RC_STATUS.sealed r.sealed
  s.flag RC_STATUS.rebuilding (!left.isEmpty)

/-- Failed LUNs are merged: a stored one stays failed and its measurement is discarded, a new one is absorbed (R275). -/
def Dev.mergeFailed (s : Dev) : Dev :=
  let new := s.slotLuns.filter (fun l => s.lunFailed l && !s.rc.failed.contains l)
  let s := s.each s.rc.failed (fun s l =>
    let f := fcReg (l / 32) FC_LUN_FAILED.failed
    (s.put f (s.get f ||| 2 ^ (l % 32))).modCd (fun c => { c with drift := c.drift.erase l }))
  s.each new (fun s l =>
    s.live (fun s => (if l % 32 = 0 then s.moveRings (l / 32) else s).absorbLun l))

/-- The stripes that were open are closed: their write places are not kept across a wake (R188; log 41). -/
def Dev.closeOpen (s : Dev) : Dev :=
  (s.modRc (fun r => { r with table := r.table.map (fun e => if e.2.state == .open_ then (e.1, { e.2 with state := .closed }) else e) })).noteFree

/-- The condition of R187 begins anew for every stripe that is empty. -/
def Dev.noteAllEmptied (s : Dev) : Dev := s.each s.allStripes (fun s i => s.noteEmptied i)

/-- The load of a record: step 6 ends, and step 7 begins with the wake checkpoint or with replay. -/
def Dev.loadRecord (s : Dev) (r : CkptRec) : Dev :=
  let s := ((s.loadMap r).loadReclaim r).locateLog
  let s := s.applyBases (s.optBase r) (min (r.pcc + 1) 0xffffffff)
  let s := s.modHost (fun h => { h with
    stopWall := if r.stop then r.wall else none
    stopPrepare := if r.stop then r.prepareMs else 0
    stopMark := if r.stop then some (r.opt, r.pcc, r.witnessFailed) else none })
  let s := (s.fixCause (if r.stop then 2 else 3)).mergeFailed
  s.live (fun s =>
    let s := if r.stop then s.closeOpen.noteAllEmptied else s.noteFree
    let s := s.endBootStep 6
    if r.stop then (s.put MP_STATUS.state 3).beginCkpt true else s.put MP_STATUS.state 2)

/-- No record: the wake formats where R201 permits it, else it is fatal. -/
def Dev.noRecord (s : Dev) : Dev :=
  let s := s.fixCause 1
  if s.image.permit.isSome && !s.nand.formatted then
    (s.put PW_STATE.format 1).applyBases 0 1
  else s.fatal Src.wardenFw Kind.formatMismatch 1 0

/-- What cannot be read of the flash at this wake, but for the footers that a record leads replay to. -/
def Dev.dropUnreadable (s : Dev) (bad : Unreadable) : Dev :=
  ((s.dropTorn bad.torn).dropCopies bad.copies).modMp (fun m => { m with unread := bad.pages })

/-- CHECKPOINT_LOAD: of the records that decode, the newest. -/
def execCheckpointLoad (bad : Unreadable) (s : State) : Res :=
  act s (fun d => d.bootAt 6 && d.get MP_STATUS.state = 1 && !d.bit PW_STATE.format && d.roomFor d.readCosts) (fun d =>
    let d := d.dropUnreadable bad
    match d.highestRec with
    | none => d.noRecord
    | some r =>
      if d.nand.bits ≠ d.bitsPerCell then d.fatal Src.wardenFw Kind.formatMismatch 2 0
      else if d.nand.slots ≠ d.slotCount then d.fatal Src.wardenFw Kind.formatMismatch 3 0
      else (if r.stop then d else d.dropFooters r bad.torn).loadRecord r)

end Sys2Proof.Machine
end

