-- ==== Sys2Proof/Machine/Replay.lean ====
section
/-! DEFINITION. Boot step 7 after an unclean loss: REPLAY (R188 to R190, R207, R234 to R236). -/

namespace Sys2Proof.Machine
open Reg

/-- An epoch is that of a namespace that exists. -/
def Dev.epochNow (s : Dev) (ns : Nat) (e : BitVec 8) : Bool := s.mp.ns.has ns && (s.mp.epochs.find ns).getD 0 = e

/-! ### Pass 1: map pages -/

/-- How far a footer's page_seq, of 19 bits, lies past the directory's for that page; below 2^18 it is newer (R181, R188; log 96). -/
def pageAhead (footer dir : Nat) : Nat := (footer % 2 ^ 19 + 2 ^ 19 - dir % 2 ^ 19) % 2 ^ 19
def pageNewer (footer dir : Nat) : Bool := 0 < pageAhead footer dir && pageAhead footer dir < 2 ^ 18

/-- A page whose entries pass 1 applies: of a namespace that exists with that epoch, or of the block table, whose epoch is 0
(R188, R264). Directory and root pages of a checkpoint that no record names are left aside. -/
def Dev.pageNow (s : Dev) (c : PageCopy) : Bool := if pageNs c.page = tableNs then c.epoch = 0 else s.epochNow (pageNs c.page) c.epoch

/-- Point the directory at a page copy that is newer than what it names; the count is of changes. -/
def replayPage (x : Dev × Nat) (c : PageCopy) : Dev × Nat :=
  let old := ((x.1.mp.dir.find c.page).map (fun d => d.pageSeq)).getD 0
  if x.1.pageNow c && pageNewer c.pageSeq old then
    (x.1.modMp (fun m => { m with
      dir := m.dir.put c.page { addrA := c.addrA, addrB := c.addrB, lost := false, pageSeq := old + pageAhead c.pageSeq old } }), x.2 + 1)
  else x

/-- The page copies that the map-kind footers name, in program-sequence order. -/
def Dev.readPages (s : Dev) (feet : List Footer) : List PageCopy :=
  let places := (feet.filter (fun f => f.2.kind == .map)).map (fun f => f.1)
  sortBy (fun a b => a.progSeq ≤ b.progSeq)
    (s.nand.pages.filter (fun c => places.contains (Pga.set (c.addrA / 16)) || places.contains (Pga.set (c.addrB / 16))))

/-! ### Pass 2: data footers -/

/-- An entry's page is loaded: its copy on flash costs a miss, and where neither replica can be read the page is lost (R168). -/
def Dev.replayLoad (s : Dev) (pg : Nat) : Dev :=
  if s.pageOpen pg then s
  else if s.mp.unread.contains pg then (s.add MP_CACHE_MISSES.misses 1).pageLostNow pg
  else (s.add MP_CACHE_MISSES.misses 1).bringIn pg

/-- One footer entry: a host version by its stamp, a copy by its source. -/
def replaySlot (x : Dev × Nat) (place k : Nat) (e : SlotEntry) : Dev × Nat :=
  let now : Bool := e.kind != 0 && x.1.epochNow (gkeyNs e.key) e.epoch
  let s := if now then x.1.replayLoad (pageOf e.key) else x.1
  let m := s.ent e.key
  if !now then x
  else if e.kind = 1 then
    if stampNewer e.stamp (BitVec.ofNat 16 (Ent.stamp m)) then
      (s.putEnt e.key (Ent.mk (place + k) e.stamp.toNat false false e.sub false), x.2 + 1)
    else (s, x.2)
  else if Ent.mapped m && Ent.stamp m = e.stamp.toNat && Ent.pga m = e.source then
    (s.putEnt e.key (Ent.mk (place + k) e.stamp.toNat false false (Ent.sub m) false), x.2 + 1)
  else (s, x.2)

/-- A data footer. -/
def replaySet (x : Dev × Nat) (f : Footer) : Dev × Nat :=
  (f.2.slots.mapIdx (fun k e => (k, e))).foldl (fun x p => replaySlot x f.1 p.1 p.2) x

/-- The data footers in program-sequence order. -/
def dataFooters (feet : List Footer) : List Footer :=
  sortBy (fun a b => a.2.seq ≤ b.2.seq) (feet.filter (fun f => f.2.kind == .data))

/-! ### Closing what was read (R188, R234, R235) -/

/-- The positions of a row that hold something: a set, or a torn one. -/
def Dev.takenAt (s : Dev) (members : List Nat) (block wl : Nat) : List Nat :=
  (List.range members.length).filter (fun p =>
    let a := Pga.mk (members.getD p 0) block wl 0
    s.nand.sets.has a || s.nand.torn.contains a)

/-- The rows read of a stripe whose parity covers not exactly the data sets present. -/
def Dev.rowsToClose (s : Dev) (id : Nat) (feet : List Footer) : List Row :=
  let wls := sortNat (feet.map (fun f => Pga.wl f.1)).dedup
  wls.filterMap (fun wl =>
    let here := feet.filter (fun f => Pga.wl f.1 = wl)
    let data := (here.filter (fun f => f.2.kind != .parity)).map (fun f => f.2.seq)
    let covered : Bool := here.any (fun f => f.2.kind == .parity && data.all (fun q => f.2.covered.contains q)
      && f.2.covered.all (fun q => data.contains q))
    if data.isEmpty || covered then none
    else some { wl := wl, sets := data, used := s.takenAt (s.membersOf id) (Pga.block id) wl })

/-- Close one row of a stripe early. -/
def Dev.closeReadRow (s : Dev) (id : Nat) (r : Row) : Dev :=
  let s := s.modStripe id (fun t => { t with row := r })
  match s.stripe id with
  | some t => s.closeRow t true
  | none => s

/-- Close a stripe that replay has read: its rows get their parity, and no stream writes into it again. -/
def Dev.closeRead (s : Dev) (id : Nat) (feet : List Footer) : Dev :=
  let rows := s.rowsToClose id feet
  let stream := ((feet.head?).map (fun f => f.2.stream)).getD 15
  let s := s.each (s.presentIn id) (fun s l => s.modEntry l (Pga.block id) (fun e => { e with
    state := .open_
    stream := if stream = 15 then e.stream else stream }))
  let t : Stripe := { id := id, stream := stream, members := s.membersOf id, block := Pga.block id, row := { wl := 0 }, successor := none }
  let s := s.modMs (fun m => { m with stripes := m.stripes.filter (fun u => u.id != id) ++ [t] })
  ((s.each rows (fun s r => s.closeReadRow id r)).endStripe id).dropStripes

/-- Successors that the footers name and that replay has not read (R207). -/
def successorsOf (feet : List Footer) (read : List Nat) : List Nat :=
  ((feet.map (fun f => f.2.successor)).dedup).filter (fun i => i != noStripe && !read.contains i)

/-! ### The block table's counts (R263) -/

/-- Every map entry of every page that can be read. -/
def Dev.allEntries (s : Dev) : List Qword :=
  (s.mp.dir.keys ++ s.mp.cached).dedup.flatMap (fun pg =>
    if s.pageLost pg then []
    else if s.mp.cached.contains pg then (s.pageEntries pg).vals
    else match s.pageCopy pg with
      | some c => c.entries.vals
      | none => [])

/-- valid and pinned of every block group, counted from the map. -/
def Dev.recount (s : Dev) : Dev :=
  let es := s.allEntries
  let s := s.modRc (fun r => { r with
    emptied := []
    table := (r.table.map (fun e => (e.1, { e.2 with valid := 0, pinned := 0 }))).filter (fun e => e.2 != {}) })
  s.each es (fun s e => s.countEnt e true)

/-! ### REPLAY -/

/-- Pass 1: the directory, and with it the block table. -/
def Dev.passOne (s : Dev) (feet : List Footer) : Dev × Nat :=
  let one := (s.readPages feet).foldl replayPage (s, 0)
  (one.1.modRc (fun r => { r with table := one.1.treeTable one.1.mp.dir }), one.2)

/-- Replay from a record. -/
def Dev.replayFromRec (s : Dev) (r : CkptRec) : Dev :=
  let walk := s.walk r
  let feet := s.walkFooters r
  let two := (dataFooters feet).foldl replaySet (s.passOne feet)
  two.1.live (fun s =>
    let read := (walk.map (fun x => x.1)).dedup
    let s := s.each read (fun s id =>
      s.closeRead id (feet.filter (fun f => Pga.block f.1 = Pga.block id && (s.membersOf id).contains (Pga.dieLun f.1))))
    let s := s.modMs (fun m => { m with reErase := (m.reErase ++ successorsOf feet read).dedup })
    let s := s.closeOpen.recount.noteAllEmptied
    let s := (s.put MP_REPLAY_FOOTERS.footers (min feet.length 0xffffffff)).put MP_REPLAY_APPLIED.applied (min two.2 0xffffffff)
    let s := (s.event 0x0601 Src.mp feet.length two.2 ((s.now - s.pw.stepStart) / 1000)).raise (Irq.mp 3)
    (s.put MP_STATUS.state 3).beginCkpt true)

/-- REPLAY: the whole of it. The step ends when the closing checkpoint is durable. -/
def execReplay (s : State) : Res :=
  actOn s (fun d => if d.bootAt 7 && d.get MP_STATUS.state = 2 && d.roomFor d.readCosts then d.newestRec else none) (fun d r =>
    d.replayFromRec r)

end Sys2Proof.Machine
end

