-- ==== Sys2Proof/Machine/Verdict.lean ====
section
/-! DEFINITION. The verdict phase, its sampling, and the format: VERDICT_PHASE, BANK_SAMPLING and FORMAT (R156, R201, R241 to
R249, R278, R298, R440). -/

namespace Sys2Proof.Machine
open Reg

/-! ### Verdict (R247) -/

/-- Current wall time less the stop record's, in ms, where it is not negative (R156). -/
def Dev.elapsedWall (s : Dev) : Option Nat :=
  match s.host.stopWall, s.wallNow with
  | some a, some b => if a ≤ b then some (b - a) else none
  | _, _ => none

/-- The line a LUN was measured from. -/
def Dev.driftLine (s : Dev) (lun : Nat) : Option Witness := (s.witnesses lun).find? (fun w => some w.seq = (s.drift lun).line)

/-- A line is the stop witness of the loaded stop record. -/
def Dev.isStopWitness (s : Dev) (w : Witness) : Bool :=
  match s.host.stopMark with
  | some (opt, pcc, _) => w.reason = 2 && w.opt == opt && w.pcc = pcc
  | none => false

/-- The stop body marks a LUN in witness_failed. -/
def Dev.stopMarked (s : Dev) (lun : Nat) : Bool :=
  match s.host.stopMark with
  | some (_, _, bad) => bad.contains lun
  | none => false

/-- LUNs measured from a stop witness that the stop body marks as failed. -/
def Dev.toRemeasure (s : Dev) : List Nat :=
  s.goodLuns.filter (fun l => s.stopMarked l && (match s.driftLine l with | some w => s.isStopWitness w | none => false))

/-- Measure such a LUN again from the next lower line whose footer decodes; with no such line it has no witness. -/
def Dev.remeasure (s : Dev) (results : List Measure) (lun : Nat) : Dev :=
  let m := measureOf results lun
  match s.lowerLine m (((s.drift lun).line).getD 0) with
  | some w => s.measureFrom m w
  | none =>
    let luns := s.goodLuns.filter (fun l => l != lun)
    s.noWitness lun ((s.largestAge (luns.filter (fun k => k / 32 = lun / 32))).getD ((s.largestAge luns).getD 0))

/-- A LUN's age by wall time in 1/16 hour, clamped to 0.85 and 1.15 times the provisional age. -/
def Dev.wallAge (s : Dev) (ms provisional : Nat) : Nat :=
  let age := ms * s.get CD_DRIFT_CFG.off_factor / 3600000
  min (max age (85 * provisional / 100)) (115 * provisional / 100)

/-- The elapsed wall time where it serves this LUN. -/
def Dev.wallFor (s : Dev) (lun : Nat) : Option Nat :=
  if s.stopMarked lun || !(match s.driftLine lun with | some w => s.isStopWitness w | none => false) then none else s.elapsedWall

/-- Fix a LUN's drift clock. -/
def Dev.fixDrift (s : Dev) (lun : Nat) : Dev :=
  match s.wallFor lun with
  | some ms =>
    let age := s.wallAge ms (s.drift lun).age
    s.modDrift lun (fun x => { x with
      age := age
      d := x.stamp + age
      rest := 0 })
  | none => s.modDrift lun (fun x => { x with
      d := x.stamp + x.age
      rest := 0 })

/-- The banks that hold a LUN at witness tier 2. -/
def Dev.banksToSample (s : Dev) : List Nat := sortNat (((s.goodLuns.filter (fun l => (s.drift l).tier = 2)).map bankOf).dedup)

/-- The audit is complete: MS and RC are Running (R202 step 8). -/
def Dev.auditComplete (s : Dev) : Dev :=
  let ms := (s.now - s.cd.measureStart) / 1000
  let s := ((s.put CD_AUDIT_TIME.total_ms (min ms 65535)).put CD_STATUS.state 4).event 0x0801 Src.cd (s.get CD_AUDIT_LUNS.measured)
    (s.get CD_AUDIT_BANKS.sampled) ms
  ((s.raise (Irq.cd 2)).msRunning).put RC_STATUS.state 2

/-- The verdict phase: what each LUN is remeasured at and fixed to, and the banks that are to be sampled (R247). -/
def Dev.verdicts (d : Dev) (remeasured : List Measure) : Dev :=
  let again := d.toRemeasure
  let d := d.each again (fun d l => d.remeasure remeasured l)
  let d := d.countMeasured
  let used := d.goodLuns.any (fun l => (d.wallFor l).isSome)
  let d := (d.each d.goodLuns (fun d l => d.fixDrift l)).flag CD_STATUS.wall_used used
  let d := if used then d.modCmd d.host.wallAcc (fun c => { c with waitOn2 := 1 }) else d
  let banks := d.banksToSample
  let d := ((d.modCd (fun c => { c with toSample := banks })).noteDrift).endBootStep 8
  if banks.isEmpty then (d.auditComplete).modPw (fun w => { w with bootStep := 10 })
  else d.put CD_STATUS.state 3

/-- VERDICT_PHASE: remeasured is what is read on LUNs whose stop witness the stop body marks as failed. -/
def execVerdictPhase (remeasured : List Measure) (s : State) : Res :=
  act s (fun d => d.bootAt 8 && (d.toRemeasure.isEmpty || d.roomFor d.readCosts)) (fun d => d.verdicts remeasured)

/-- A bank has been sampled: undecodable, the device has lost data; else it is refreshed, and the last one ends the audit (R248). -/
def Dev.bankSampled (d : Dev) (bank : Nat) (allDecode : Bool) : Dev :=
  let d := (d.modCd (fun c => { c with toSample := c.toSample.erase bank })).add CD_AUDIT_BANKS.sampled 1
  if !allDecode then (d.put CD_STATUS.state 5).fatal Src.cd Kind.retention bank 0
  else
    let d := (d.modCd (fun c => { c with refresh := c.refresh ++ [bank] })).add CD_AUDIT_BANKS.refreshed 1
    if d.cd.toSample.isEmpty then d.auditComplete.endBootStep 9 else d

/-- The highest programmed word-line set of a block group. -/
def Dev.highestSet (s : Dev) (lun b : Nat) : Option Nat :=
  ((s.nand.sets.keys.filter (fun a => Pga.dieLun a = lun && Pga.block a = b)).foldl (fun m a => some (max (m.getD a) a)) none)

/-- The word-line sets that sampling a bank reads: on each LUN, of the eight data-holding block groups with the smallest stamps. -/
def Dev.sampledSets (s : Dev) (bank : Nat) : List Nat :=
  (s.goodLuns.filter (fun l => bankOf l = bank)).flatMap (fun l =>
    ((sortBy (fun a b => (s.entry l a).driftStamp ≤ (s.entry l b).driftStamp) (s.holding l)).take 8).filterMap (fun b => s.highestSet l b))

/-- BANK_SAMPLING: every codeword of those sets is read through L3 (R248); failed are the codeword addresses that fail it. -/
def execBankSampling (bank : Nat) (failed : List Nat) (s : State) : Res :=
  act s (fun d => d.bootAt 9 && d.cd.toSample.contains bank && d.roomFor d.readCosts) (fun d =>
    let read := d.sampledSets bank
    d.bankSampled bank (failed.all (fun a => !read.contains (Pga.set (a / 16)))))

/-! ### Format (R201, R242, R244, R278, R298, R440) -/

/-- Q: the quota fixed at format. -/
def Dev.formatQuota (s : Dev) : Nat :=
  let per := max ((s.width - 1) * s.slotCount * s.wordLines) 1
  s.width * ((s.userGranules + per - 1) / per)

/-- The two highest block groups of a LUN that are not retired are erased and become its witness blocks. -/
def Dev.formatWitness (s : Dev) (lun : Nat) : Dev :=
  let two := ((List.range s.blockGroups).reverse.filter (fun b => (s.entry lun b).state != .retired)).take 2
  s.each two (fun s b => (s.eraseNow lun b).modEntry lun b (fun e => { e with state := .witness }))

/-- System block groups of LUN 0 of a channel; those of a checkpoint ring are erased (log 42). -/
def Dev.formatSystem (s : Dev) (channel first count : Nat) (erase : Bool) : Dev :=
  s.each (List.range count) (fun s i => s.modEntry (32 * channel) (first + i) (fun e => { e with
    erases := if erase then e.erases + 1 else e.erases
    state := .system }))

/-- Where the rings and the log lie: checkpoint ring A on channel c, B on c + 64, log replica A on c + 32, B on c + 96. -/
def Dev.formatPlaces (s : Dev) (c : Nat) : Dev :=
  let at_ (k : Nat) : Nat := (c + k) % 128
  let s := s.modNand (fun n => { n with
    ringA := at_ 0
    ringB := at_ 64
    evA := at_ 32
    evB := at_ 96
    logHalf := false
    logA := 0
    logB := 0
    healthA := 0
    healthB := 0
    log := []
    logSeq := 0
    logDropped := 0
    logClears := 0
    health := {}
    bits := s.bitsPerCell
    slots := s.slotCount
    cut := [] })
  ((s.formatSystem (at_ 0) 0 32 true).formatSystem (at_ 64) 0 32 true).formatSystem (at_ 32) 32 96 false |>.formatSystem (at_ 96) 32 96 false

/-- The format with checkpoint channel c (R201, R242, R244, R278, R298, R440). -/
def Dev.formatDevice (d : Dev) (c : Nat) (badWitness : List Nat) : Dev :=
  let d := (d.formatPlaces c).locateLog
  let d := d.each d.goodLuns (fun d l => (d.formatWitness l).programWitness l 0 (!badWitness.contains l))
  let d := d.modRc (fun r => { r with
    q := d.formatQuota
    tableExtent := (0, d.tablePages) })
  let d := d.noteFree
  let d := (d.put RC_SPARE_FORMAT.spare (d.get RC_SPARE_LEFT.spare)).event 0x0c05 Src.wardenFw d.bitsPerCell d.width 0
  let d := (d.put PW_BOOT_CAUSE.cause (d.get PW_BOOT_CAUSE.cause % 128 + 128)).modPw (fun w => { w with formatted := true })
  (d.mergeFailed).live (fun d => (d.put MP_STATUS.state 3).beginCkpt true)

/-- FORMAT: badWitness are the LUNs whose format witness fails its verify. The first checkpoint ends it. No program or erase begins
while PWR_FAIL_N holds them back (R305). -/
def execFormat (badWitness : List Nat) (s : State) : Res :=
  actOn s (fun d => if d.bootAt 6 && d.bit PW_STATE.format && !d.pw.formatted && !d.bit PW_STATE.prog_hold
      && d.roomFor (d.get MS_COST_PROG.prog_ma :: d.bringUpCosts) then d.image.permit else none) (fun d c => d.formatDevice c badWitness)

end Sys2Proof.Machine
end

