-- ==== Sys2Proof/Machine/Ready.lean ====
section
/-! DEFINITION. Boot step 10: PORTS_RUNNING, with what Warden firmware owes before the ports leave Holding and just after (R78,
R82, R248, R294, R381, R438, R455). -/

namespace Sys2Proof.Machine
open Reg

/-! ### The key record (R455) -/

/-- One copy is made equal to the record in force. -/
def Dev.equalCopy (s : Dev) (l : Nat) : Dev :=
  let r := s.keyRec
  if (s.keyCopy 322).isNone && (s.keyCopy 323).isNone then s
  else if s.keyCopy l = some r then s else s.writeKeyCopy l r

/-- A sector tagged for the key record that nothing maps is erased. -/
def Dev.wipeStale (s : Dev) (p : Nat) : Dev :=
  match (s.sector p).tag with
  | some (l, _) => if (l = 322 || l = 323) && !s.isMapped p then s.wipeSector p else s
  | none => s

def Dev.settleKeys (s : Dev) : Dev := ((s.equalCopy 322).equalCopy 323).each (List.range 512) (fun s p => s.wipeStale p)

/-! ### Deadbolt marks (R381) -/

/-- Mark sector k holds an erased line. -/
def Dev.markRoom (s : Dev) (k : Nat) : Bool := (s.cf.map.find (324 + k)).isSome && (s.freeLineOf (324 + k)).isSome

/-- The active mark sector is one with an erased line; only the inactive one is replaced. -/
def Dev.rotateMarks (s : Dev) : Dev :=
  let a := s.get CF_MARK_CFG.active
  if s.markRoom a then s
  else
    let s := if s.markRoom (1 - a) then s else s.replaceSector (324 + (1 - a)) []
    s.put CF_MARK_CFG.active (1 - a)

/-- Record a mark. -/
def Dev.recordMark (s : Dev) (m : Nat × Nat × BitVec 48 × Nat) : Dev :=
  s.event 0x0105 Src.wardenFw (m.1 + 1024 * m.2.1) (m.2.2.1.toNat % 2 ^ 32) m.2.2.2

/-- Consume a mark: its consumed field is programmed to 0. -/
def Dev.consumeMark (s : Dev) (l i : Nat) : Dev := s.programLogical l i (~~~ BitVec.ofNat 2048 (0xffffffff <<< 128))

/-! ### PORTS_RUNNING -/

/-- A port leaves Holding: the ages of its commands count from now (R95, R125). -/
def Dev.portRuns (s : Dev) (p : Nat) : Dev :=
  let s := s.each ((s.qe.cmds.filter (fun c => c.port == p)).map (fun c => c.acc)) (fun s a => s.modCmd a (fun c => { c with origin := s.now }))
  ((s.modPort p (fun t => { t with state := .running })).noticeOn p 1 (s.get PW_BOOT_CAUSE.cause) 0 0).raise (Irq.qe p 2)

/-- Refresh Due, where the audit found a LUN past the budget. -/
def Dev.announceDue (s : Dev) : Dev :=
  if s.bit CD_STATUS.refresh_due then
    let past := s.pastBudget
    let most := (past.map (fun l => s.dataAge l)).foldl max 0 / 16
    (s.event 0x0802 Src.cd past.length most 0).notice 2 past.length most 0
  else s

/-- A bank refresh that the audit ordered starts: its units are Urgent (R248). -/
def Dev.startBank (s : Dev) (bank : Nat) : Dev :=
  let left := sortNat ((s.goodLuns.filter (fun l => bankOf l = bank)).flatMap (fun l => s.setsIn l none))
  let s := s.addPass { why := .bankRefresh bank, left := left, urgent := true }
  (s.event 0x0803 Src.cd bank 0 0).notice 3 bank 0 0

/-- What boot step 10 does, in order. -/
def Dev.enterRun (d : Dev) : Dev :=
  let marks := d.marks
  let d := d.settleKeys.rotateMarks
  let ready := (d.now - d.pw.step4) / 1000
  let d := (d.endBootStep 10).modPw (fun w => { w with phase := .running })
  let d := d.each d.portList (fun d p => d.portRuns p)
  let d := d.event 0x0101 Src.wardenFw (d.get PW_BOOT_CAUSE.cause) ready (if d.pw.cause = 2 then d.host.stopPrepare else 0)
  let d := d.announceDue
  let banks := d.cd.refresh
  let d := (d.each banks (fun d b => d.startBank b)).modCd (fun c => { c with refresh := [] })
  let d := d.each marks (fun d m => d.recordMark m.2.2)
  let d := d.each d.marks (fun d m => d.consumeMark m.1 m.2.1)
  (d.modPw (fun w => { w with mark := none })).stir

/-- PORTS_RUNNING: boot step 10. -/
def execPortsRunning (s : State) : Res :=
  act s (fun d => d.bootAt 10) (fun d => d.enterRun)

end Sys2Proof.Machine
end

