-- ==== Sys2Proof/Machine/Flr.lean ====
section
/-! DEFINITION. FLR and FLR_COMPLETE (R122, R302, R334, R335, R429). -/

namespace Sys2Proof.Machine
open Reg

/-- A command of the port ends without a completion: before its commit point with the effects of R118 (endGrants, releaseParts,
stopRefresh), after it with its effects kept. In
Deadbolt every command is past it (R124). -/
def Dev.flrCmd (s : Dev) (c : Command) : Dev :=
  let s := if c.committed || s.isDead then s else (if c.op = 0x09 then s.stopRefresh c.acc else s).releaseParts c
  (s.endGrants c.acc).dropCmd c.acc

/-- Every tag with a request outstanding enters quarantine under the value in force before the FLR (R335). -/
def Dev.flrTags (s : Dev) (p : Nat) : Dev :=
  let us := (if (s.port p).ctoDisable then 64000000 else ctoMicros (s.port p).ctoValue) + 50000
  let mine := s.qe.reqs.filter (fun r => r.port == p)
  s.modQe (fun e => { e with
    reqs := e.reqs.filter (fun r => r.port != p)
    reissue := e.reissue.filter (fun r => r.port != p)
    tagQ := e.tagQ ++ mine.map (fun r => ⟨p, r.tag, s.now, us, true⟩) })

/-- Queues 1 to 511 are gone and queue 0 is disabled; the peer queue stays, with nothing to post (R122, R139). -/
def Dev.flrQueues (s : Dev) (p : Nat) : Dev :=
  let s := s.disableAq p
  let left := (s.qe.queues.filter (fun q => q.1 / 1024 != p || q.1 % 1024 = peerQ)).map (fun q =>
    if q.1 = qkey p peerQ then (q.1, { q.2 with waiting := [] }) else q)
  let s := s.modQe (fun e => { e with queues := left })
  s.each [QE_AQ_CFG.enable, QE_AQ_IRQ.irq_time, QE_AQ_RING_BASE.base] (fun s f => s.setReg (qeReg p f).addr (Regs.reset (qeReg p f).addr))

/-- The port's Set Feature values return to their image values (R122, R144). -/
def Dev.flrFeatures (s : Dev) (p : Nat) : Dev :=
  let mine := s.image.queueRegs.filter (fun r => (qeReg p QE_PORT_STATUS.state).addr ≤ r.1 && r.1 < (qeReg p QE_PORT_STATUS.state).addr + 0x100000)
  (s.each mine (fun s r => s.setReg r.1 r.2)).modPort p (fun t => { t with noticeMask := 0 })

/-- Configuration space, MSI-X table, PBA and HP_ counters at their reset values; what AER has recorded is sticky
(R334, log 16). -/
def Dev.flrConfig (s : Dev) (p : Nat) : Dev :=
  let s := s.modPort p (fun t => { t.configReset with
    aer := t.aer
    flrStart := some s.now })
  s.each [4, 12, 16, 20] (fun s o => let a := 0x205000000 + p * 0x1000000 + o; s.setReg a (Regs.reset a))

/-- The Stop of a command of the port: Warden releases in Prepare; Commit proceeds (R302). -/
def Dev.flrStop (s : Dev) (p : Nat) : Dev :=
  match s.pw.hasp with
  | some h =>
    if s.pw.phase == .preparing && s.qe.cmds.any (fun c => c.port == p && some c.acc == h.acc) then
      (s.modHasp (fun h => { h with acc := none })).haspRelease (s.get PW_HASP_STATUS.refused) false
    else s
  | none => s

/-- What an FLR does, in order: tags, a Stop, the commands, the queues, the features, configuration space. It leaves CD, the drift
clocks and the boot step as they are, so a wake audit goes on (R249). -/
def Dev.functionReset (d : Dev) (p : Nat) : Dev :=
  let mine := d.qe.cmds.filter (fun c => c.port == p)
  let d := (d.flrTags p).flrStop p
  let d := d.each mine (fun d c => d.flrCmd c)
  let d := (((d.flrQueues p).flrFeatures p).flrConfig p).add (hpReg p HP_FLR_COUNT.flrs) 1
  let d := ((d.event 0x0303 (Src.port p) p mine.length 0).raise (Irq.hp p 1)).settleDeadPort p
  d.zeroDeficits.stir

/-- FLR. -/
def execFlr (p : Nat) (s : State) : Res :=
  act s (fun d => d.endpointOn p && !d.cfgRetry p) (fun d => d.functionReset p)

/-- FLR_COMPLETE: within 100 ms of the FLR. -/
def execFlrComplete (p : Nat) (s : State) : Res :=
  act s (fun d => p < d.ports && (d.port p).flrStart.isSome) (fun d => d.modPort p (fun t => { t with flrStart := none }))

end Sys2Proof.Machine
end

