-- ==== Sys2Proof/Machine/View.lean ====
section
/-! DEFINITION. What a register reads as. Most registers stand in `regs`; those here show state that has a field of its own. -/

namespace Sys2Proof.Machine
open Reg

def bit01 (b : Bool) : Nat := if b then 1 else 0

/-! ### PW_, FT_, EV_, WD_, MT_ -/

/-- PW_STATE.phase. The load-failed state shows as booting (R479, log 27). -/
def PwPhase.code : PwPhase → Nat
  | .waking => 0
  | .booting | .loadFailed => 1
  | .running => 2
  | .preparing => 3
  | .committing => 4
  | .deadbolt => 5
  | .stopped | .unpowered => 0

/-- PW_DOMAIN[d]. -/
def Dev.domainView (s : Dev) (d v : Nat) : Nat :=
  let x := s.powerDomain d
  v + bit01 x.pwrGood + 2 * bit01 x.clkReady + 4 * bit01 x.memReady + 8 * bit01 x.released

def Dev.pwView (s : Dev) (o v : Nat) : Nat :=
  if o = 0 then v + s.pw.phase.code
  else if 0x40 ≤ o ∧ o < 0xa0 then s.domainView ((o - 0x40) / 4 + 1) v
  else v

/-- FT_CAP: word k of the capture record of class c. -/
def Dev.ftView (s : Dev) (o v : Nat) : Nat :=
  if 0x100 ≤ o ∧ o < 0x160 then bitsOf (captureBytes (s.capture ((o - 0x100) / 32))) (8 * (o % 32)) 32 else v

def Dev.evView (s : Dev) (o v : Nat) : Nat :=
  if o = 0 then v + bit01 s.logFull * 2 ^ 31 + bit01 (!s.ev.clears.isEmpty || !s.ev.asked.isEmpty) * 2 ^ 30 + bit01 s.nand.logHalf * 8
  else if o = 4 then s.evHeld
  else if o = 8 then s.ev.ring.length
  else v

/-- Seconds of refusal delay that remain, rounded up. -/
def Dev.delayLeft (s : Dev) : Nat :=
  match s.mt.delay with
  | some (t, n) => (t + n * 1000000 + 999999 - s.now) / 1000000
  | none => 0

def Dev.mtView (s : Dev) (o v : Nat) : Nat :=
  if o = 0 then
    pack [(31, 1, bit01 s.mt.unlocked), (29, 2, s.mt.mode), (28, 1, bit01 s.mt.nonce.isSome), (8, 8, s.delayLeft), (0, 8, min s.mt.failures 255)]
  else v

/-! ### CF_ -/

/-- CF_SECTOR[p]. -/
def Dev.sectorView (s : Dev) (p : Nat) : Nat :=
  let x := s.sector p
  pack [(31, 1, bit01 x.sealed), (30, 1, bit01 x.tag.isSome), (29, 1, bit01 (s.isMapped p)), (20, 9, (x.tag.map (fun t => t.1)).getD 0),
    (0, 16, if x.sealed then x.erases else 0)]

def Dev.cfView (s : Dev) (o v : Nat) : Nat :=
  if !s.bit CF_STATUS.scan_done then v
  else if o = 0xc then v + ((List.range 512).filter (fun p => s.usable p)).length
  else if 0x1000 ≤ o ∧ o < 0x1800 then s.sectorView ((o - 0x1000) / 4)
  else if 0x2000 ≤ o ∧ o < 0x2700 then
    (match s.cf.map.find ((o - 0x2000) / 4) with
     | some p => 2 ^ 31 + p
     | none => 0)
  else if 0x4000 ≤ o ∧ o < 0x4800 then (Config.calibration ((o - 0x4000) / 4)).toNat
  else v

/-! ### HP_ and QE_ of port p -/

/-- Word k of a port's window translation entries. -/
def Dev.wteWord (s : Dev) (p k : Nat) : Nat := fld (s.image.wte.getD (64 * p + k / 4) 0) (32 * (k % 4)) 32

def Dev.hpView (s : Dev) (p o v : Nat) : Nat :=
  let t := s.port p
  if p = 1 ∧ s.ports = 1 then 0
  else if o = 0 then
    v + bit01 (s.ports = 2) * 2 ^ 12 + bit01 t.flrStart.isSome * 2 ^ 11 + bit01 t.mse * 2 ^ 10 + bit01 t.bme * 2 ^ 9
  else if o = 8 then
    (s.qe.tagQ.filter (fun q => q.port == p)).length * 2 ^ 16 + (s.qe.reqs.filter (fun r => r.port == p)).length
  else if 0x100 ≤ o ∧ o < 0x500 then s.wteWord p ((o - 0x100) / 4)
  else v

def PortState.code : PortState → Nat
  | .booting => 0
  | .holding => 1
  | .running => 2
  | .deadbolt => 3

def QState.code : QState → Nat
  | .active => 1
  | .frozen => 2
  | .deleting => 3

/-- QE_Q_STATUS[q]. -/
def Dev.queueView (s : Dev) (p q : Nat) : Nat :=
  match s.queue p q with
  | some u => pack [(30, 2, u.state.code), (17, 13, (s.cmdsOf p q).length), (0, 16, u.dropped)]
  | none => 0

def Dev.qeView (s : Dev) (p o v : Nat) : Nat :=
  let t := s.port p
  if o = 0 then pack [(16, 16, t.stray), (3, 1, bit01 (s.queue p 0).isSome), (0, 3, t.state.code)]
  else if 0x1000 ≤ o ∧ o < 0x1800 then s.queueView p ((o - 0x1000) / 4)
  else v

/-! ### The engines -/

/-- A command ring's status register. -/
def Dev.ringView (s : Dev) (u : Unit4) : Nat :=
  bit01 (s.rings.ran.contains u) * 2 ^ 31 + (s.inProgress u).length * 2 ^ 16 + s.rings.next u

/-- The request ring's: posted records not yet freed. -/
def Dev.reqRingView (s : Dev) : Nat :=
  let posted := (List.range 256).filter (fun i => ringOwner (s.chipData (reqRingBase + 64 * i)) != 0)
  bit01 s.rings.reqRan * 2 ^ 31 + min posted.length 255 * 2 ^ 16 + s.rings.req

def Dev.mpView (s : Dev) (o v : Nat) : Nat :=
  if o = 0xc then s.mp.dirty.length
  else if o = 0x30 then min (s.mp.mediaBytes / 2 ^ 20) 65535 * 2 ^ 16 + min (s.mp.hostBlocks / 256) 65535
  else if o = 0x1000 then s.ringView .mp
  else v

/-- Operations of a kind in the array; a suspended erase counts. -/
def Dev.inArrayOf (s : Dev) (f : OpKind → Bool) : Nat := (s.ms.ops.filter (fun o => (o.st == .array || o.st == .suspended) && f o.kind)).length

def Dev.msView (s : Dev) (o v : Nat) : Nat :=
  if o = 0 then v + bit01 s.bm.pressured * 2 ^ 10 + bit01 (!s.ms.claims.isEmpty) * 2 ^ 9
  else if o = 0x34 then
    s.inArrayOf (fun k => match k with | .erase _ => true | _ => false) * 2 ^ 23
      + s.inArrayOf (fun k => match k with | .program _ => true | _ => false) * 2 ^ 13
      + s.inArrayOf (fun k => match k with | .read _ _ _ _ | .verify _ | .raw _ _ => true | _ => false)
  else if o = 0x1000 then s.ringView .ms
  else v

/-- FC_LUN_BUSY of channel n. -/
def Dev.fcView (s : Dev) (n o v : Nat) : Nat :=
  if o = 0xc then
    ((List.range 32).map (fun l => bit01 (s.ms.ops.any (fun x => x.lun = 32 * n + l && (x.st == .array || x.st == .suspended))) * 2 ^ l)).sum
  else v

def Dev.cdView (s : Dev) (o v : Nat) : Nat :=
  if o = 0x24 then (s.cd.reqs.filter (fun r => r.posted)).length
  else if 0x10000 ≤ o ∧ o < 0x14000 then
    (match s.cd.drift.find ((o - 0x10000) / 4) with
     | some x => bit01 x.measured * 2 ^ 31 + min (x.d / 16) (2 ^ 31 - 1)
     | none => 0)
  else if o = 0x1000 then s.ringView .cd
  else if o = 0x1100 then s.reqRingView
  else v

def Dev.cxView (s : Dev) (o v : Nat) : Nat :=
  if o = 4 then ((List.range 16).map (fun n => bit01 (s.cxBusy (n + 1)) * 2 ^ n)).sum else v

def Dev.icView (s : Dev) (o v : Nat) : Nat :=
  if 0x800 ≤ o ∧ o < 0x828 then bitsOf s.cores.icPending.toNat (8 * (o - 0x800)) 32 else v

/-! ### A register -/

/-- QE_PORT_SHARE has a second address. -/
def regAlias (a : Nat) : Nat := if a / 4 = 0x207100030 / 4 then a - 0x100000 else a

/-- A value without its fields that read 0 (R11). -/
def readable (r : RegDef) (v : Nat) : Nat :=
  (r.fields.filter (fun f => f.kind == .wo)).foldl (fun v f => v - bitsOf v f.lsb f.width * 2 ^ f.lsb) v

/-- The value of the register whose first byte is at a. -/
def Dev.regView (s : Dev) (r : RegDef) (a : Nat) : Nat :=
  let o := a % 0x1000000
  let v := readable r (s.reg a)
  match a / 0x1000000 % 0x100 with
  | 0x00 => s.pwView o v
  | 0x01 => s.ftView o v
  | 0x02 => s.evView o v
  | 0x04 => s.cfView o v
  | 0x05 => s.hpView 0 o v
  | 0x06 => s.hpView 1 o v
  | 0x07 => s.qeView (o / 0x100000) (o % 0x100000) v
  | 0x0a => s.mpView o v
  | 0x0b => s.msView o v
  | 0x0c => s.fcView (o / 0x10000) (o % 0x10000) v
  | 0x0d => s.cdView o v
  | 0x0e => s.cxView o v
  | 0x0f => if o = 0x1000 then s.ringView .rc else v
  | 0x11 => s.icView o v
  | 0x14 => s.mtView o v
  | _ => v

end Sys2Proof.Machine
end

