-- ==== Sys2Proof/Machine/RegisterOps.lean ====
section
/-! DEFINITION. Reads and writes of registers (R11 to R15, R40 to R44, R83, R344, R356, R372) and TRNG_DATA_READ (R462). -/

namespace Sys2Proof.Machine
open Reg

/-! ### Words -/

/-- The register that holds the word at a, and the address of its first byte; none where the map has no register. -/
def regAt (a : Nat) : Option (RegDef × Nat) := (Regs.lookup (regAlias a)).map (fun r => (r.1, regAlias a - r.2))

/-- HP1_ of a device with one port: it reads as zero and ignores writes (R42). -/
def Dev.silent (s : Dev) (a : Nat) : Bool := s.ports = 1 && a / 0x1000000 = 0x206

/-- The parts of register blocks that are no registers: the Discovery Table's, MSI-X table's and PBA's areas of a port, the
fault window, CD's reference table (R237, R322, R431). -/
inductive RegArea where
  | discovery (p o : Nat)
  | msix (p o : Nat)
  | pba (p o : Nat)
  | faults (o : Nat)
  | table (o : Nat)
deriving DecidableEq, Repr

def regArea (a : Nat) : Option RegArea :=
  let o := a % 0x1000000
  let b := a / 0x1000000
  if b = 0x205 ∨ b = 0x206 then
    (if 0x100000 ≤ o ∧ o < 0x110000 then some (.discovery (b - 0x205) (o - 0x100000))
     else if 0x200000 ≤ o ∧ o < 0x204000 then some (.msix (b - 0x205) (o - 0x200000))
     else if 0x204000 ≤ o ∧ o < 0x205000 then some (.pba (b - 0x205) (o - 0x204000))
     else none)
  else if b = 0x201 ∧ 0x800000 ≤ o ∧ o < 0x810000 then some (.faults (o - 0x800000))
  else if b = 0x20d ∧ 0x200000 ≤ o ∧ o < 0x200000 + 6976 then some (.table (o - 0x200000))
  else none

/-! ### The areas' contents -/

/-- The Discovery Table of port p (R324): 0 until boot step 2 ends. -/
def Dev.discovery (s : Dev) (p : Nat) : Nat :=
  let q (a : Nat) : Nat := ((s.image.queueRegs.find? (fun r => r.1 = a + p * 0x100000)).map (fun r => r.2)).getD 0
  let age := q QE_AGE_CFG.promotion_ms.addr
  let dom := s.image.domain
  if s.image.loaded then
    pack [(0, 64, ascii "ZAONE-DT"), (64, 32, 0x10000), (96, 16, 256), (112, 8, p), (120, 8, s.ports), (128, 8, if s.ports = 2 then 8 else 16),
      (192, 32, 0x100000), (224, 32, 0x100000), (256, 32, 0x200000), (288, 16, 512), (304, 16, 4096), (320, 32, 0x400000), (352, 32, 0x10000),
      (384, 32, 0x410000), (416, 32, 0x414000), (448, 16, 513), (464, 16, 512), (480, 32, 0x10000), (512, 64, 2 ^ s.image.bar2Log2),
      (576, 32, 2 ^ s.image.bar2Log2 / 65536), (608, 32, if s.image.bar4 then 0x1000000 else 0), (640, 32, 0), (672, 32, 0x200000),
      (704, 32, 0x800000), (736, 16, 128), (768, 16, 512), (784, 16, 16), (800, 16, 4096), (816, 16, 64), (832, 32, 32768), (864, 16, 1024),
      (880, 16, 64), (896, 16, 256), (912, 16, 16), (928, 32, q QE_DATA_TIMEOUT.timeout_ms.addr), (960, 16, bitsOf age 0 16),
      (976, 16, bitsOf age 16 16), (992, 1, 1), (1000, 2, q QE_PULL_CFG.retries.addr), (1024, 64, Config.deviceId.toNat),
      (1088, 128, Config.serial.toNat), (1216, 64, (dom.map (fun d => d.1.toNat)).getD 0), (1280, 16, (dom.map (fun d => d.2)).getD 0xffff),
      (1312, 32, s.bm.gib * 1024), (1344, 8, s.bitsPerCell), (1352, 8, s.width - 1), (1376, 64, s.rawBytes), (1440, 32, 1024),
      (1472, 32, 100), (1504, 32, 50)]
  else 0

/-- An MSI-X table entry as the standard lays it out. -/
def msixBits (e : Msix) : Nat := pack [(0, 64, e.addr.toNat), (64, 32, e.data.toNat), (96, 1, bit01 e.masked)]

/-- A byte of an area. -/
def Dev.areaByte (s : Dev) (r : RegArea) (i : Nat) : Nat :=
  match r with
  | .discovery p o => bitsOf (s.discovery p) (8 * (o + i)) 8
  | .msix p o => if (o + i) / 16 < 513 then bitsOf (msixBits ((s.port p).vector ((o + i) / 16))) (8 * ((o + i) % 16)) 8 else 0
  | .pba p o => bitsOf (s.port p).msixPending.toNat (8 * (o + i)) 8
  | .faults o => bitsOf s.faultWindow (8 * (o + i)) 8
  | .table o => (s.cd.table.getD (o + i) 0).toNat

/-- A host or Warden write of one word of the MSI-X table; an unmasked vector's pending message goes (R336). -/
def Dev.msixWrite (s : Dev) (p o : Nat) (v : Dword) : Dev :=
  let k := o / 16
  if 513 ≤ k then s
  else
    let e := (s.port p).vector k
    let e := match o % 16 / 4 with
      | 0 => { e with addr := BitVec.ofNat 64 (e.addr.toNat / 2 ^ 32 * 2 ^ 32 + v.toNat / 4 * 4) }
      | 1 => { e with addr := BitVec.ofNat 64 (e.addr.toNat % 2 ^ 32 + 2 ^ 32 * v.toNat) }
      | 2 => { e with data := v }
      | _ => { e with masked := v.getLsbD 0 }
    (s.modPort p (fun t => { t with msixTable := t.msixTable.put k e })).resend p k

/-! ### Reads -/

/-- The word at a as it stands; none where nothing is there. -/
def Dev.regWord (s : Dev) (a : Nat) : Option Nat :=
  if s.silent a then some 0
  else match regAt a with
    | some r => some (bitsOf (s.regView r.1 r.2) (8 * (regAlias a - r.2)) 32)
    | none => (regArea a).map (fun g => ofBytes ((List.range 4).map (fun i => s.areaByte g i)))

/-- Replace the latched high word of a requester's register. -/
def Dev.setLatch (s : Dev) (w : Who) (a : Nat) (v : Option Dword) : Dev :=
  s.modMem (fun m => { m with latch := m.latch.filter (fun l => !(l.1 == w && l.2.1 == a)) ++ (match v with
    | some x => [(w, a, x)]
    | none => []) })

/-- A 32-bit read: the low word of a 64-bit register latches the high word, and the next read of the high word by the same
requester returns it (R15). -/
def Dev.readWord (s : Dev) (w : Who) (a : Nat) : Option Nat × Dev :=
  match regAt a, s.silent a with
  | some r, false =>
    if r.1.wide then
      if regAlias a = r.2 then (s.regWord a, s.setLatch w r.2 ((s.regWord (a + 4)).map (fun v => BitVec.ofNat 32 v)))
      else match s.mem.latch.find? (fun l => l.1 == w && l.2.1 == r.2) with
        | some l => (some l.2.2.toNat, s.setLatch w r.2 none)
        | none => (s.regWord a, s)
    else (s.regWord a, s)
  | _, _ => (s.regWord a, s)

/-- A read of one aligned word, or of two at once. -/
def Dev.readWords (s : Dev) (w : Who) (a size : Nat) : Option Nat × Dev :=
  if size = 4 then s.readWord w a
  else match s.regWord a, s.regWord (a + 4) with
    | some l, some h => (some (l + 2 ^ 32 * h), s)
    | _, _ => (none, s)

/-! ### Writes -/

/-- A field takes its bits of v, those of mask having been written. -/
def Dev.writeField (s : Dev) (base v mask : Nat) (f : FieldDef) : Dev :=
  let g : Fld := ⟨base, f.lsb, f.width⟩
  let n := bitsOf v f.lsb f.width
  if bitsOf mask f.lsb f.width = 0 then s
  else match f.kind with
    | .rw | .wo => if f.lo ≤ n ∧ n ≤ f.hi then s.put g n else s
    | .w1c => if n = 1 then s.put g 0 else s
    | .rc => s

/-- Write the word at offset off of a register. -/
def Dev.writeFields (s : Dev) (r : RegDef) (base off : Nat) (v : Dword) : Dev :=
  let old := s.reg base
  let mask := (2 ^ 32 - 1) * 2 ^ (8 * off)
  let new := old - bitsOf old (8 * off) 32 * 2 ^ (8 * off) + v.toNat * 2 ^ (8 * off)
  s.each r.fields (fun s f => s.writeField base (if f.kind == .w1c then v.toNat * 2 ^ (8 * off) else new) mask f)

/-- BC_CTRL.run has changed: a core whose bit fell is held, one whose bit rose starts (R346, R361). -/
def Dev.noteRun (s : Dev) (old : Nat) : Dev :=
  let new := s.get BC_CTRL.run
  s.each (List.range 16) (fun s n =>
    if old.testBit n == new.testBit n then s
    else if new.testBit n then
      (s.modCore n (fun c => { c with run := true, halted := false, dogRan := 0, dogSince := s.now, timerIrq := false, lr := none })).put
        (BC_CORE.state.at (4 * n)) 1
    else (s.modCore n (fun c => { c with run := false })).put (BC_CORE.state.at (4 * n)) 0)

/-- Registers whose fields CF or QE closes to a write for now (R83, R372). -/
def Dev.writeHeld (s : Dev) (base : Nat) : Bool :=
  if base = CF_SECTOR_SEL.sector.addr then s.cf.op != .none || !s.cf.seq.isEmpty
  else [0, 1].any (fun p => base = (qeReg p QE_AQ_RING_BASE.base).addr && s.bit (qeReg p QE_AQ_CFG.enable))

/-- A write to a register that has no row of its own. -/
def Dev.plainWrite (s : Dev) (r : RegDef) (base off : Nat) (v : Dword) : Dev :=
  let run := s.get BC_CTRL.run
  if s.writeHeld base then s
  else
    let dogs : Bool := base = BC_CTRL.run.addr || (0x210000200 ≤ base && base < 0x210000280)
    let s := (if dogs then s.settleDogs else s).writeFields r base off v
    if base = BC_CTRL.run.addr then s.noteRun run
    else if 0x210000400 ≤ base ∧ base < 0x210000480 then
      (let n := (base - 0x210000400) / 8
       if s.now < s.reg base then s.modCore n (fun c => { c with timerIrq := false }) else s)
    else if base = RC_STREAM_CFG.auto_refresh.addr then s.noteDrift.stir
    else if base = (qeReg 0 QE_AQ_IRQ.irq_count).addr then s.judge 0 0
    else if base = (qeReg 1 QE_AQ_IRQ.irq_count).addr then s.judge 1 0
    else s

/-- What another command's meaning does to the device. -/
def Dev.by (s : Dev) (f : State → Res) : Dev :=
  match f { dev := s } with
  | .next t => t.dev
  | _ => s

/-- A write of QE_AQ_CFG, by the host or by Warden: enable set or cleared, or its other fields alone (R83). -/
def Dev.writeAq (s : Dev) (p : Nat) (v : Dword) : Dev :=
  if s.bit (qeReg p QE_AQ_CFG.enable) then (if v.getLsbD 31 || !(s.cmdsOf p 0).isEmpty then s else s.disableAq p)
  else if v.getLsbD 31 then (s.writeAqCfg p v).enableAq p
  else s.writeAqCfg p v

/-- Warden's write of PW_CMD: with go set the command named is performed. -/
def Dev.writePwCmd (s : Dev) (v : Dword) : Dev :=
  let c := fld v 0 4
  let s := if 1 ≤ c ∧ c ≤ 4 then s.put PW_CMD.cmd c else s
  if v.getLsbD 31 then
    match s.get PW_CMD.cmd with
    | 1 => s.by execPwCmdReleaseFphy
    | 2 => s.by execPwCmdBeginPrepare
    | 3 => s.by execPwCmdRelease
    | 4 => s.by execPwCmdCommitStep7
    | _ => s
  else s

/-- Warden's write of CX_KEY_CMD. -/
def Dev.writeKeyCmd (s : Dev) (v : Dword) : Dev :=
  let s := (if fld v 8 2 ≤ 1 then s.put CX_KEY_CMD.action (fld v 8 2) else s).put CX_KEY_CMD.slot (fld v 0 4)
  if v.getLsbD 31 then s.by (if s.get CX_KEY_CMD.action = 0 then execCxKeyLoad (fld v 0 4) else execCxKeyClear (fld v 0 4)) else s

/-- Warden's write of SP_TEST_CMD. -/
def Dev.writeTestCmd (s : Dev) (v : Dword) : Dev :=
  let s := if fld v 0 2 ≤ 1 then s.put SP_TEST_CMD.op (fld v 0 2) else s
  if v.getLsbD 31 then s.by (if s.get SP_TEST_CMD.op = 0 then execRawWrite else execRawReadTest) else s

/-- A write to a register whose write is a command of its own, by a core: that command. The commands that answer their
requester themselves are in `answered`. -/
def Dev.ownWrite (s : Dev) (a : Nat) (v : Dword) : Option Dev :=
  if a = PW_CMD.go.addr then some (s.writePwCmd v)
  else if a = CX_KEY_CMD.go.addr then some (s.writeKeyCmd v)
  else if a = SP_CLEAR_CMD.go.addr then some (s.by (execSpClear v))
  else if a = SP_MARCH_CMD.go.addr then some (s.by (execMarch v))
  else if a = SP_TEST_CMD.go.addr then some (s.writeTestCmd v)
  else if a = DC_TEST_MASK.armed.addr then some (s.by (execDcTestMask v))
  else if a = MT_LOCK.lock.addr then some (if v.getLsbD 0 then s.lockMt else s)
  else if a = WD_WDOG_KICK.kick.addr then some (s.kickWarden v)
  else if a = (qeReg 0 QE_AQ_CFG.enable).addr then some (s.writeAq 0 v)
  else if a = (qeReg 1 QE_AQ_CFG.enable).addr then some (s.writeAq 1 v)
  else none

def Dev.answered (s : Dev) (w : Who) (a : Nat) (v : Dword) : Option Dev :=
  if a = FT_ACK.ack.addr then some (s.by (execFtAck w v))
  else if a = FT_INJECT.arm.addr then some (s.by (execFtInject w v))
  else if 0x210000200 ≤ a ∧ a < 0x210000280 ∧ a % 8 = 4 then some (s.by (execBoltWatchdogKick w ((a - 0x210000200) / 8) v))
  else if 0x211000000 ≤ a ∧ a < 0x211000500 then some (s.by (execIcRoute w ((a - 0x211000000) / 4) v))
  else if 0x211001000 ≤ a ∧ a < 0x211001088 ∧ a % 8 = 4 then some (s.by (execIcComplete w ((a - 0x211001000) / 8) (fld v 0 10)))
  else if a = IC_RAISE.source.addr then some (s.by (execIcRaise w (fld v 0 9)))
  else none

/-- A core's write of one word that its rights allow; reply: it is the access's last word. -/
def Dev.coreWord (s : Dev) (w : Who) (a : Nat) (v : Dword) (reply : Bool) : Dev :=
  let done (t : Dev) : Dev := if reply then t.served w 0 else t
  if s.silent a then done s
  else match s.answered w a v, s.ownWrite a v, regAt a, regArea a with
    | some t, _, _, _ => t
    | none, some t, _, _ => done t
    | none, none, some r, _ => done (s.plainWrite r.1 r.2 (regAlias a - r.2) v)
    | none, none, none, some (.msix p o) => done (s.msixWrite p o v)
    | none, none, none, some _ => done s
    | none, none, none, none => s.unmapped w a 4

/-! ### Rights of the Bolt cores (R344) -/

/-- The blocks of WD_, CF_ and MT_. -/
def closedBlock (a : Nat) : Bool := a / 0x1000000 = 0x203 || a / 0x1000000 = 0x204 || a / 0x1000000 = 0x214

/-- Bolt core n may read the word at a. -/
def boltReads (n a : Nat) : Bool :=
  let o := a % 0x1000000
  if closedBlock a || a = PW_CMD.go.addr then false
  else if a / 0x1000000 = 0x201 then o < 0x20 || (0x100 ≤ o && o < 0x18c)
  else if a / 0x1000000 = 0x20e then o < 8 || (0x80 ≤ o && o < 0x90)
  else if 0x211001000 ≤ a && a < 0x211001088 then (a - 0x211001000) / 8 = n + 1
  else match regArea a with
    | some (.table _) | none => true
    | _ => false

/-- Bolt core n may write the word at a; the interrupt controller's registers and the kicks judge for themselves. -/
def boltWrites (n a : Nat) : Bool :=
  a / 8 = (0x210000400 + 8 * n) / 8 || (0x210000200 ≤ a && a < 0x210000280 && a % 8 = 4) || a = FT_ACK.ack.addr
    || (0x211000000 ≤ a && a < 0x211000500) || (0x211001000 ≤ a && a < 0x211001088 && a % 8 = 4) || a = IC_RAISE.source.addr
    || a = RC_STREAM_CFG.auto_refresh.addr

/-- A requester's right to read or write a register word. -/
def regRight (w : Who) (writes : Bool) (a : Nat) : Bool :=
  match w with
  | .warden => true
  | .bolt n => if writes then boltWrites n a else boltReads n a
  | .host _ => false

/-! ### Core accesses to the register blocks -/

/-- The words of a write of four or eight bytes: one reply for both. -/
def wordsOf (a size v : Nat) : List (Nat × Dword) :=
  if size = 4 then [(a, BitVec.ofNat 32 v)] else [(a, BitVec.ofNat 32 v), (a + 4, BitVec.ofNat 32 (v / 2 ^ 32))]

/-- An access that R15 does not allow. -/
def regAligned (a size : Nat) : Bool := (size = 4 && a % 4 = 0) || (size = 8 && a % 8 = 0)

def Dev.coreWrite (s : Dev) (w : Who) (a size v : Nat) : Dev :=
  if !regAligned a size then s.unmapped w a 4
  else if s.silent a then s.served w 0
  else if (wordsOf a size v).any (fun x => !regRight w true x.1) then s.closed w a 4
  else s.each (wordsOf a size v) (fun s x => s.coreWord w x.1 x.2 (x.1 + 4 = a + size))

/-- A read of WD_TRNG_DATA: new DRBG output each time. -/
def Dev.trngRead (s : Dev) : Dev := let r := s.drbg; r.2.served .warden (fld r.1 0 32)

/-- TRNG_DATA_READ. Before the DRBG is seeded the register reads as reset left it. -/
def execTrngDataRead (s : State) : Res :=
  act s (fun d => d.wardenWrites) (fun d =>
    if d.bit WD_TRNG_STATUS.seeded then d.trngRead else d.served .warden (d.get WD_TRNG_DATA.data))

def Dev.coreRead (s : Dev) (w : Who) (a size : Nat) : Dev :=
  if !regAligned a size then s.unmapped w a 2
  else if s.silent a then s.served w 0
  else if !regRight w false a || (size = 8 && !regRight w false (a + 4)) then s.closed w a 2
  else if a = WD_TRNG_DATA.data.addr then s.by execTrngDataRead
  else if 0x211001000 ≤ a ∧ a < 0x211001088 ∧ a % 8 = 0 then s.by (execIcClaim w ((a - 0x211001000) / 8))
  else
    let r := s.readWords w a size
    match r.1 with
    | some v => r.2.served w v
    | none => r.2.unmapped w a 2

/-! ### REGISTER_WRITE -/

/-- A host write of one word in its port register area or its MSI-X table. -/
def Dev.hostWord (s : Dev) (p a : Nat) (v : Dword) : Dev :=
  let base := 0x207000000 + p * 0x100000
  if a = (qeReg p QE_AQ_CFG.enable).addr then s.writeAq p v
  else if base ≤ a ∧ a < base + 0x100000 then
    (match regAt a with
     | some r => s.plainWrite r.1 r.2 (regAlias a - r.2) v
     | none => s)
  else match regArea a with
    | some (.msix q o) => if q = p then s.msixWrite p o v else s
    | _ => s

/-- Whether a write can arrive at the register blocks: from the host of a port that takes memory requests, from Warden, or
from a Bolt core that runs. -/
def Dev.mayWrite (s : Dev) (w : Who) : Bool :=
  match w with
  | .host p => s.takesMemory p
  | .warden => s.wardenWrites
  | .bolt n => s.coreRuns n

/-- REGISTER_WRITE: addr is the internal address; wide a write of two words. -/
def execRegisterWrite (w : Who) (addr : Nat) (wide : Bool) (value : Qword) (s : State) : Res :=
  act s (fun d => d.mayWrite w && d.region addr == .registers) (fun d =>
    let size := if wide then 8 else 4
    match w with
    | .host p =>
      if regAligned addr size then d.each (wordsOf addr size value.toNat) (fun d x => d.hostWord p x.1 x.2)
      else d.addSat (hpReg p HP_BAR_DROPS.unmapped) 1
    | _ => d.coreWrite w addr size value.toNat)

end Sys2Proof.Machine
end

