-- ==== Sys2Proof/Machine/CoreAccess.lean ====
section
/-! DEFINITION. INTERNAL_ACCESS: fetches, loads, stores and atomic operations of Warden and the Bolt cores (R40 to R43, R343 to
R345, R352, R368, R376, R384 to R396, R404 to R406), and BAR_READ (R53, R315, R317, R319, R323, R324, R431). -/

namespace Sys2Proof.Machine
open Reg

/-! ### Addresses and rights -/

/-- Warden's 32-bit address as an internal address (R343). -/
def Dev.wardenMap (s : Dev) (a : Nat) : Option Nat :=
  if a < 0x40000 then some a
  else if 0x10000000 ≤ a ∧ a < 0x11c00000 then some a
  else if 0x20000000 ≤ a ∧ a < 0x20080000 then some (0x000101800000 + (a - 0x20000000))
  else if 0x21000000 ≤ a ∧ a < 0x21040000 then some (0x000102000000 + (a - 0x21000000))
  else if 0x30000000 ≤ a ∧ a < 0x31000000 then some (0x000100000000 + (a - 0x30000000))
  else if 0x40000000 ≤ a ∧ a < 0x41000000 then some (0x000203000000 + (a - 0x40000000))
  else if 0x80000000 ≤ a ∧ a < 0x100000000 then
    (let k := (a - 0x80000000) / 0x10000000
     if s.bit (WD_APERTURE.valid.at (8 * k)) then some (s.get (WD_APERTURE.base.at (8 * k)) * 0x10000000 + a % 0x10000000) else none)
  else none

/-- The access type code of R416. -/
def accessCode : AccessKind → Nat
  | .fetch => 1
  | .read => 2
  | .write => 4
  | .atomic _ | .loadReserved | .storeConditional => 5

/-- The accesses that can come: Warden's are of one to four bytes and no atomic operations; a Bolt core's are of one to eight
bytes, atomic ones of four or eight, and aligned to their size where they reach memory (R15; log 46). -/
def Dev.accessComes (s : Dev) (w : Who) (k : AccessKind) (a size : Nat) : Bool :=
  match w with
  | .warden => s.wardenWrites && [1, 2, 4].contains size && accessCode k != 5 && a < 0x100000000
  | .bolt n => s.coreRuns n && [1, 2, 4, 8].contains size
      && (a % size = 0 || s.region a == .registers || s.region a == .nothing) && (accessCode k != 5 || 4 ≤ size)
  | .host _ => false

/-! ### Memory -/

/-- A reply: data, or a bus error. -/
def Dev.reply (s : Dev) (w : Who) (v : Option Nat) : Dev :=
  match v with
  | some v => s.served w v
  | none => s.emit (.busReply w false 0)

/-- The line that holds a, read by a requester. -/
def Dev.lineOf (s : Dev) (w : Who) (a code : Nat) : Option Line × Dev :=
  match s.region a with
  | .dram => s.readDramFor a (masterId w) code
  | r => s.readChip r a (masterId w) code

/-- Bytes of memory. -/
def Dev.loadMem (s : Dev) (w : Who) (a size code : Nat) : Option Nat × Dev :=
  let r := s.lineOf w a code
  (r.1.map (fun l => (lineBytes l a size).toNat), r.2)

/-- Store bytes: false is a bus error. -/
def Dev.storeMem (s : Dev) (w : Who) (a size v code : Nat) : Bool × Dev :=
  match s.region a with
  | .dram => s.mergeDram a size (BitVec.ofNat 512 v) (masterId w) code
  | r => s.writeChip r a size (BitVec.ofNat 512 v) (masterId w) code

/-- A store and its reply; freeing an entry of CD's request ring lets a waiting record out (R350). -/
def Dev.store (s : Dev) (w : Who) (a size v code reply : Nat) : Dev :=
  let r := s.storeMem w a size v code
  let t := r.2.reply w (if r.1 then some reply else none)
  if r.1 && reqRingBase ≤ a && a < reqRingBase + 16384 then t.drainReqs else t

/-- What an atomic operation stores, of the old value and the operand, both of size bytes (log 46). -/
def amoValue (op : AmoOp) (size old v : Nat) : Nat :=
  let signed (x : Nat) : Int := (BitVec.ofNat (8 * size) x).toInt
  match op with
  | .swap => v
  | .add => old + v
  | .and => old &&& v
  | .or => old ||| v
  | .xor => old ^^^ v
  | .minSigned => if signed old ≤ signed v then old else v
  | .maxSigned => if signed old ≤ signed v then v else old
  | .minUnsigned => min old v
  | .maxUnsigned => max old v

/-- An atomic read, change and write: it answers the old value. -/
def Dev.amo (s : Dev) (w : Who) (a size : Nat) (f : Nat → Nat) : Dev :=
  let r := s.loadMem w a size 5
  match r.1 with
  | some old => r.2.store w a size (f old % 2 ^ (8 * size)) 5 old
  | none => r.2.reply w none

def Dev.reservation (s : Dev) (n : Nat) (a : Option Nat) : Dev := s.modCore n (fun c => { c with lr := a })

/-- A load-reserved: the core holds the reservation where the read succeeds. -/
def Dev.loadReserved (s : Dev) (n a size : Nat) : Dev :=
  let r := s.loadMem (.bolt n) a size 5
  (r.2.reservation n (r.1.map (fun _ => a))).reply (.bolt n) r.1

/-- A store-conditional: 0 where it stored, 1 where it failed; the reservation ends. -/
def Dev.storeConditional (s : Dev) (n a size v : Nat) : Dev :=
  if (s.core n).lr = some a then (s.reservation n none).store (.bolt n) a size v 5 0
  else (s.reservation n none).reply (.bolt n) (some 1)

/-- An access to an on-chip memory or DRAM that its requester's rights allow. -/
def Dev.memAccess (s : Dev) (w : Who) (k : AccessKind) (a size v : Nat) : Dev :=
  match k, w with
  | .write, _ => s.store w a size v 4 0
  | .atomic op, _ => s.amo w a size (fun old => amoValue op size old v)
  | .loadReserved, .bolt n => s.loadReserved n a size
  | .storeConditional, .bolt n => s.storeConditional n a size v
  | _, _ => let r := s.loadMem w a size (accessCode k); r.2.reply w r.1

/-! ### Mailbox collisions (R393 to R395) -/

/-- A core's write that is answered Write Collided. -/
def Dev.collide (s : Dev) (n : Nat) (k : AccessKind) (a : Nat) : Dev :=
  let s := (s.put SP_COLLIDE.core n).put SP_COLLIDE.word ((a - 0x000102000000) / 4)
  let s := ((s.addSat SP_COLLIDE.count 1).raise Irq.collided).emit (.collided n)
  match k with
  | .storeConditional => (s.reservation n none).reply (.bolt n) (some 1)
  | .write => s.reply (.bolt n) (some 0)
  | _ => s.reply (.bolt n) none

/-- Port A's access of one word that meets a Bolt core's access of the same word: it writes v, or reads. -/
def Dev.meetA (s : Dev) (n : Nat) (k : AccessKind) (a size v : Nat) (wr : Bool) (va : Dword) : Dev :=
  let word := a / 4 * 4
  if wr && isStore k then (s.store .warden word 4 va.toNat 4 0).collide n k a
  else if wr then (s.memAccess (.bolt n) k a size v).store .warden word 4 va.toNat 4 0
  else
    let r := s.loadMem .warden word 4 2
    (r.2.reply .warden r.1).memAccess (.bolt n) k a size v

/-! ### INTERNAL_ACCESS -/

/-- Words of the boot ROM (log 29). -/
def romBytes (a size : Nat) : Nat := bitsOf (Config.bootRom (a / 4)).toNat (8 * (a % 4)) (8 * size)

/-- Warden's access at an internal address. -/
def Dev.wardenAccess (s : Dev) (k : AccessKind) (a size v : Nat) : Dev :=
  match s.region a with
  | .rom => if k == .write then s.closed .warden a 4 else s.served .warden (romBytes a size)
  | .window =>
    if k == .write then (if s.cfOpen then s.windowWrite (a - 0x10000000) (BitVec.ofNat 32 v) size else s).served .warden 0
    else s.readWindow .warden (k == .fetch) a size
  | .registers => if k == .write then s.coreWrite .warden a size v else if k == .fetch then s.unmapped .warden a 1 else s.coreRead .warden a size
  | .nothing => s.unmapped .warden a (accessCode k)
  | _ => s.memAccess .warden k a size v

/-- Bolt core n's access. -/
def Dev.boltAccess (s : Dev) (n : Nat) (k : AccessKind) (a size v : Nat) (meets : Option (Bool × Dword)) : Dev :=
  match s.region a with
  | .nothing => s.unmapped (.bolt n) a (accessCode k)
  | .registers =>
    if k == .write then s.coreWrite (.bolt n) a size v
    else if k == .read then s.coreRead (.bolt n) a size
    else s.closed (.bolt n) a (accessCode k)
  | r =>
    if !s.boltMay n k a then s.closed (.bolt n) a (accessCode k)
    else match r, meets with
      | .window, _ => s.readWindow (.bolt n) (k == .fetch) a size
      | .mailbox, some m => s.meetA n k a size v m.1 m.2
      | _, _ => s.memAccess (.bolt n) k a size v

/-- INTERNAL_ACCESS: addr is Warden's 32-bit address (R343), or a Bolt core's internal address. meets is the access of
mailbox port A to the same word that is present at the same resolution: whether it writes, and its data. -/
def execInternalAccess (w : Who) (k : AccessKind) (addr size : Nat) (data : Line) (meets : Option (Bool × Dword)) (s : State) : Res :=
  act s (fun d => d.accessComes w k addr size) (fun d =>
    let v := data.toNat % 2 ^ (8 * size)
    match w with
    | .warden =>
      (match d.wardenMap addr with
       | some a => if addr % 4 = 0 then d.wardenAccess k a size v else d.unmapped .warden a (accessCode k)
       | none => d.unmapped .warden addr (accessCode k))
    | .bolt n => d.boltAccess n k addr size v meets
    | .host _ => d)

/-! ### BAR_READ -/

/-- A read completion with n bytes. -/
def Dev.readBytes (s : Dev) (p n : Nat) (f : Nat → Nat) : Dev :=
  s.emit (.readReply p .successful ((List.range n).map (fun i => BitVec.ofNat 8 (f i))))

/-- A read of a register window at internal address a: one word or two, all bytes enabled. Where no register is, it gets a
bus error, which the host sees as Completer Abort, and raises a contained fault (R40; log 30). -/
def Dev.readRegWindow (s : Dev) (p a len : Nat) (allEnables : Bool) : Dev :=
  if regAligned a len && allEnables then
    let r := s.readWords (.host p) a len
    match r.1 with
    | some v => r.2.readBytes p len (fun i => bitsOf v (8 * i) 8)
    | none => (r.2.contained (busSource (.host p)) Kind.unmappedAccess a (masterId (.host p)) 2).emit (.readReply p .completerAbort [])
  else s.emit (.readReply p .completerAbort [])

/-- A read of a window. -/
def Dev.readBar (d : Dev) (p bar off len : Nat) (allEnables : Bool) : Dev :=
  let area (g : RegArea) : Dev := d.readBytes p len (fun i => d.areaByte g i)
  match d.barWin p bar off with
  | .discovery o => area (.discovery p o)
  | .hpRegs o => d.readRegWindow p (0x205000000 + p * 0x1000000 + o) len allEnables
  | .portRegs o => d.readRegWindow p (0x207000000 + p * 0x100000 + o) len allEnables
  | .faults o => area (.faults o)
  | .msix o => area (.msix p o)
  | .pba o => area (.pba p o)
  | .observe a => d.readRegWindow p a len allEnables
  | .ingress _ | .slots | .peerRequest _ | .peerNotice _ | .none => d.readBytes p len (fun _ => 0)

/-- BAR_READ; with Memory Space Enable 0 or in D3hot it is an unsupported request (R315). -/
def execBarRead (p bar off len : Nat) (allEnables : Bool) (s : State) : Res :=
  act s (fun d => (d.takesMemory p || d.memoryOff p) && 0 < len && len ≤ 4096) (fun d =>
    if d.memoryOff p then (d.aerError p .unsupportedRequest).emit (.readReply p .unsupportedRequest [])
    else d.readBar p bar off len allEnables)

end Sys2Proof.Machine
end

