-- ==== Sys2Proof/Machine/Maint.lean ====
section
/-! DEFINITION. The maintenance port: the UART's commands, unlock, MT_LOCK and the TAP (R428, R463 to R468, R505, R506). -/

namespace Sys2Proof.Machine
open Reg

/-! ### The UART (R465) -/

/-- Who serves the UART: Warden firmware in Run, the service loop in Deadbolt, the boot ROM after a bad image. -/
inductive UartPlace where
  | run | dead | rom | silent
deriving DecidableEq, Repr

def Dev.uartPlace (s : Dev) : UartPlace :=
  if s.inRun && s.wardenRuns then .run
  else if s.isDead && s.cores.wardenLoop then .dead
  else if s.pw.phase == .loadFailed then .rom
  else .silent

/-- Bytes as uppercase hex, lowest offset first (log 31). -/
def hexBytes (v n : Nat) : List Byte := (bytesOf v n).flatMap (fun b => hexText b 2)

/-- A reply: its lines, then OK or ERR and a code. -/
def Dev.uartReply (s : Dev) (lines : List (List Byte)) (err : Nat) : Dev :=
  let tail : List Byte := if err = 0 then textBytes "OK" else textBytes "ERR " ++ hexText err 1
  s.emit (.uart ((lines.flatMap (fun l => l ++ crlf)) ++ tail ++ crlf))

/-- A command served in the places f names; elsewhere it is an unknown command, and a silent UART answers nothing. In Run
each line raises source 31. -/
def Dev.uartCmd (s : Dev) (served : UartPlace → Bool) (f : Dev → Dev) : Dev :=
  let here := s.uartPlace
  if here == .silent then s
  else
    let s := if here == .run then s.raise Irq.uartByte else s
    if served here then f s else s.uartReply [] 1

def everywhere (p : UartPlace) : Bool := p != .silent
def onlyRun (p : UartPlace) : Bool := p == .run

/-- ID. -/
def execId (s : State) : Res :=
  run s (fun d => d.uartCmd everywhere (fun d =>
    d.uartReply [hexBytes Config.deviceId.toNat 8, hexBytes Config.agreementKey.toNat 96, hexBytes (d.get PW_BOOT_CAUSE.cause) 1] 0))

/-- FAULT: the fault window's bytes 0 to 255. -/
def execFault (s : State) : Res := run s (fun d => d.uartCmd everywhere (fun d => d.uartReply [hexBytes d.faultWindow 256] 0))

/-- LOG: every record held; in Deadbolt and in the ROM the staging ring only. -/
def execLog (s : State) : Res :=
  run s (fun d => d.uartCmd everywhere (fun d =>
    d.uartReply ((if d.uartPlace == .run then d.heldRecords else d.ev.ring).map (fun e => hexBytes (eventBytes e) 32)) 0))

/-- CLEAR: asks the recorder for a clear; the reply comes when it completes. -/
def execClear (s : State) : Res :=
  run s (fun d => d.uartCmd onlyRun (fun d => d.modEv (fun e => { e with asked := e.asked ++ [(2, none)] })))

/-! ### Unlock (R466 to R468) -/

/-- CHAL: a nonce out of the DRBG. -/
def execChal (s : State) : Res :=
  run s (fun d => d.uartCmd (fun p => onlyRun p && d.bit MT_AUTH_CFG.challenge) (fun d =>
    let r := d.drbg
    let n := BitVec.ofNat 256 (fld r.1 0 256)
    (r.2.modMt (fun m => { m with nonce := some (n, d.now) })).uartReply [hexBytes n.toNat 32] 0))

/-- An attempt by method 1 (challenge) or 2 (password) ends. A refused one fails, and leaves the delay as it is. -/
def Dev.attempt (s : Dev) (method : Nat) (ok : Bool) : Dev :=
  let refused := s.mt.delay.isSome
  let pass := ok && !refused
  let k := s.mt.failures + 1
  let s := s.modMt (fun m => { m with attempts := m.attempts + 1 })
  let s := if pass then s.modMt (fun m => { m with
      unlocked := true
      mode := method
      failures := 0
      nonce := none
      delay := none })
    else s.modMt (fun m => { m with
      failures := k
      delay := if refused then m.delay else some (s.now, min (2 ^ (k - 1)) 64) })
  let s := (s.event 0x0c03 Src.mt method (if pass then 0 else 1) s.mt.attempts).raise Irq.unlock
  s.uartReply [] (if pass then 0 else if refused then 3 else 4)

/-- The digest a RESP signs: the nonce, device_id and the text. -/
def challengeDigest (nonce : BitVec 256) : BitVec 384 :=
  sha (bytesOf nonce.toNat 32 ++ bytesOf Config.deviceId.toNat 8 ++ bytesOf (ascii "ZAONE-UNLOCK") 12)

/-- A signature verifies under the enrolled maintenance key or the image's. -/
def Dev.respOk (s : Dev) (sig : BitVec 768) : Bool :=
  match s.mt.nonce with
  | none => false
  | some n =>
    (s.keyRec.mnt.st = 1 && Config.ecdsaVerify s.keyRec.mnt.key (challengeDigest n.1) sig)
      || (s.bit MT_AUTH_CFG.image_key && Config.ecdsaVerify s.image.maintKey (challengeDigest n.1) sig)

/-- RESP: the nonce is no longer live once it has been evaluated. -/
def execResp (sig : BitVec 768) (s : State) : Res :=
  run s (fun d => d.uartCmd (fun p => onlyRun p && d.bit MT_AUTH_CFG.challenge) (fun d =>
    let ok := d.respOk sig
    (d.modMt (fun m => { m with nonce := none })).attempt 1 ok))

/-- A password text matches the image's hash. -/
def Dev.passOk (s : Dev) (text : List Byte) : Bool :=
  8 ≤ text.length && text.length ≤ 32 && text.all (fun b => 0x21 ≤ b.toNat && b.toNat ≤ 0x7e)
    && Config.pbkdf2 text s.image.salt (1000 * s.get MT_AUTH_CFG.kiter) == s.image.hash

/-- PASS. -/
def execPass (text : List Byte) (s : State) : Res :=
  run s (fun d => d.uartCmd (fun p => onlyRun p && d.bit MT_AUTH_CFG.password) (fun d => d.attempt 2 (d.passOk text)))

/-- LOCK. -/
def execLock (s : State) : Res := run s (fun d => d.uartCmd onlyRun (fun d => d.lockMt.uartReply [] 0))

/-- MT_LOCK: a write of the register by Warden. -/
def execMtLock (v : Dword) (s : State) : Res := act s (fun d => d.wardenWrites) (fun d => if v.getLsbD 0 then d.lockMt else d)

/-- NONCE_EXPIRY: 60 s. -/
def execNonceExpiry (s : State) : Res :=
  act s (fun d => match d.mt.nonce with
    | some n => d.expired n.2 (secTicks 60)
    | none => false) (fun d => d.modMt (fun m => { m with nonce := none }))

/-- UNLOCK_DELAY_EXPIRY. -/
def execUnlockDelayExpiry (s : State) : Res :=
  act s (fun d => match d.mt.delay with
    | some t => d.expired t.1 (secTicks t.2)
    | none => false) (fun d => d.modMt (fun m => { m with delay := none }))

/-- The command words of R465 that a place serves. -/
def Dev.servedWords (s : Dev) : List String :=
  match s.uartPlace with
  | .run => ["ID", "FAULT", "LOG", "CLEAR", "LOCK"] ++ (if s.bit MT_AUTH_CFG.challenge then ["CHAL", "RESP"] else [])
      ++ (if s.bit MT_AUTH_CFG.password then ["PASS"] else [])
  | .dead | .rom => ["ID", "FAULT", "LOG"]
  | .silent => []

/-- The answer to a line of the UART. -/
def Dev.answerLine (d : Dev) (line : List Byte) : Dev :=
  let word := line.takeWhile (fun b => b != 32)
  let rest := (line.drop word.length).drop 1
  let known := (d.servedWords.map textBytes).contains word
  let hex (b : Byte) : Bool := (48 ≤ b.toNat && b.toNat ≤ 57) || (65 ≤ b.toNat && b.toNat ≤ 70)
  let good : Bool := if word == textBytes "RESP" then rest.length = 192 && rest.all hex
    else if word == textBytes "PASS" then true else rest.isEmpty && line.length = word.length
  if !known then d.uartCmd (fun _ => false) (fun d => d)
  else if good then d
  else d.uartCmd everywhere (fun d => d.uartReply [] 2)

/-- UNKNOWN_COMMAND: a line whose first word no served command has is answered ERR 1; a served command whose field is not
as it should be, ERR 2 (log 31). A well-formed served line is its own command. -/
def execUnknownCommand (line : List Byte) (s : State) : Res :=
  run s (fun d => d.answerLine line)

/-! ### The TAP (R463, R464, R505, R506) -/

/-- The TAP works in every state but Stop and without power. -/
def Dev.tapOn (s : Dev) : Bool := s.pw.phase != .stopped && s.pw.phase != .unpowered
/-- The instruction register: 0 BYPASS, 1 IDCODE, 2 SAMPLE/PRELOAD, 3 EXTEST. -/
def Dev.tapInstr (s : Dev) (i : Nat) : Dev := s.modMt (fun m => { m with tapInstr := i })
def Dev.tapBypass (s : Dev) : Dev := (s.tapInstr 0).emit (.tdo 1 0)

/-- BYPASS: the bypass register captures 0. -/
def execBypass (s : State) : Res := act s (fun d => d.tapOn) (fun d => d.tapBypass)
/-- IDCODE. -/
def execIdcode (s : State) : Res := act s (fun d => d.tapOn) (fun d => (d.tapInstr 1).emit (.tdo 32 0x14096d75))

/-- The cells capture the balls (log 20) and the sample is shifted out. -/
def Dev.tapSample (s : Dev) : Dev := let r := s.draw; r.2.emit (.tdo 3169 (Config.boundarySample r.1))

/-- SAMPLE/PRELOAD: the preload is shifted in. -/
def execSamplePreload (preload : BitVec 3169) (s : State) : Res :=
  act s (fun d => d.tapOn) (fun d => ((d.tapInstr 2).tapSample).modMt (fun m => { m with boundary := preload }))
/-- EXTEST: the balls are driven from the boundary-scan register. -/
def execExtest (s : State) : Res := act s (fun d => d.tapOn) (fun d => (d.tapInstr 3).tapSample)
/-- TAP_RESET: Test-Logic-Reset selects IDCODE. -/
def execTapReset (s : State) : Res := act s (fun d => d.tapOn) (fun d => d.tapInstr 1)

/-- A halted core's register: x0 reads 0, others what a debugger wrote, or a value that stays the same while the core is
halted (log 6). -/
def Dev.debugReg (s : Dev) (core r : Nat) : Dev :=
  if r = 0 then s.emit (.debugReply 0)
  else match (s.core core).gpr.find r with
    | some v => s.emit (.debugReply v)
    | none =>
      let f := s.draw
      let v := Config.freeWord f.1
      (f.2.modCore core (fun c => { c with gpr := c.gpr.put r v })).emit (.debugReply v)

/-- The size of a debug access at an address: a register's, or eight bytes where they are aligned. -/
def debugSize (isReg : Bool) (a : Nat) : Nat :=
  if isReg then (match regAt a with
    | some r => if r.1.wide && a = r.2 then 8 else 4
    | none => 4)
  else if a % 8 = 0 then 8 else if a % 4 = 0 then 4 else if a % 2 = 0 then 2 else 1

/-- A debug access while the port is unlocked. -/
def Dev.debug (s : Dev) (op : DebugOp) : Dev :=
  let sizeAt (a : Nat) : Nat := debugSize (s.region a == .registers) a
  match op with
  | .halt c => if s.coreRuns c then s.settleDogs.modCore c (fun k => { k with
      debug := true
      gpr := [] }) else s
  | .step c => if (s.core c).debug then s.modCore c (fun k => { k with gpr := [] }) else s
  | .resume c => if (s.core c).debug then s.settleDogs.modCore c (fun k => { k with
      debug := false
      gpr := [] }) else s
  | .readReg c r => if (s.core c).debug then s.debugReg c r else s
  | .writeReg c r v => if (s.core c).debug && r != 0 then s.modCore c (fun k => { k with gpr := k.gpr.put r v }) else s
  | .readMem c a => if c < 16 then s.boltAccess c .read a (sizeAt a) 0 none else s
  | .writeMem c a v => if c < 16 then s.boltAccess c .write a (sizeAt a) (v.toNat % 2 ^ (8 * sizeAt a)) none else s

/-- DEBUG_ACCESS: BYPASS while the port is locked. -/
def execDebugAccess (op : DebugOp) (s : State) : Res :=
  act s (fun d => d.tapOn) (fun d => if d.mt.unlocked && !d.isDead then d.debug op else d.tapBypass)

end Sys2Proof.Machine
end

