-- ==== Sys2Proof/Machine/Dispatch.lean ====
section
/-! DEFINITION. What each command does: one direct call of its meaning. -/

namespace Sys2Proof.Machine

/-- The effect of a command on everything but the queue of waiting commands. -/
def exec (i : Instr) (s : State) : Host.Outcome State Fault Refusal :=
  match i with
  | .ingressPacket a b c d e f g => Sys2Proof.Machine.execIngressPacket a b c d e f g s
  | .ringRelease a b c => Sys2Proof.Machine.execRingRelease a b c s
  | .commandStart => Sys2Proof.Machine.execCommandStart s
  | .promotionAge a => Sys2Proof.Machine.execPromotionAge a s
  | .hardAge a => Sys2Proof.Machine.execHardAge a s
  | .write a => Sys2Proof.Machine.execWrite a s
  | .read a => Sys2Proof.Machine.execRead a s
  | .flush a => Sys2Proof.Machine.execFlush a s
  | .deallocate a => Sys2Proof.Machine.execDeallocate a s
  | .verify a => Sys2Proof.Machine.execVerify a s
  | .writeZeroes a => Sys2Proof.Machine.execWriteZeroes a s
  | .peerCopyOut a => Sys2Proof.Machine.execPeerCopyOut a s
  | .refresh a => Sys2Proof.Machine.execRefresh a s
  | .identify a => Sys2Proof.Machine.execIdentify a s
  | .getLog a => Sys2Proof.Machine.execGetLog a s
  | .setFeature a => Sys2Proof.Machine.execSetFeature a s
  | .getFeature a => Sys2Proof.Machine.execGetFeature a s
  | .queueCreate a => Sys2Proof.Machine.execQueueCreate a s
  | .queueDelete a => Sys2Proof.Machine.execQueueDelete a s
  | .queueRestartResume a => Sys2Proof.Machine.execQueueRestartResume a s
  | .queueRestartDiscard a => Sys2Proof.Machine.execQueueRestartDiscard a s
  | .abort a => Sys2Proof.Machine.execAbort a s
  | .firmwareDownloadPiece a => Sys2Proof.Machine.execFirmwareDownloadPiece a s
  | .firmwareDownloadCommit a b => Sys2Proof.Machine.execFirmwareDownloadCommit a b s
  | .firmwareActivateBolt a => Sys2Proof.Machine.execFirmwareActivateBolt a s
  | .firmwareActivateWarden a => Sys2Proof.Machine.execFirmwareActivateWarden a s
  | .stop a => Sys2Proof.Machine.execStop a s
  | .eventLogClear a => Sys2Proof.Machine.execEventLogClear a s
  | .namespaceCreate a b => Sys2Proof.Machine.execNamespaceCreate a b s
  | .namespaceDelete a => Sys2Proof.Machine.execNamespaceDelete a s
  | .generate a => Sys2Proof.Machine.execGenerate a s
  | .wrapIn a b => Sys2Proof.Machine.execWrapIn a b s
  | .enrolOperatorKey a b => Sys2Proof.Machine.execEnrolOperatorKey a b s
  | .revokeOperatorKey a b => Sys2Proof.Machine.execRevokeOperatorKey a b s
  | .enrolMaintenanceKey a b => Sys2Proof.Machine.execEnrolMaintenanceKey a b s
  | .setWallTime a => Sys2Proof.Machine.execSetWallTime a s
  | .seal a => Sys2Proof.Machine.execSeal a s
  | .domainJoin a => Sys2Proof.Machine.execDomainJoin a s
  | .domainLeave a => Sys2Proof.Machine.execDomainLeave a s
  | .bufferReservation a => Sys2Proof.Machine.execBufferReservation a s
  | .slotWrite a b c d e f g => Sys2Proof.Machine.execSlotWrite a b c d e f g s
  | .dataTimeout a b => Sys2Proof.Machine.execDataTimeout a b s
  | .slotQuarantineExpiry a b c => Sys2Proof.Machine.execSlotQuarantineExpiry a b c s
  | .pullReadRequest a => Sys2Proof.Machine.execPullReadRequest a s
  | .completionTlp a b c d e f => Sys2Proof.Machine.execCompletionTlp a b c d e f s
  | .completionTimeout a b => Sys2Proof.Machine.execCompletionTimeout a b s
  | .tagQuarantineExpiry a b => Sys2Proof.Machine.execTagQuarantineExpiry a b s
  | .commitPoint a => Sys2Proof.Machine.execCommitPoint a s
  | .ringPacketPost a b => Sys2Proof.Machine.execRingPacketPost a b s
  | .coalesceTimeout a b => Sys2Proof.Machine.execCoalesceTimeout a b s
  | .adminQueueEnable a b => Sys2Proof.Machine.execAdminQueueEnable a b s
  | .adminQueueDisable a b => Sys2Proof.Machine.execAdminQueueDisable a b s
  | .registerWrite a b c d => Sys2Proof.Machine.execRegisterWrite a b c d s
  | .configurationRequest a b c d => Sys2Proof.Machine.execConfigurationRequest a b c d s
  | .unsupportedRequest a => Sys2Proof.Machine.execUnsupportedRequest a s
  | .busMasterEnableCleared a => Sys2Proof.Machine.execBusMasterEnableCleared a s
  | .busMasterEnableSet a => Sys2Proof.Machine.execBusMasterEnableSet a s
  | .flr a => Sys2Proof.Machine.execFlr a s
  | .flrComplete a => Sys2Proof.Machine.execFlrComplete a s
  | .msixUnmask a b => Sys2Proof.Machine.execMsixUnmask a b s
  | .linkStateChange a b c d e => Sys2Proof.Machine.execLinkStateChange a b c d e s
  | .peerWriteRequest a b c d e f => Sys2Proof.Machine.execPeerWriteRequest a b c d e f s
  | .peerTransferReady a b c => Sys2Proof.Machine.execPeerTransferReady a b c s
  | .peerCompletion a b c => Sys2Proof.Machine.execPeerCompletion a b c s
  | .peerWaitTimeout a => Sys2Proof.Machine.execPeerWaitTimeout a s
  | .powerOn a => Sys2Proof.Machine.execPowerOn a s
  | .wakeN a => Sys2Proof.Machine.execWakeN a s
  | .pwrGood => Sys2Proof.Machine.execPwrGood s
  | .clkReady => Sys2Proof.Machine.execClkReady s
  | .memReady => Sys2Proof.Machine.execMemReady s
  | .sequencingFault => Sys2Proof.Machine.execSequencingFault s
  | .perstNAssert a => Sys2Proof.Machine.execPerstNAssert a s
  | .perstNRelease => Sys2Proof.Machine.execPerstNRelease s
  | .vddAonLoss => Sys2Proof.Machine.execVddAonLoss s
  | .pwrFailNAssert a => Sys2Proof.Machine.execPwrFailNAssert a s
  | .pwrFailNRelease => Sys2Proof.Machine.execPwrFailNRelease s
  | .pwrFailResume => Sys2Proof.Machine.execPwrFailResume s
  | .configurationLoad a b => Sys2Proof.Machine.execConfigurationLoad a b s
  | .imageAuthentication a b c => Sys2Proof.Machine.execImageAuthentication a b c s
  | .ddr5Training a b c => Sys2Proof.Machine.execDdr5Training a b c s
  | .flashBringUp a b c d e => Sys2Proof.Machine.execFlashBringUp a b c d e s
  | .wakeAuditMeasurement a => Sys2Proof.Machine.execWakeAuditMeasurement a s
  | .checkpointLoad a => Sys2Proof.Machine.execCheckpointLoad a s
  | .replay => Sys2Proof.Machine.execReplay s
  | .verdictPhase a => Sys2Proof.Machine.execVerdictPhase a s
  | .bankSampling a b => Sys2Proof.Machine.execBankSampling a b s
  | .format a => Sys2Proof.Machine.execFormat a s
  | .portsRunning => Sys2Proof.Machine.execPortsRunning s
  | .haspReadyAnswer a b c => Sys2Proof.Machine.execHaspReadyAnswer a b c s
  | .haspPrepareTimeout => Sys2Proof.Machine.execHaspPrepareTimeout s
  | .haspCommitOverrun => Sys2Proof.Machine.execHaspCommitOverrun s
  | .pwCmdReleaseFphy => Sys2Proof.Machine.execPwCmdReleaseFphy s
  | .pwCmdBeginPrepare => Sys2Proof.Machine.execPwCmdBeginPrepare s
  | .pwCmdRelease => Sys2Proof.Machine.execPwCmdRelease s
  | .pwCmdCommitStep7 => Sys2Proof.Machine.execPwCmdCommitStep7 s
  | .prepare a => Sys2Proof.Machine.execPrepare a s
  | .mailboxRelease => Sys2Proof.Machine.execMailboxRelease s
  | .prepareAnswer a b => Sys2Proof.Machine.execPrepareAnswer a b s
  | .haltNotice => Sys2Proof.Machine.execHaltNotice s
  | .imageReady a b => Sys2Proof.Machine.execImageReady a b s
  | .eventRequest a b c d e => Sys2Proof.Machine.execEventRequest a b c d e s
  | .activationPrepareTimeout => Sys2Proof.Machine.execActivationPrepareTimeout s
  | .haltWaitExpiry => Sys2Proof.Machine.execHaltWaitExpiry s
  | .imageReadyTimeout => Sys2Proof.Machine.execImageReadyTimeout s
  | .activationHoldEnd => Sys2Proof.Machine.execActivationHoldEnd s
  | .timebaseTick => Sys2Proof.Machine.execTimebaseTick s
  | .optTick => Sys2Proof.Machine.execOptTick s
  | .witnessInterval a b c => Sys2Proof.Machine.execWitnessInterval a b c s
  | .checkpointTrigger => Sys2Proof.Machine.execCheckpointTrigger s
  | .checkpointDurable a b => Sys2Proof.Machine.execCheckpointDurable a b s
  | .idlePad a => Sys2Proof.Machine.execIdlePad a s
  | .progAge a => Sys2Proof.Machine.execProgAge a s
  | .nextOperation a b => Sys2Proof.Machine.execNextOperation a b s
  | .tokenClaim a => Sys2Proof.Machine.execTokenClaim a s
  | .tailReturn => Sys2Proof.Machine.execTailReturn s
  | .rampDelay => Sys2Proof.Machine.execRampDelay s
  | .rampTick => Sys2Proof.Machine.execRampTick s
  | .lunReady a b c d => Sys2Proof.Machine.execLunReady a b c d s
  | .opLimitExpiry a b c => Sys2Proof.Machine.execOpLimitExpiry a b c s
  | .eraseSuspend a b c => Sys2Proof.Machine.execEraseSuspend a b c s
  | .eraseResume a b => Sys2Proof.Machine.execEraseResume a b s
  | .zqShortCalibration a => Sys2Proof.Machine.execZqShortCalibration a s
  | .decodeResult a b c => Sys2Proof.Machine.execDecodeResult a b c s
  | .ladderFallback a => Sys2Proof.Machine.execLadderFallback a s
  | .ladderStep => Sys2Proof.Machine.execLadderStep s
  | .witnessSweep a => Sys2Proof.Machine.execWitnessSweep a s
  | .referenceQuery => Sys2Proof.Machine.execReferenceQuery s
  | .sample a b => Sys2Proof.Machine.execSample a b s
  | .lookup => Sys2Proof.Machine.execLookup s
  | .validateSet => Sys2Proof.Machine.execValidateSet s
  | .hold => Sys2Proof.Machine.execHold s
  | .release => Sys2Proof.Machine.execRelease s
  | .writeBack => Sys2Proof.Machine.execWriteBack s
  | .checkpoint => Sys2Proof.Machine.execCheckpoint s
  | .lunQuery => Sys2Proof.Machine.execLunQuery s
  | .rawRead a => Sys2Proof.Machine.execRawRead a s
  | .retireBlock => Sys2Proof.Machine.execRetireBlock s
  | .stripeQuery => Sys2Proof.Machine.execStripeQuery s
  | .reclaim => Sys2Proof.Machine.execReclaim s
  | .refreshLun => Sys2Proof.Machine.execRefreshLun s
  | .markSuspect => Sys2Proof.Machine.execMarkSuspect s
  | .descriptorDone a b => Sys2Proof.Machine.execDescriptorDone a b s
  | .fallbackVictim => Sys2Proof.Machine.execFallbackVictim s
  | .reclaimUnitOffer => Sys2Proof.Machine.execReclaimUnitOffer s
  | .reclaimUnitDone a => Sys2Proof.Machine.execReclaimUnitDone a s
  | .victimErase a => Sys2Proof.Machine.execVictimErase a s
  | .patrolScrub => Sys2Proof.Machine.execPatrolScrub s
  | .dramTemperaturePoll a b => Sys2Proof.Machine.execDramTemperaturePoll a b s
  | .temperatureUpdate a b => Sys2Proof.Machine.execTemperatureUpdate a b s
  | .thermalTrip a => Sys2Proof.Machine.execThermalTrip a s
  | .temperatureBin => Sys2Proof.Machine.execTemperatureBin s
  | .tcMonitorUpdate => Sys2Proof.Machine.execTcMonitorUpdate s
  | .faultMessage a => Sys2Proof.Machine.execFaultMessage a s
  | .privilegedFault a b c => Sys2Proof.Machine.execPrivilegedFault a b c s
  | .ftAck a b => Sys2Proof.Machine.execFtAck a b s
  | .ftInject a b => Sys2Proof.Machine.execFtInject a b s
  | .wardenWatchdogKick a => Sys2Proof.Machine.execWardenWatchdogKick a s
  | .wardenWatchdogExpiry => Sys2Proof.Machine.execWardenWatchdogExpiry s
  | .boltWatchdogKick a b c => Sys2Proof.Machine.execBoltWatchdogKick a b c s
  | .boltWatchdogExpiry a => Sys2Proof.Machine.execBoltWatchdogExpiry a s
  | .machineTimerInterrupt a => Sys2Proof.Machine.execMachineTimerInterrupt a s
  | .icClaim a b => Sys2Proof.Machine.execIcClaim a b s
  | .icComplete a b c => Sys2Proof.Machine.execIcComplete a b c s
  | .icRaise a b => Sys2Proof.Machine.execIcRaise a b s
  | .icRoute a b c => Sys2Proof.Machine.execIcRoute a b c s
  | .internalAccess a b c d e f => Sys2Proof.Machine.execInternalAccess a b c d e f s
  | .cxKeyLoad a => Sys2Proof.Machine.execCxKeyLoad a s
  | .cxKeyClear a => Sys2Proof.Machine.execCxKeyClear a s
  | .keyBusyCleared a => Sys2Proof.Machine.execKeyBusyCleared a s
  | .codeflashScan a => Sys2Proof.Machine.execCodeflashScan a s
  | .programLine a b => Sys2Proof.Machine.execProgramLine a b s
  | .sectorErase a => Sys2Proof.Machine.execSectorErase a s
  | .cfEraseSuspend a => Sys2Proof.Machine.execCfEraseSuspend a s
  | .cfEraseResume a => Sys2Proof.Machine.execCfEraseResume a s
  | .cfReset a => Sys2Proof.Machine.execCfReset a s
  | .cfSequenceTimeout => Sys2Proof.Machine.execCfSequenceTimeout s
  | .cfOperationDone a => Sys2Proof.Machine.execCfOperationDone a s
  | .spClear a => Sys2Proof.Machine.execSpClear a s
  | .march a => Sys2Proof.Machine.execMarch a s
  | .marchDone a => Sys2Proof.Machine.execMarchDone a s
  | .rawWrite => Sys2Proof.Machine.execRawWrite s
  | .rawReadTest => Sys2Proof.Machine.execRawReadTest s
  | .dcTestMask a => Sys2Proof.Machine.execDcTestMask a s
  | .trngDataRead => Sys2Proof.Machine.execTrngDataRead s
  | .eventRecord a b c d e f => Sys2Proof.Machine.execEventRecord a b c d e f s
  | .evFlush => Sys2Proof.Machine.execEvFlush s
  | .healthSnapshot => Sys2Proof.Machine.execHealthSnapshot s
  | .logClear a => Sys2Proof.Machine.execLogClear a s
  | .id => Sys2Proof.Machine.execId s
  | .fault => Sys2Proof.Machine.execFault s
  | .log => Sys2Proof.Machine.execLog s
  | .clear => Sys2Proof.Machine.execClear s
  | .chal => Sys2Proof.Machine.execChal s
  | .resp a => Sys2Proof.Machine.execResp a s
  | .pass a => Sys2Proof.Machine.execPass a s
  | .lock => Sys2Proof.Machine.execLock s
  | .mtLock a => Sys2Proof.Machine.execMtLock a s
  | .nonceExpiry => Sys2Proof.Machine.execNonceExpiry s
  | .unlockDelayExpiry => Sys2Proof.Machine.execUnlockDelayExpiry s
  | .bypass => Sys2Proof.Machine.execBypass s
  | .idcode => Sys2Proof.Machine.execIdcode s
  | .samplePreload a => Sys2Proof.Machine.execSamplePreload a s
  | .extest => Sys2Proof.Machine.execExtest s
  | .debugAccess a => Sys2Proof.Machine.execDebugAccess a s
  | .dataTransferEnd a b => Sys2Proof.Machine.execDataTransferEnd a b s
  | .barRead a b c d e => Sys2Proof.Machine.execBarRead a b c d e s
  | .unmappedBarWrite a b c d => Sys2Proof.Machine.execUnmappedBarWrite a b c d s
  | .unknownCommand a => Sys2Proof.Machine.execUnknownCommand a s
  | .tapReset => Sys2Proof.Machine.execTapReset s

end Sys2Proof.Machine
end

