-- ==== Sys2Proof/WellFormed.lean ====
section
/-! DEFINITION. Well-formed commands: operands that name a port, queue, channel, LUN, core or bank the device has (R46,
R162, R342), byte offsets inside their windows (R317, R338), and data of the length it states. exec is defined on the other
commands too: what they name does not exist, so nothing happens. -/

namespace Sys2Proof

def portOk (p : Nat) : Bool := p < 2
def queueOk (q : Nat) : Bool := q < 512
def channelOk (n : Nat) : Bool := n < 128
def lunOk (n : Nat) : Bool := n < 32
def coreOk (n : Nat) : Bool := n < 16
def whoOk : Who → Bool
  | .warden => true
  | .bolt n => coreOk n
  | .host p => portOk p
/-- BAR0, BAR2 or BAR4 (R316). -/
def barOk (b : Nat) : Bool := b = 0 || b = 2 || b = 4

/-- Well-formedness of a command. -/
def Instr.wf : Instr → Bool
  | .ingressPacket p q off len _ _ _ => portOk p && queueOk q && off + len ≤ 4096 && 1 ≤ len
  | .ringRelease p q _ => portOk p && queueOk q
  | .slotWrite p bar _ len _ _ _ => portOk p && (bar = 2 || bar = 4) && 1 ≤ len
  | .dataTimeout p _ | .completionTlp p _ _ _ _ _ | .completionTimeout p _ | .tagQuarantineExpiry p _ => portOk p
  | .slotQuarantineExpiry p bar _ => portOk p && (bar = 2 || bar = 4)
  | .ringPacketPost p q | .coalesceTimeout p q => portOk p && q ≤ 512
  | .adminQueueEnable p _ | .adminQueueDisable p _ | .unsupportedRequest p | .busMasterEnableCleared p
  | .busMasterEnableSet p | .flr p | .flrComplete p | .linkStateChange p _ _ _ _ => portOk p
  | .configurationRequest p _ _ _ => portOk p
  | .msixUnmask p v => portOk p && v < 513
  | .registerWrite w a _ _ => whoOk w && a % 4 = 0
  | .peerWriteRequest p w off len _ _ => portOk p && queueOk w && off + len ≤ 4096 && 1 ≤ len
  | .peerTransferReady p w _ | .peerCompletion p w _ => portOk p && queueOk w
  | .flashBringUp n _ _ _ _ => channelOk n
  | .bankSampling b _ => b < 256
  | .prepare r => r = 1 || r = 2
  | .prepareAnswer n _ | .imageReady n _ | .eventRequest n _ _ _ _ => coreOk n
  | .idlePad st => st < 10
  | .witnessInterval c l _ | .nextOperation c l | .opLimitExpiry c l _ | .eraseSuspend c l _ | .eraseResume c l | .dataTransferEnd c l
  | .lunReady c l _ _ => channelOk c && lunOk l
  | .zqShortCalibration c => channelOk c
  | .dramTemperaturePoll c _ => c < 6
  | .temperatureUpdate i _ | .thermalTrip i => i < 24
  | .ftAck w _ | .ftInject w _ => whoOk w
  | .boltWatchdogKick w n _ => whoOk w && coreOk n
  | .boltWatchdogExpiry n | .machineTimerInterrupt n => coreOk n
  | .icClaim w t => whoOk w && t < 17
  | .icComplete w t n => whoOk w && t < 17 && n < 1024
  | .icRaise w n => whoOk w && n < 512
  | .icRoute w n _ => whoOk w && n < 320
  | .internalAccess w _ a n _ _ => whoOk w && a < 2 ^ 48 && 1 ≤ n && n ≤ 64
  | .cxKeyLoad k | .cxKeyClear k | .keyBusyCleared k => k < 16
  | .programLine off words => off < 0x1c00000 && words.length = 64
  | .sectorErase off | .cfEraseSuspend off | .cfEraseResume off | .cfReset off => off < 0x1c00000
  | .barRead p bar _ n _ => portOk p && barOk bar && 1 ≤ n
  | .unmappedBarWrite p bar _ f => portOk p && barOk bar && 1 ≤ f.len
  | .commandStart | .promotionAge _ | .hardAge _ | .write _ | .read _ | .flush _ | .deallocate _ | .verify _
  | .writeZeroes _ | .peerCopyOut _ | .refresh _ | .identify _ | .getLog _ | .setFeature _ | .getFeature _ | .queueCreate _
  | .queueDelete _ | .queueRestartResume _ | .queueRestartDiscard _ | .abort _ | .firmwareDownloadPiece _
  | .firmwareDownloadCommit _ _ | .firmwareActivateBolt _ | .firmwareActivateWarden _ | .stop _ | .eventLogClear _
  | .namespaceCreate _ _ | .namespaceDelete _ | .generate _ | .wrapIn _ _ | .enrolOperatorKey _ _ | .revokeOperatorKey _ _
  | .enrolMaintenanceKey _ _ | .setWallTime _ | .seal _ | .domainJoin _ | .domainLeave _ | .bufferReservation _
  | .pullReadRequest _ | .commitPoint _ | .peerWaitTimeout _ | .powerOn _ | .wakeN _ | .pwrGood | .clkReady | .memReady
  | .sequencingFault | .perstNAssert _ | .perstNRelease | .vddAonLoss | .pwrFailNAssert _ | .pwrFailNRelease
  | .pwrFailResume | .configurationLoad _ _ | .imageAuthentication _ _ _ | .ddr5Training _ _ _ | .wakeAuditMeasurement _
  | .checkpointLoad _ | .replay | .verdictPhase _ | .format _ | .portsRunning | .haspReadyAnswer _ _ _
  | .haspPrepareTimeout | .haspCommitOverrun | .pwCmdReleaseFphy | .pwCmdBeginPrepare | .pwCmdRelease | .pwCmdCommitStep7
  | .mailboxRelease | .haltNotice | .activationPrepareTimeout | .haltWaitExpiry | .imageReadyTimeout | .activationHoldEnd
  | .timebaseTick | .optTick | .checkpointTrigger | .checkpointDurable _ _ | .progAge _ | .tokenClaim _ | .tailReturn
  | .rampDelay | .rampTick | .decodeResult _ _ _ | .ladderFallback _ | .ladderStep | .witnessSweep _ | .referenceQuery
  | .sample _ _ | .lookup | .validateSet | .hold | .release | .writeBack | .checkpoint | .lunQuery | .rawRead _
  | .retireBlock | .stripeQuery | .reclaim | .refreshLun | .markSuspect | .descriptorDone _ _ | .fallbackVictim
  | .reclaimUnitOffer | .reclaimUnitDone _ | .victimErase _ | .patrolScrub | .temperatureBin | .tcMonitorUpdate
  | .faultMessage _ | .privilegedFault _ _ _ | .wardenWatchdogKick _ | .wardenWatchdogExpiry | .codeflashScan _
  | .cfSequenceTimeout | .cfOperationDone _ | .spClear _ | .march _ | .marchDone _ | .rawWrite | .rawReadTest
  | .dcTestMask _ | .trngDataRead | .eventRecord _ _ _ _ _ _ | .evFlush | .healthSnapshot | .logClear _ | .id | .fault
  | .log | .clear | .chal | .resp _ | .pass _ | .lock | .mtLock _ | .nonceExpiry | .unlockDelayExpiry | .bypass | .idcode
  | .samplePreload _ | .extest | .debugAccess _ | .unknownCommand _ | .tapReset => true

end Sys2Proof
end

