-- ==== Sys2Proof/Safety.lean ====
section
/-! DEFINITION. The terms the statements use: what a command answers, a device locked in Deadbolt, a well-formed queue. -/

namespace Sys2Proof.Machine

/-- Command c on state s goes on, to the state whose device is d; the commands that wait are as they were. -/
def Gives (c : Instr) (s : State) (d : Dev) : Prop := exec c s = .next { s with dev := d }

/-- Command c on state s goes on, to a state whose device has the property P. -/
def GivesSome (c : Instr) (s : State) (P : Dev → Prop) : Prop := ∃ d, Gives c s d ∧ P d

/-- The step goes on: neither a fault nor a refusal. -/
def GoesOn (s : State) : Prop := ∃ t, step s = .next t

/-- Every command that waits is well formed. -/
def QueueWf (s : State) : Prop := ∀ c ∈ s.pending, c.wf = true

/-- The device is in Deadbolt with FAULT_N asserted and its NAND holds n; no loss of VDD_AON waits among the commands. -/
def LockedDown (n : Nand) (s : State) : Prop :=
  s.dev.pw.phase = .deadbolt ∧ s.dev.pw.faultN = true ∧ s.dev.nand = n ∧ Instr.vddAonLoss ∉ s.pending

/-- The device when a line of its UART has arrived: in Run the line raises source 31. -/
def Dev.heard (d : Dev) : Dev := if d.uartPlace == .run then d.raise Irq.uartByte else d

/-- Two devices that differ in QE only. -/
def OnlyQe (d e : Dev) : Prop := e = { d with qe := e.qe }

end Sys2Proof.Machine
end

