-- ==== Sys2Proof/Certificates/Slice0/Obligations.lean ====
section
/-! DEFINITION. The statements about the FZ4096 model. Each docstring names the rules of the spec it rests on. A statement
called `…Completes` says of each command it names that exec answers a next state, under conditions on the state and the
operands alone, and what that state's device is; every part of the device that the right-hand side does not name is as it was. -/

open Sys2Proof Sys2Proof.Machine

/-! ### The machine as a whole -/

/-- A step is the command at the front of the queue, run with the queue's rest; on an empty queue the block idles (log 2). -/
def Obligations.StepRunsTheFrontCommand : Prop :=
  (∀ (c : Instr) (rest : List Instr) (d : Dev), Machine.step ⟨d, c :: rest⟩ = Machine.exec c ⟨d, rest⟩) ∧
  (∀ d : Dev, Machine.step ⟨d, []⟩ = .next ⟨d, []⟩)

/-- Every command in every state goes on, but for a power-on with STRAP4 to STRAP7 not all 0, which is outside specification and
stops with its own fault (R490, R2). Nothing is refused. -/
def Obligations.EveryCommandGoesOn : Prop :=
  (∀ (c : Instr) (s : State), (∀ straps, c = .powerOn straps → straps.toNat / 16 = 0) → ∃ d, Gives c s d) ∧
  (∀ (straps : BitVec 8) (s : State), straps.toNat / 16 ≠ 0 → Machine.exec (.powerOn straps) s = .fault .outsideSpecification)

/-- Deadbolt ends only when VDD_AON is removed (R430): no step from a device in Deadbolt leaves it, releases FAULT_N or changes
what the NAND holds, whatever commands wait, while no loss of VDD_AON is among them. -/
def Obligations.DeadboltIsLeftOnlyByPowerLoss : Prop :=
  ∀ (n : Nand) (s t : State), LockedDown n s → Machine.step s = .next t → LockedDown n t

/-- Well-formed commands stay well formed while they wait. -/
def Obligations.WaitingCommandsStayWellFormed : Prop :=
  ∀ s t : State, QueueWf s → Machine.step s = .next t → QueueWf t

/-- What reset leaves, where the spec's Reset columns and rules give it (R14, R84, R286, R291): the wake order begins at its first
step, no queue, command, grant, namespace or key exists, acceptance numbers start at 1, and registers read their reset values. No waiting command is ill formed. -/
def Obligations.ResetState : Prop :=
  (State.reset.pending = [] ∧ State.reset.dev.pw.phase = .waking ∧ State.reset.dev.pw.wakeStep = 1 ∧
  State.reset.dev.qe.queues = [] ∧ State.reset.dev.qe.cmds = [] ∧ State.reset.dev.qe.grants = [] ∧
  State.reset.dev.qe.nextAcc = 1 ∧ State.reset.dev.cx.slots = [] ∧ State.reset.dev.mp.ns = [] ∧
  State.reset.dev.mt.unlocked = false ∧ State.reset.dev.mem.lines = [] ∧
  State.reset.dev.get Reg.FT_STATUS.held = 0 ∧ State.reset.dev.get Reg.EV_DROPPED.dropped = 0 ∧
  State.reset.dev.get Reg.WD_WDOG.limit_ms = 2000 ∧ State.reset.dev.get Reg.TS_WARN_CFG.warn_c = 110) ∧
  (QueueWf State.reset)

/-! ### Layouts -/

/-- A physical granule address holds LUN, block group, word line and slot apart (R162); a map entry holds what it was built of (R161); stamps
are serial numbers, of two at most one is newer (R171). -/
def Obligations.MapFormats : Prop :=
  (∀ lun block wl slot : Nat, lun < 4096 → block < 32768 → wl < 512 → slot < 16 →
    Pga.dieLun (Pga.mk lun block wl slot) = lun ∧ Pga.channel (Pga.mk lun block wl slot) = lun / 32 ∧
    Pga.lun (Pga.mk lun block wl slot) = lun % 32 ∧ Pga.block (Pga.mk lun block wl slot) = block ∧
    Pga.wl (Pga.mk lun block wl slot) = wl ∧ Pga.slot (Pga.mk lun block wl slot) = slot ∧
    Pga.set (Pga.mk lun block wl slot) = Pga.mk lun block wl 0) ∧
  (∀ (pga stamp : Nat) (t z b p : Bool), pga < 2 ^ 40 → stamp < 2 ^ 16 →
    Ent.pga (Ent.mk pga stamp t z b p) = pga ∧ Ent.stamp (Ent.mk pga stamp t z b p) = stamp ∧
    Ent.trimmed (Ent.mk pga stamp t z b p) = t ∧ Ent.zeroFilled (Ent.mk pga stamp t z b p) = z ∧
    Ent.sub (Ent.mk pga stamp t z b p) = b ∧ Ent.pinned (Ent.mk pga stamp t z b p) = p) ∧
  (∀ a : BitVec 16, stampNewer (a + 1) a = true ∧ stampNewer a a = false) ∧
  (∀ a b : BitVec 16, stampNewer a b = true → stampNewer b a = false)

/-- The packets of the completion rings carry what they are built of where their layouts place it: Completion (R61, R62), Transfer-Ready (R65),
Notice (R78) and Freeze (R81). -/
def Obligations.RingPacketLayouts : Prop :=
  (∀ (tag queue : Nat) (d : Done), tag < 2 ^ 16 → queue < 2 ^ 16 →
    ringType (completionPkt tag queue d) = 1 ∧ fld (completionPkt tag queue d) 16 16 = tag ∧
    fld (completionPkt tag queue d) 32 16 = d.status.toNat ∧ fld (completionPkt tag queue d) 48 16 = queue ∧
    fld (completionPkt tag queue d) 64 64 = d.result.toNat ∧ fld (completionPkt tag queue d) 192 32 = d.result2.toNat ∧
    (fld (completionPkt tag queue d) 8 1 = 1 ↔ d.lba.isSome) ∧
    (∀ l, d.lba = some l → fld (completionPkt tag queue d) 128 64 = l.toNat)) ∧
  (∀ tag gid queue slot offset length position timeout : Nat, tag < 2 ^ 16 → gid < 2 ^ 16 → queue < 2 ^ 16 → slot < 2 ^ 20 →
    offset < 2 ^ 16 → length < 2 ^ 32 → position < 2 ^ 32 → timeout < 2 ^ 32 →
    ringType (readyPkt tag gid queue slot offset length position timeout) = 2 ∧
    fld (readyPkt tag gid queue slot offset length position timeout) 16 16 = tag ∧
    fld (readyPkt tag gid queue slot offset length position timeout) 32 16 = gid ∧
    fld (readyPkt tag gid queue slot offset length position timeout) 48 16 = queue ∧
    fld (readyPkt tag gid queue slot offset length position timeout) 64 20 = slot ∧
    fld (readyPkt tag gid queue slot offset length position timeout) 96 16 = offset ∧
    fld (readyPkt tag gid queue slot offset length position timeout) 128 32 = length ∧
    fld (readyPkt tag gid queue slot offset length position timeout) 160 32 = position ∧
    fld (readyPkt tag gid queue slot offset length position timeout) 192 32 = timeout) ∧
  (∀ (n : Notice) (lost : Nat), n.code < 2 ^ 16 →
    ringType (noticePkt n lost) = 3 ∧ fld (noticePkt n lost) 8 8 = min lost 255 ∧ fld (noticePkt n lost) 16 16 = n.code ∧
    fld (noticePkt n lost) 64 32 = n.p0.toNat ∧ fld (noticePkt n lost) 96 32 = n.p1.toNat ∧
    fld (noticePkt n lost) 128 32 = n.p2.toNat ∧ fld (noticePkt n lost) 160 48 = n.opt.toNat) ∧
  (∀ (tag : Option Nat) (reason queue dropped held seq : Nat), reason < 2 ^ 16 → queue < 2 ^ 16 → held < 2 ^ 16 → seq < 2 ^ 32 →
    ringType (freezePkt tag reason queue dropped held seq) = 4 ∧ fld (freezePkt tag reason queue dropped held seq) 32 16 = reason ∧
    fld (freezePkt tag reason queue dropped held seq) 48 16 = queue ∧
    fld (freezePkt tag reason queue dropped held seq) 64 16 = min dropped 65535 ∧
    fld (freezePkt tag reason queue dropped held seq) 80 16 = held ∧ fld (freezePkt tag reason queue dropped held seq) 96 32 = seq)

/-- Time (R31, R433): a tick of the timebase raises its count by one, from the release of PERST_N on; while OPT counts every thousandth is due at
OPT, which rises by one millisecond. A timer started at tick c with a limit of L ticks has expired exactly when the count has reached
c + L + 1, and one of OPT exactly when OPT has (R19, R33). -/
def Obligations.TimeAdvances : Prop :=
  (∀ s : State, s.dev.ticks = true → s.dev.pw.optSub < 1000 → s.dev.optRuns = false →
    Gives .timebaseTick s (s.dev.put Reg.PW_TIMEBASE.ticks (s.dev.now + 1))) ∧
  (∀ s : State, s.dev.ticks = true → s.dev.pw.optSub < 1000 → s.dev.optRuns = true →
    Gives .timebaseTick s ((s.dev.put Reg.PW_TIMEBASE.ticks (s.dev.now + 1)).modPw (fun w => { w with optSub := w.optSub + 1 })).dueSuspend) ∧
  (∀ s : State, s.dev.optRuns = true → s.dev.pw.perstLow = false → 1000 ≤ s.dev.pw.optSub → s.dev.auditDone = false →
    GivesSome .optTick s (fun e => e.pw.optSub = s.dev.pw.optSub - 1000 ∧ e.get Reg.PW_OPT.opt = (s.dev.opt.toNat + 1) % 2 ^ 48 ∧
      e.get Reg.PW_TIMEBASE.ticks = s.dev.now)) ∧
  (∀ s : State, s.dev.optRuns = true → s.dev.pw.perstLow = false → 1000 ≤ s.dev.pw.optSub → s.dev.auditDone = true →
    Gives .optTick s (((s.dev.put Reg.PW_OPT.opt (s.dev.opt.toNat + 1)).modPw (fun w => { w with optSub := w.optSub - 1000 })).driftTick)) ∧
  (∀ (d : Dev) (c l : Nat), d.expired c l = true ↔ c + l + 1 ≤ d.now) ∧
  (∀ (d : Dev) (c l : Nat), d.optExpired c l = true ↔ c + l + 1 ≤ 1000 * d.opt.toNat + d.pw.optSub)

/-! ### Packets, starts and ages (02, 03) -/

/-- INGRESS_PACKET (R50, R84, R60): a command packet that no check of R51 or R52 stops enters the FIFO of its queue. It gets the
next acceptance number and the next place in the cross-queue order, its age starts now, its release count is offered to its queue's
ring, and nothing outside QE changes. -/
def Obligations.IngressPacketIsAccepted : Prop :=
  ∀ (s : State) (p q off len : Nat) (be poisoned : Bool) (pkt : Packet) (u : Queue),
    s.dev.takesMemory p = true → q < 512 → s.dev.queue p q = some u → u.state ≠ .deleting → Pkt.opcode pkt ≠ 0 →
    (s.dev.port p).state ≠ .booting → (s.dev.port p).state ≠ .deadbolt → s.dev.qe.haspDrop = false → s.dev.qe.dead = false →
    packetFault off len be poisoned u.pcheck pkt = none → (s.dev.cmdsOf p q).length < u.depth →
    (∀ c ∈ s.dev.cmdsOf p q, Pkt.tag c.pkt ≠ Pkt.tag pkt) → s.dev.armedFor Src.qeTags = false →
    GivesSome (.ingressPacket p q off len be poisoned pkt) s (fun e =>
      OnlyQe s.dev e ∧ e.qe.nextAcc = s.dev.qe.nextAcc + 1 ∧ e.qe.nextOrder = s.dev.qe.nextOrder + 1 ∧
      e.qe.grants = s.dev.qe.grants ∧ e.qe.reqs = s.dev.qe.reqs ∧ e.qe.nextStart = s.dev.qe.nextStart ∧
      e.qe.queues = s.dev.qe.queues.modify (qkey p q) (fun v => v.release (Pkt.release pkt)) ∧
      ∃ c, e.qe.cmds = s.dev.qe.cmds ++ [c] ∧ c.acc = s.dev.qe.nextAcc ∧ c.port = p ∧ c.queue = q ∧ c.pkt = pkt ∧
        c.phase = .held ∧ c.origin = s.dev.now ∧ c.order = s.dev.qe.nextOrder ∧ c.done = none)

/-- A packet for a queue that does not exist, or that arrives while the port is Booting or in Deadbolt, is counted in
QE_PORT_STATUS.stray; no Freeze packet is posted, no queue changes state and no command is made (R52). stray saturates. -/
def Obligations.StrayPacketsAreCounted : Prop :=
  ∀ (s : State) (p q off len : Nat) (be poisoned : Bool) (pkt : Packet),
    s.dev.takesMemory p = true → q < 512 →
    (s.dev.queue p q = none ∨ (s.dev.port p).state = .booting ∨ (s.dev.port p).state = .deadbolt) →
    GivesSome (.ingressPacket p q off len be poisoned pkt) s (fun e =>
      (e.port p).stray = min ((s.dev.port p).stray + 1) 0xffff ∧ e.qe = s.dev.qe)

/-- RING_RELEASE (R57, R60): a clean Ring Release packet offers its count to the queue, frozen or not. A count between the last one
taken and the posted count, modulo 65,536, is taken, and any other is ignored. It makes no command. -/
def Obligations.RingReleaseCompletes : Prop :=
  (∀ (s : State) (p q : Nat) (pkt : Packet) (u : Queue),
    s.dev.takesMemory p = true → q < 512 → Pkt.opcode pkt = 0 → s.dev.queue p q = some u →
    (s.dev.port p).state ≠ .booting → (s.dev.port p).state ≠ .deadbolt → s.dev.qe.haspDrop = false →
    (u.pcheck = true → Pkt.checkOk pkt = true) → releaseClean u.pcheck pkt = true →
    Gives (.ringRelease p q pkt) s (s.dev.modQueue p q (fun v => v.release (Pkt.release pkt)))) ∧
  (∀ (u : Queue) (v : Nat), v < 65536 →
    ((v + 65536 - u.released % 65536) % 65536 ≤ (u.posted + 65536 - u.released % 65536) % 65536 → (u.release v).released = v) ∧
    (¬(v + 65536 - u.released % 65536) % 65536 ≤ (u.posted + 65536 - u.released % 65536) % 65536 → u.release v = u))

/-- COMMAND_START, PROMOTION_AGE and HARD_AGE (R85, R87, R95): what arbitration picks leaves its FIFO with the next start number; with no candidate
that may have an entry nothing but deficits changes; a command whose age has reached a limit ranks as Urgent, or as master-key, when the operations that serve it and wait for tokens
become claims; nothing else changes. -/
def Obligations.StartsAndAgesComplete : Prop :=
  (∀ s : State, s.dev.armedFor Src.qeDeficits = false → s.dev.zeroDeficits.arbitrate = none → Gives .commandStart s s.dev.zeroDeficits) ∧
  (∀ (s : State) (c : Command) (reserved : Bool) (a : Arbiter), s.dev.armedFor Src.qeDeficits = false → s.dev.armedFor Src.qeFifo = false →
    s.dev.zeroDeficits.arbitrate = some (.cmd c, reserved, a) → (s.dev.zeroDeficits.modQe (fun e => { e with arb := a })).startStatus c = none →
    GivesSome .commandStart s (fun e => e.qe.nextStart = s.dev.qe.nextStart + 1 ∧
      e.qe.cmds = s.dev.qe.cmds.map (fun x =>
        if x.acc = c.acc then { x with
          phase := .started
          startNo := s.dev.qe.nextStart
          reservedEntry := reserved
          seen := s.dev.qe.nextAcc } else x) ∧
      e.nand = s.dev.nand ∧ e.mp = s.dev.mp ∧ e.bm = s.dev.bm)) ∧
  (∀ (s : State) (acc : Nat) (c : Command), s.dev.cmd acc = some c → c.rank = .normal →
    s.dev.aged c (s.dev.get (qeReg c.port Reg.QE_AGE_CFG.promotion_ms)) = true →
    Gives (.promotionAge acc) s (s.dev.modCmd acc (fun x => { x with rank := .urgent }))) ∧
  (∀ (s : State) (acc : Nat) (c : Command), s.dev.cmd acc = some c → c.rank ≠ .master →
    s.dev.aged c (s.dev.get (qeReg c.port Reg.QE_AGE_CFG.hard_age_ms)) = true →
    Gives (.hardAge acc) s (s.dev.modCmd acc (fun x => { x with rank := .master })).claimMasters)

/-- While an ordinary start-window entry is free, a master-key candidate goes before every other, the oldest first (R92, R93, R96). -/
def Obligations.OldestMasterKeyGoesFirst : Prop :=
  ∀ (d : Dev) (m : Command), d.entriesUsed < 8128 → (∃ x ∈ d.candidates, x.2.2.2 = m ∧ m.rank = .master) →
    (∀ x ∈ d.candidates, x.2.2.2.rank = .master → m.acc ≤ x.2.2.2.acc) →
    (∀ x ∈ d.candidates, x.2.2.2.acc = m.acc → x.2.2.2 = m) →
    d.arbitrate = some (.cmd m, false, d.qe.arb)

/-- A queue that is frozen or being deleted, a queue of a port that is Booting or in Deadbolt, and every queue during a firmware activation hold
presents no candidate (R88); no command is presented while an earlier-accepted Ordered command of its queue is outstanding, and an Ordered
one only when no earlier-accepted command is (R106). -/
def Obligations.CandidatesAreHeldBack : Prop :=
  (∀ (d : Dev) (p q : Nat) (u : Queue),
    (u.state ≠ .active ∨ (d.port p).state = .booting ∨ (d.port p).state = .deadbolt ∨ d.qe.hold.isSome = true) →
    d.candidate p q u = none) ∧
  (∀ (d : Dev) (p q : Nat) (u : Queue) (c : Command), d.candidate p q u = some c →
    ∀ a ∈ d.cmdsOf p q, a.acc < c.acc → Pkt.ordered a.pkt = false ∧ Pkt.ordered c.pkt = false)

/-- A command's cost (R89): the granules its range touches, at most 64, for the five opcodes that R89 lists, and 1 for the rest. -/
def Obligations.CommandCost : Prop :=
  ∀ c : Command,
    (c.op ∈ [0x01, 0x02, 0x05, 0x06, 0x08] → c.lo < c.hi → c.cost = min 64 ((c.hi - 1) / 16 + 1 - c.lo / 16)) ∧
    (c.op ∉ [0x01, 0x02, 0x05, 0x06, 0x08] → c.cost = 1)

/-! ### I/O commands (04, 05) -/

/-- The I/O commands begin (R86, R64, R132, R134, R136, R138, R279): a started command is at work, with the granules its range
touches as its parts; a pull Write and a Read name their host memory. With no spare left, a Deallocate or Write Zeroes
makes the device Sealed and fails with Capacity Sealed (R279). The parts of a range cover exactly its blocks. -/
def Obligations.IoCommandsBegin : Prop :=
  (∀ (s : State) (acc : Nat) (c : Command), s.dev.startedOp acc 0x01 = some c →
    Gives (.write acc) s (s.dev.modCmd c.acc (fun x => { x with
      phase := .running
      parts := partsOf (Pkt.slba x.pkt) (Pkt.nlb x.pkt)
      fetch := if Pkt.pull x.pkt then some (fetchOf x.pkt (Pkt.nlb x.pkt * 4096)) else none }))) ∧
  (∀ (s : State) (acc : Nat) (c : Command), s.dev.startedOp acc 0x02 = some c →
    Gives (.read acc) s ((s.dev.modCmd c.acc (fun x => { x with
      phase := .running
      parts := readParts (Pkt.slba x.pkt) (Pkt.nlb x.pkt)
      fetch := some (fetchOf x.pkt (Pkt.nlb x.pkt * 4096)) })).serve c.acc)) ∧
  (∀ (s : State) (acc : Nat) (c : Command), s.dev.startedOp acc 0x05 = some c →
    Gives (.verify acc) s ((s.dev.modCmd c.acc (fun x => { x with
      phase := .running
      parts := readParts (Pkt.slba x.pkt) (Pkt.nlb x.pkt) })).serve c.acc)) ∧
  (∀ (s : State) (acc : Nat) (c : Command), s.dev.startedOp acc 0x03 = some c →
    Gives (.flush acc) s ((s.dev.modCmd c.acc (fun x => { x with phase := .running })).stir)) ∧
  (∀ (s : State) (acc : Nat) (c : Command), s.dev.startedOp acc 0x04 = some c → 0 < s.dev.spareLeft →
    Gives (.deallocate acc) s (s.dev.modCmd c.acc (fun x => { x with phase := .running, parts := partsOf (Pkt.slba x.pkt) (Pkt.nlb x.pkt) }))) ∧
  (∀ (s : State) (acc : Nat) (c : Command), s.dev.startedOp acc 0x06 = some c → 0 < s.dev.spareLeft →
    Gives (.writeZeroes acc) s (s.dev.modCmd c.acc (fun x => { x with phase := .running, parts := partsOf (Pkt.slba x.pkt) (Pkt.nlb x.pkt) }))) ∧
  (∀ (s : State) (acc : Nat) (c : Command), s.dev.startedOp acc 0x08 = some c → s.dev.peerInvalid c = false →
    Gives (.peerCopyOut acc) s ((s.dev.modCmd c.acc (fun x => { x with
      phase := .running
      parts := readParts (Pkt.slba x.pkt) (Pkt.nlb x.pkt) })).serve c.acc)) ∧
  (∀ (s : State) (acc : Nat) (c : Command), s.dev.startedOp acc 0x09 = some c → 0 < s.dev.spareLeft →
    Gives (.refresh acc) s (((s.dev.modCmd c.acc (fun x => { x with
      phase := .running
      waitOn := (s.dev.refreshScope (Pkt.cdwA c.pkt)).length })).addPass {
        why := .refreshCommand c.acc
        left := (s.dev.refreshScope (Pkt.cdwA c.pkt)).flatMap (fun l => s.dev.setsIn l none)
        urgent := false }).endPasses)) ∧
  (∀ (s : State) (acc : Nat) (c : Command), s.dev.spareLeft ≤ 0 →
    (s.dev.startedOp acc 0x04 = some c → Gives (.deallocate acc) s (s.dev.becomeSealed.fail c.acc St.capacitySealed)) ∧
    (s.dev.startedOp acc 0x06 = some c → Gives (.writeZeroes acc) s (s.dev.becomeSealed.fail c.acc St.capacitySealed))) ∧
  (∀ slba nlb b : Nat, (∃ p ∈ partsOf slba nlb, 16 * p.granule + p.first ≤ b ∧ b < 16 * p.granule + p.first + p.count) ↔
    (slba ≤ b ∧ b < slba + nlb))

/-! ### Data, completions and rings (02, 03, 04) -/

/-- COMMIT_POINT of the I/O commands (R86, R108, R130 to R137): a Write whose data has all arrived enters the buffer; a Read whose data has
gone out, a Verify whose blocks are all read and a Flush whose data is all durable succeed; a Deallocate or Write Zeroes that holds its
reservations acts. It fixes the completion and queues
its packet; a command past it receives exactly what was fixed there. -/
def Obligations.CommitPointCompletes : Prop :=
  (∀ (d : Dev) (acc : Nat) (c : Command) (r : Done) (after : List Nat),
    d.cmd acc = some c → c.phase ≠ .committed → c.peer = none →
    d.commitWith acc r after = ((d.numberCommit acc).modCmd acc (fun x => { x with phase := .committed, done := some r })).toRing c.port c.queue
      { bits := completionPkt (Pkt.tag c.pkt) c.queue r, cmd := some c.acc, after := after }) ∧
  (∀ (d : Dev) (acc : Nat) (c : Command) (r : Done) (after : List Nat),
    d.cmd acc = some c → c.phase = .committed → d.commitWith acc r after = d) ∧
  (∀ (s : State) (acc : Nat) (c : Command), s.dev.runningCmd acc = some c → s.dev.qe.dead = false → c.queue ≠ 0 → c.op = 0x01 →
    c.parts.all (fun p => p.st == .ready) = true → c.parts.any (fun p => s.dev.writeWaits c p.granule) = false →
    s.dev.isSealed = false → c.parts.find? (fun p => s.dev.partLost c p) = none →
    Gives (.commitPoint acc) s (s.dev.enterWrite c)) ∧
  (∀ (s : State) (acc : Nat) (c : Command) (f : Fetch), s.dev.runningCmd acc = some c → s.dev.qe.dead = false → c.queue ≠ 0 →
    c.op = 0x02 → c.parts.all (fun p => p.st == .ready) = true → c.failure = none → c.fetch = some f → f.issued = f.need →
    Gives (.commitPoint acc) s (s.dev.succeed c.acc 0 0).stir) ∧
  (∀ (s : State) (acc : Nat) (c : Command), s.dev.runningCmd acc = some c → s.dev.qe.dead = false → c.queue ≠ 0 → c.op = 0x05 →
    c.parts.all (fun p => p.st == .ready) = true → c.failure = none →
    Gives (.commitPoint acc) s (s.dev.succeed c.acc c.tier 0).stir) ∧
  (∀ (s : State) (acc : Nat) (c : Command), s.dev.runningCmd acc = some c → s.dev.qe.dead = false → c.queue ≠ 0 → c.op = 0x03 →
    s.dev.covered c = true → Gives (.commitPoint acc) s (s.dev.succeed c.acc c.padded c.closed).stir) ∧
  (∀ (s : State) (acc : Nat) (c : Command), s.dev.runningCmd acc = some c → s.dev.qe.dead = false → c.queue ≠ 0 →
    (c.op = 0x04 ∨ c.op = 0x06) → c.parts.any (fun p => c.isPartial p && !p.reserved) = false →
    c.parts.any (fun p => s.dev.writeWaits c p.granule) = false → s.dev.isSealed = false →
    Gives (.commitPoint acc) s (((s.dev.overtake c).each c.parts (fun e p => e.trimPart c p)).finishWriteClass c
      (c.parts.filter (fun p => !c.isPartial p)).length))

/-- A failure freezes its I/O queue (R81, R111 to R113): the queue becomes frozen, the port's error sequence advances by one, the Error Log ends
with an entry of that sequence that names queue, status, tag and acceptance number, and holds 256 entries at most. Queue 0 keeps its state. -/
def Obligations.FreezeOnFailure : Prop :=
  (∀ (d : Dev) (p q : Nat) (u : Queue) (c : Command) (status : BitVec 16) (lba : Option Qword) (detail : Nat),
    p < 2 → 1 ≤ q → q < 512 → d.queue p q = some u → u.state = .active →
    (∃ v, (d.freezeWith p q (some c) status lba detail).queue p q = some v ∧ v.state = .frozen ∧
      v.newestErr = some (d.port p).errSeq ∧ v.sinceFreeze = 0) ∧
    ((d.freezeWith p q (some c) status lba detail).port p).errSeq = ((d.port p).errSeq + 1) % 2 ^ 32 ∧
    (∃ e, ((d.freezeWith p q (some c) status lba detail).port p).errLog.getLast? = some e ∧ e.errorSeq = (d.port p).errSeq ∧
      e.queue = q ∧ e.port = p ∧ e.status = status ∧ e.tag.toNat = Pkt.tag c.pkt ∧ e.acceptance = c.acc) ∧
    ((d.port p).errLog.length ≤ 256 → ((d.freezeWith p q (some c) status lba detail).port p).errLog.length ≤ 256)) ∧
  (∀ (d : Dev) (p : Nat) (u : Queue) (c : Option Command) (status : BitVec 16) (lba : Option Qword) (detail : Nat),
    p < 2 → d.queue p 0 = some u → ∃ v, (d.freezeWith p 0 c status lba detail).queue p 0 = some v ∧ v.state = u.state)

/-- Write data (R24, R64, R66, R67, R70, R77, R279, R330, R335): BUFFER_RESERVATION gives the next part its buffer granule and its grant; SLOT_WRITE
stores its lines at their place in a live grant; DATA_TIMEOUT fails the command of a grant whose timer has expired; a quarantine that has
lasted its time is over, the others go on, and nothing else changes. -/
def Obligations.WriteDataCompletes : Prop :=
  (∀ (s : State) (acc : Nat) (c : Command) (p : Part), s.dev.runningCmd acc = some c → c.op = 0x01 → c.nextPart = some p →
    s.dev.writeWaits c p.granule = false → s.dev.spaceFree = true → (c.parts.any (fun q => q.reserved) = true ∨ 0 < s.dev.spareLeft) →
    s.dev.grantFree c = true → Gives (.bufferReservation acc) s (s.dev.takeSpace.issueGrant c p)) ∧
  (∀ (s : State) (acc : Nat) (c : Command) (p : Part), s.dev.runningCmd acc = some c → (c.op = 0x04 ∨ c.op = 0x06) →
    c.nextPart = some p → s.dev.writeWaits c p.granule = false → s.dev.spaceFree = true →
    Gives (.bufferReservation acc) s (s.dev.takeSpace.modCmd c.acc (fun x => { x with parts := x.parts.map (fun q =>
      if q.granule = p.granule then { q with reserved := true } else q) }))) ∧
  (∀ d : Dev, d.takeSpace.bm.used = d.bm.used + 1 ∧ d.takeSpace.qe = d.qe ∧ d.takeSpace.nand = d.nand) ∧
  (∀ (s : State) (p off len : Nat) (lines : List Line) (g : Grant),
    s.dev.takesMemory p = true → s.dev.grantAt p 2 off len = some g → off % 64 = 0 → len % 64 = 0 →
    Gives (.slotWrite p 2 off len true false lines) s
      (s.dev.arrive p g.gid ((off - g.slot * 65536) / 4) (lineWords (lines.take (len / 64))))) ∧
  (∀ (s : State) (p gid t : Nat) (g : Grant), s.dev.isDead = false →
    s.dev.qe.grants.find? (fun g => g.port == p && g.gid == gid && !g.complete) = some g → g.timer = some t →
    s.dev.expired t (msTicks g.limitMs) = true →
    Gives (.dataTimeout p gid) s (s.dev.failWith g.acc { status := St.dataTimeout } gid).stir) ∧
  (∀ (s : State) (p bar slot : Nat), GivesSome (.slotQuarantineExpiry p bar slot) s (fun e =>
    e = { s.dev with qe := { s.dev.qe with slotQ := e.qe.slotQ } } ∧ ∀ q, q ∈ e.qe.slotQ ↔ q ∈ s.dev.qe.slotQ ∧
      ¬(q.port = p ∧ q.bar = bar ∧ q.slot = slot ∧ s.dev.expired q.start (msTicks 100) = true))) ∧
  (∀ (s : State) (p tag : Nat), GivesSome (.tagQuarantineExpiry p tag) s (fun e =>
    e = { s.dev with qe := { s.dev.qe with tagQ := e.qe.tagQ } } ∧ ∀ q, q ∈ e.qe.tagQ ↔ q ∈ s.dev.qe.tagQ ∧
      ¬(q.port = p ∧ q.tag = tag ∧ s.dev.expired q.start q.limitUs = true)))

/-- A BAR2 write that lies outside every live grant, that fails to start or end on a 64-byte boundary, or that has a byte enable
clear is dropped and counted in HP_BAR_DROPS.slot, and nothing else changes (R68). -/
def Obligations.DroppedSlotWritesAreCounted : Prop :=
  ∀ (s : State) (p off len : Nat) (be : Bool) (lines : List Line), s.dev.takesMemory p = true →
    (s.dev.grantAt p 2 off len = none ∨ off % 64 ≠ 0 ∨ len % 64 ≠ 0 ∨ be = false) →
    Gives (.slotWrite p 2 off len be false lines) s (s.dev.addSat (hpReg p Reg.HP_BAR_DROPS.slot) 1)

/-- Read requests (R71, R72, R325, R326, R329 to R331, R335): a request that waits to be issued again goes first, under a free tag, else the next one
of the transfer; none crosses a 4 KiB boundary or exceeds Max_Read_Request_Size; a completion is placed, or dropped and recorded as late or
unexpected; an expired request is counted, recorded, its tag quarantined, and it is issued again or its command fails. -/
def Obligations.ReadRequestsComplete : Prop :=
  (∀ (s : State) (acc : Nat) (c : Command) (r : Request), s.dev.runningCmd acc = some c → s.dev.mayIssue c.port = true →
    s.dev.reissueOne acc = some r → (s.dev.freeTags r.port).isEmpty = false →
    Gives (.pullReadRequest acc) s ((s.dev.modQe (fun e => { e with reissue := e.reissue.erase r })).issueRequest r)) ∧
  (∀ (s : State) (acc : Nat) (c : Command) (f : Fetch), s.dev.runningCmd acc = some c → s.dev.mayIssue c.port = true →
    s.dev.reissueOne acc = none → c.fetch = some f → Gives (.pullReadRequest acc) s (s.dev.pull c f)) ∧
  (∀ addr left mrrs : Nat, requestLen addr left mrrs ≤ left ∧ requestLen addr left mrrs ≤ mrrs ∧
    (0 < requestLen addr left mrrs → addr / 4096 = (addr + requestLen addr left mrrs - 1) / 4096)) ∧
  (∀ (s : State) (p tag : Nat) (st : CplStatus) (poisoned malformed : Bool) (data : List Dword) (r : Request),
    s.dev.qe.reqs.find? (fun r => r.port == p && r.tag == tag) = some r →
    Gives (.completionTlp p tag st poisoned malformed data) s (s.dev.matched r st poisoned malformed data)) ∧
  (∀ (s : State) (p tag : Nat) (st : CplStatus) (poisoned malformed : Bool) (data : List Dword) (q : TagQuarantine),
    s.dev.qe.reqs.find? (fun r => r.port == p && r.tag == tag) = none →
    s.dev.qe.tagQ.find? (fun q => q.port == p && q.tag == tag) = some q →
    Gives (.completionTlp p tag st poisoned malformed data) s (if q.flr
      then (s.dev.addSat (hpReg p Reg.HP_CPL_EVENTS.unexpected) 1).event 0x0302 (Src.port p) p tag 0
      else (s.dev.addSat (hpReg p Reg.HP_CPL_EVENTS.late) 1).event 0x0301 (Src.port p) p tag 0)) ∧
  (∀ (s : State) (p tag : Nat) (st : CplStatus) (poisoned malformed : Bool) (data : List Dword),
    s.dev.qe.reqs.find? (fun r => r.port == p && r.tag == tag) = none →
    s.dev.qe.tagQ.find? (fun q => q.port == p && q.tag == tag) = none →
    Gives (.completionTlp p tag st poisoned malformed data) s (s.dev.aerError p .unexpectedCompletion)) ∧
  (∀ (s : State) (p tag : Nat) (r : Request), s.dev.qe.reqs.find? (fun r => r.port == p && r.tag == tag) = some r →
    (s.dev.port p).ctoDisable = false → s.dev.expired r.start (ctoMicros (s.dev.port p).ctoValue) = true →
    Gives (.completionTimeout p tag) s
      (((s.dev.addSat (hpReg p Reg.HP_CTO.expiries) 1).aerError p .completionTimeout).requestTimeout r))

/-- RING_PACKET_POST and COALESCE_TIMEOUT (R58 to R60, R62, R63, R85, R341): while fewer than N packets of the ring are unread, the next packet is written
at the ring's posted count modulo N, and the command it completes is no longer outstanding; a packet that finds no room waits; a peer reply
is written into its source's notice window; the phase bit is 1 on the first pass and inverts on each later one; a vector is signalled when its
oldest packet has waited for the coalescing time, and not before. -/
def Obligations.RingPostsComplete : Prop :=
  (∀ (s : State) (p q : Nat) (u : Queue) (r : RingPkt), s.dev.mayIssue p = true → s.dev.queue p q = some u →
    s.dev.nextPacket u = some r → r.dest = none → u.room = true →
    GivesSome (.ringPacketPost p q) s (fun e => e = s.dev.postHost p q u r ∧ (∀ a, r.cmd = some a → e.cmd a = none) ∧
      ∃ rest, e.out = s.dev.out ++ .memWrite p (u.base + BitVec.ofNat 64 (u.posted % u.ring * 32)) 32
        ((s.dev.finalBits p q u r).setWidth 4096) false (s.dev.port p).idoEnable (.ring q) :: rest)) ∧
  (∀ (s : State) (p q : Nat) (u : Queue) (r : RingPkt) (a : Qword), s.dev.mayIssue p = true → s.dev.queue p q = some u →
    s.dev.nextPacket u = some r → r.dest = some a →
    GivesSome (.ringPacketPost p q) s (fun e => e = s.dev.postPeer p r a ∧ (∀ a, r.cmd = some a → e.cmd a = none))) ∧
  (∀ (s : State) (p q : Nat) (u : Queue) (r : RingPkt), s.dev.mayIssue p = true → s.dev.queue p q = some u →
    s.dev.nextPacket u = some r → r.dest = none → u.room = false → Gives (.ringPacketPost p q) s s.dev) ∧
  (∀ (d : Dev) (p q : Nat) (u : Queue) (r : RingPkt), 0 < u.ring → fld r.bits 255 1 = 0 →
    fld (d.finalBits p q u r) 255 1 = if u.posted / u.ring % 2 = 0 then 1 else 0) ∧
  (∀ (s : State) (p q : Nat) (u : Queue), s.dev.queue p q = some u →
    (0 < u.unsignalled → s.dev.expired u.oldest (s.dev.irqTime p q u) = true →
      Gives (.coalesceTimeout p q) s ((s.dev.modQueue p q (fun v => { v with unsignalled := 0 })).signal p u.vector)) ∧
    ((u.unsignalled = 0 ∨ s.dev.expired u.oldest (s.dev.irqTime p q u) = false) → Gives (.coalesceTimeout p q) s s.dev))

/-- MSI-X (R313, R336): a signalled vector is sent while nothing withholds it; while the vector or the function is masked, or the port
may not issue, it waits in the PBA, and it goes when MSIX_UNMASK clears its mask. -/
def Obligations.MsixHeldAndSent : Prop :=
  (∀ (d : Dev) (p v : Nat), (d.port p).msixEnable = true → (d.port p).msixFnMask = false → ((d.port p).vector v).masked = false →
    d.mayIssue p = true → d.signal p v = d.emit (.msix p v)) ∧
  (∀ (d : Dev) (p v : Nat), (d.port p).msixEnable = true →
    ((d.port p).msixFnMask = true ∨ ((d.port p).vector v).masked = true ∨ d.mayIssue p = false) →
    d.signal p v = d.modPort p (fun q => { q with msixPending := q.msixPending ||| BitVec.ofNat 513 (2 ^ v) })) ∧
  (∀ (s : State) (p v : Nat), s.dev.takesMemory p = true → v < 513 →
    Gives (.msixUnmask p v) s ((s.dev.modPort p (fun q => { q with msixTable := q.msixTable.put v { q.vector v with masked := false } })).resend p v)) ∧
  (∀ (d : Dev) (p v : Nat), (d.port p).msixPending.getLsbD v = true → (d.port p).msixEnable = true → (d.port p).msixFnMask = false →
    ((d.port p).vector v).masked = false → d.mayIssue p = true → (d.resend p v).out = d.out ++ [.msix p v])

/-! ### Peer copy (04, 10) -/

/-- The peer commands (R138 to R140, R339 to R341): a well-formed request becomes a push-mode Write on the peer queue or is refused; a
target's Transfer-Ready grants the slot; its completion ends the granule; a wait that has lasted the data timeout fails the copy. -/
def Obligations.PeerCommandsComplete : Prop :=
  (∀ (s : State) (p w off : Nat) (pkt : Packet), s.dev.takesMemory p = true → s.dev.image.bar4 = true → w < 512 → off % 64 = 0 →
    (s.dev.queue p peerQ).isSome = true → (s.dev.port p).state ≠ .booting → (s.dev.port p).state ≠ .deadbolt → s.dev.qe.dead = false →
    s.dev.qe.haspDrop = false → peerBad pkt w = false → s.dev.peerHeld p w < 64 →
    Gives (.peerWriteRequest p w off 64 true pkt) s (s.dev.peerAccept p pkt)) ∧
  (∀ (s : State) (p w : Nat) (pkt : Rec256) (c : Command) (r : BitVec 16) (t : Nat), s.dev.takesMemory p = true →
    s.dev.image.bar4 = true → w < 512 → ringType pkt = 2 → s.dev.requestOwner p w (fld pkt 16 16) = some c → c.peerStep = .waitReady r t →
    Gives (.peerTransferReady p w pkt) s
      ((s.dev.modCmd c.acc (fun x => { x with peerStep := .granted r (fld pkt 64 20) (fld pkt 96 16) })).peerPush c.acc)) ∧
  (∀ (s : State) (p w : Nat) (pkt : Rec256) (c : Command), s.dev.takesMemory p = true → s.dev.image.bar4 = true → w < 512 →
    ringType pkt = 1 → s.dev.requestOwner p w (fld pkt 16 16) = some c → fld pkt 32 16 = 0 → c.parts.length ≤ c.peerCount + 1 →
    Gives (.peerCompletion p w pkt) s (((s.dev.modCmd c.acc (fun x => { x with
      peerCount := c.peerCount + 1
      peerStep := .idle })).succeed c.acc (c.peerCount + 1) 0).stir)) ∧
  (∀ (s : State) (acc t : Nat) (c : Command), s.dev.runningCmd acc = some c → c.op = 0x08 → c.peerWait = some t →
    s.dev.expired t (msTicks (s.dev.get (qeReg c.port Reg.QE_DATA_TIMEOUT.timeout_ms))) = true →
    Gives (.peerWaitTimeout acc) s (s.dev.failWith c.acc { status := St.peerWriteFailed, result := BitVec.ofNat 64 c.peerCount } 0).stir)

/-! ### Admin commands (04) -/

/-- Identify and Get Log write a snapshot of their page, taken now; a Firmware Download piece begins to read its bytes (R142, R143, R148). A legal
value is written to the feature of the command's own port, Get Feature reports it, and it reads back as it was set (R144). -/
def Obligations.PagesAndFeaturesComplete : Prop :=
  (∀ (s : State) (acc : Nat) (c : Command), s.dev.startedOp acc 0x80 = some c →
    Gives (.identify acc) s ((s.dev.modCmd c.acc (fun x => { x with
      phase := .running
      fetch := some { fetchOf x.pkt 4096 with buf := pageWords (s.dev.identifyPage c) 0 4096 }
      waitOn := 0 })).writeData c.acc)) ∧
  (∀ (s : State) (acc : Nat) (c : Command) (page total : Nat), s.dev.startedOp acc 0x81 = some c →
    s.dev.logPage c.port (Pkt.cdwA c.pkt % 256) = some (page, total) → Pkt.cdwB c.pkt 36 64 % 4 = 0 → Pkt.cdwB c.pkt 44 32 % 4 = 0 →
    4 ≤ Pkt.cdwB c.pkt 44 32 → Pkt.cdwB c.pkt 44 32 ≤ 4194304 → Pkt.cdwB c.pkt 36 64 + Pkt.cdwB c.pkt 44 32 ≤ total →
    Gives (.getLog acc) s (s.dev.beginOut c page (Pkt.cdwB c.pkt 36 64) (Pkt.cdwB c.pkt 44 32) total)) ∧
  (∀ (s : State) (acc : Nat) (c : Command), s.dev.startedOp acc 0x88 = some c → Pkt.cdwA c.pkt % 2 = 0 →
    Gives (.firmwareDownloadPiece acc) s (s.dev.modCmd acc (fun x => { x with
      phase := .running
      fetch := some (fetchOf x.pkt (Pkt.nlb x.pkt * 4096)) }))) ∧
  (∀ (s : State) (acc : Nat) (c : Command), s.dev.startedOp acc 0x82 = some c → c.feature ≠ 6 →
    featureOk c.feature (Pkt.cdwB c.pkt 36 32) = some true →
    Gives (.setFeature acc) s ((s.dev.writeFeature c.port c.feature (Pkt.cdwB c.pkt 36 32)).succeed acc 0 0)) ∧
  (∀ (s : State) (acc v : Nat) (c : Command), s.dev.startedOp acc 0x83 = some c → s.dev.readFeature c.port c.feature = some v →
    Gives (.getFeature acc) s (s.dev.succeed acc v 0)) ∧
  (∀ (d : Dev) (p id v : Nat), p < 2 → v < 2 ^ 32 → id ≠ 6 → featureOk id v = some true → (d.writeFeature p id v).readFeature p id = some v)

/-- A Set Feature that would leave hard_age_ms at or below promotion_ms, or place either field outside its range, fails with Invalid
Field and changes neither field (R100): the state is that of the failure alone. -/
def Obligations.AgeLimitsAreGuarded : Prop :=
  ∀ (s : State) (acc : Nat) (c : Command), s.dev.startedOp acc 0x82 = some c → c.feature = 2 →
    (bitsOf (Pkt.cdwB c.pkt 36 32) 16 16 ≤ bitsOf (Pkt.cdwB c.pkt 36 32) 0 16 ∨ bitsOf (Pkt.cdwB c.pkt 36 32) 0 16 < 10 ∨
      10000 < bitsOf (Pkt.cdwB c.pkt 36 32) 0 16 ∨ bitsOf (Pkt.cdwB c.pkt 36 32) 16 16 < 1000 ∨
      60000 < bitsOf (Pkt.cdwB c.pkt 36 32) 16 16) →
    GivesSome (.setFeature acc) s (fun e => e = s.dev.failWith acc { status := St.invalidField } 0 ∧
      (∀ p, e.get (qeReg p Reg.QE_AGE_CFG.promotion_ms) = s.dev.get (qeReg p Reg.QE_AGE_CFG.promotion_ms) ∧
        e.get (qeReg p Reg.QE_AGE_CFG.hard_age_ms) = s.dev.get (qeReg p Reg.QE_AGE_CFG.hard_age_ms)))

/-- Queue commands (R116, R117, R120, R121, R145 to R147): Queue Create makes the queue its packet describes; Queue Delete ends what the
queue holds and lets it go; Queue Restart unfreezes it, keeping what its FIFO held as it started, or ends that as Discarded; Abort ends
its target, stops a Refresh at work, and answers Already Completed behind the completion of one whose outcome is fixed. -/
def Obligations.QueueCommandsComplete : Prop :=
  (∀ (s : State) (acc : Nat) (c : Command) (u : Queue), s.dev.startedOp acc 0x84 = some c → c.named ≠ 0 →
    s.dev.queue c.port c.named = none → queueOf c.pkt = some u →
    Gives (.queueCreate acc) s ((s.dev.modQe (fun e => { e with queues := e.queues.put (qkey c.port c.named) u })).succeed acc 0 0)) ∧
  (∀ (s : State) (acc : Nat) (c : Command) (u : Queue), s.dev.startedOp acc 0x85 = some c → s.dev.targetQueue c = some u →
    Gives (.queueDelete acc) s
      (((((s.dev.modCmd acc (fun x => { x with phase := .running })).modQueue c.port c.named (fun v => { v with
          state := .deleting
          deleter := some acc })).each
        ((((s.dev.modCmd acc (fun x => { x with phase := .running })).modQueue c.port c.named (fun v => { v with
          state := .deleting
          deleter := some acc })).cmdsOf c.port c.named).map (fun x => x.acc)) (fun e a => e.endCmd a St.queueDeleted)).settleDelete c.port c.named).zeroDeficits.stir)) ∧
  (∀ (s : State) (acc : Nat) (c : Command), s.dev.startedOp acc 0x86 = some c → (Pkt.cdwA c.pkt).testBit 16 = false →
    s.dev.restartStatus c = none →
    Gives (.queueRestartResume acc) s ((((s.dev.unfreeze c.port c.named).each (s.dev.restarted c)
      (fun e a => e.reorder a)).succeed acc (s.dev.restarted c).length 0).stir)) ∧
  (∀ (d : Dev) (c : Command) (a : Nat), a ∈ d.restarted c ↔ ∃ x ∈ d.fifo c.port c.named, x.acc = a ∧ a < c.seen) ∧
  (∀ (s : State) (acc : Nat) (c : Command), s.dev.startedOp acc 0x86 = some c → (Pkt.cdwA c.pkt).testBit 16 = true →
    s.dev.restartStatus c = none →
    Gives (.queueRestartDiscard acc) s ((((((s.dev.each (s.dev.restarted c) (fun e a => e.endCmd a St.discarded)).modCmd c.acc
      (fun x => { x with discards := some (s.dev.restarted c) })).commitWith c.acc
        { status := St.success, result := BitVec.ofNat 64 (s.dev.restarted c).length } (s.dev.restarted c)).settleRestarts c.port)).stir)) ∧
  (∀ (s : State) (acc : Nat) (c t : Command), s.dev.startedOp acc 0x87 = some c →
    s.dev.abortTarget c.port c.named (Pkt.cdwA c.pkt / 65536) = some t → t.settled = false →
      t.op ≠ 0x09 →
    Gives (.abort acc) s (((s.dev.endCmd t.acc St.aborted).commitWith acc
      { status := St.success, result := if t.phase == .held then 1 else 0 } [t.acc]).stir)) ∧
  (∀ (s : State) (acc : Nat) (c t : Command), s.dev.startedOp acc 0x87 = some c →
    s.dev.abortTarget c.port c.named (Pkt.cdwA c.pkt / 65536) = some t → t.settled = true →
    Gives (.abort acc) s ((s.dev.commitWith acc { status := St.alreadyCompleted } [t.acc]).stir)) ∧
  (∀ (s : State) (acc : Nat) (c t : Command), s.dev.startedOp acc 0x87 = some c →
    s.dev.abortTarget c.port c.named (Pkt.cdwA c.pkt / 65536) = some t → t.settled = false → t.op = 0x09 → t.phase = .running → t.done = none →
    Gives (.abort acc) s ((((s.dev.stopRefresh t.acc).endPasses).commitWith acc { status := St.success } [t.acc]).stir))

/-- Stop, Event Log Clear, Set Wall Time, Seal and the domain commands (R150, R152, R156 to R158): Stop begins Prepare; a clear is asked
of the recorder; the wall time is in force from now; Seal waits until what is completed is durable; the domain is set. -/
def Obligations.ControlCommandsComplete : Prop :=
  (∀ (s : State) (acc : Nat) (c : Command), s.dev.mayPrepare = true → s.dev.startedOp acc 0x8a = some c →
    Gives (.stop acc) s ((s.dev.modCmd acc (fun x => { x with phase := .running })).beginPrepare (some acc))) ∧
  (∀ (s : State) (acc : Nat) (c : Command), s.dev.startedOp acc 0x8b = some c →
    Gives (.eventLogClear acc) s ((s.dev.modCmd acc (fun x => { x with phase := .running })).modEv
      (fun e => { e with asked := e.asked ++ [(c.port, some acc)] }))) ∧
  (∀ (s : State) (acc : Nat) (c : Command), s.dev.startedOp acc 0x8e = some c → Pkt.cdwB c.pkt 36 64 ≠ 0 →
    Gives (.setWallTime acc) s ((s.dev.modHost (fun h => { h with
      wall := some (Pkt.cdwB c.pkt 36 64, s.dev.now)
      wallAcc := acc })).modCmd acc (fun x => { x with phase := .running }))) ∧
  (∀ (s : State) (acc : Nat) (c : Command), s.dev.startedOp acc 0x8f = some c → Pkt.cdwA c.pkt = 0x5ea1 → s.dev.isSealed = false →
    Gives (.seal acc) s ((s.dev.modCmd acc (fun x => { x with
      phase := .running
      cover := s.dev.undurableIn 0 })).stir)) ∧
  (∀ (s : State) (acc : Nat) (c : Command), s.dev.startedOp acc 0x90 = some c → Pkt.cdwA c.pkt % 2 = 0 → s.dev.peerWork = false →
    Gives (.domainJoin acc) s ((s.dev.modHost (fun h => { h with
      domain := some (BitVec.ofNat 64 (Pkt.cdwB c.pkt 36 64), Pkt.cdwB c.pkt 44 16) })).succeed acc 0 0)) ∧
  (∀ (s : State) (acc : Nat) (c : Command), s.dev.startedOp acc 0x90 = some c → Pkt.cdwA c.pkt % 2 = 1 → s.dev.peerWork = false →
    Gives (.domainLeave acc) s ((s.dev.modHost (fun h => { h with domain := none })).succeed acc 0 0))

/-! ### Namespaces, keys and firmware (04, 16) -/

/-- Namespace Manage and Key Manage (R153 to R155, R187, R454, R457 to R460): a namespace is made under a drawn or a wrapped key, or all of it goes,
and the command waits for the checkpoint that records it; Generate and Wrap In give their namespace a new key once its writes are durable;
the enrolments and the revocation act on the key record where their blob is right. CX's slots (R257, R258): a load puts the key of
CX_KEY_DATA into the slot, a clear empties it, a command for a busy slot waits; a load with equal halves is refused. -/
def Obligations.NamespaceAndKeyCommandsComplete : Prop :=
  (∀ (s : State) (acc ns : Nat) (blob : BitVec 1536) (c : Command), s.dev.serialCmd acc 0x8c (fun a => a % 4 = 0) = some c →
    ((List.range 16).map (fun i => i + 1)).find? (fun n => !s.dev.mp.ns.has n) = some ns →
    Pkt.cdwB c.pkt 36 64 ≤ s.dev.freeBlocks → s.dev.nsBusy acc ns = false →
    ((Pkt.cdwA c.pkt).testBit 8 = false →
      Gives (.namespaceCreate acc blob) s ((s.dev.drawKey 63).2.makeNs acc ns (Pkt.cdwB c.pkt 36 64) 0 (s.dev.drawKey 63).1)) ∧
    ((Pkt.cdwA c.pkt).testBit 8 = true →
      Gives (.namespaceCreate acc blob) s (match unwrapBlob 0 blob with
        | some k => s.dev.makeNs acc ns (Pkt.cdwB c.pkt 36 64) 1 k
        | none => s.dev.fail acc St.authenticationFailed))) ∧
  (∀ (s : State) (acc : Nat) (c : Command), s.dev.serialCmd acc 0x8c (fun a => a % 4 = 1) = some c →
    s.dev.nsBusy acc (Pkt.nsid c.pkt) = false → s.dev.cxBusy (Pkt.nsid c.pkt) = false →
    Gives (.namespaceDelete acc) s (((s.dev.deleteNs (Pkt.nsid c.pkt)).awaitCkpt acc 0).stir)) ∧
  (∀ (s : State) (acc : Nat) (c : Command), s.dev.serialCmd acc 0x8d (fun a => a % 16 = 0) = some c →
    s.dev.nsNamed acc (Pkt.nsid c.pkt) = false → Gives (.generate acc) s ((s.dev.drawKey 63).2.beginRekey c (s.dev.drawKey 63).1)) ∧
  (∀ (s : State) (acc : Nat) (blob : BitVec 1536) (c : Command),
    s.dev.serialCmd acc 0x8d (fun a => a % 16 = 1) = some c → s.dev.nsNamed acc (Pkt.nsid c.pkt) = false →
    Gives (.wrapIn acc blob) s (match unwrapBlob (Pkt.nsid c.pkt) blob with
      | some k => s.dev.beginRekey c k
      | none => s.dev.keyFail c St.authenticationFailed)) ∧
  (∀ (s : State) (acc : Nat) (blob : BitVec 2560) (c : Command), s.dev.serialCmd acc 0x8d (fun a => a % 16 = 2) = some c →
    Gives (.enrolOperatorKey acc blob) s
      (s.dev.blobCommand c c.opSlot blob (fun r => { r with ops := r.ops.set c.opSlot ⟨1, Blob.newKey blob⟩ }))) ∧
  (∀ (s : State) (acc : Nat) (blob : BitVec 2560) (c : Command), s.dev.serialCmd acc 0x8d (fun a => a % 16 = 3) = some c →
    Gives (.revokeOperatorKey acc blob) s (if blobOk s.dev.keyRec s.dev.activeSigner 3 c.opSlot blob
      then ((s.dev.writeKeys { s.dev.keyRec with
        ops := s.dev.keyRec.ops.set c.opSlot ⟨2, 0⟩
        seq := Blob.seq blob }).keyDone c).emptySigned c.opSlot
      else s.dev.keyFail c St.authenticationFailed)) ∧
  (∀ (s : State) (acc : Nat) (blob : BitVec 2560) (c : Command), s.dev.serialCmd acc 0x8d (fun a => a % 16 = 4) = some c →
    Gives (.enrolMaintenanceKey acc blob) s (s.dev.blobCommand c 0 blob (fun r => { r with mnt := ⟨1, Blob.newKey blob⟩ }))) ∧
  (∀ (s : State) (slot : Nat), s.dev.cxOpen = true → slot < 16 → s.dev.cxBusy (slot + 1) = false →
    Gives (.cxKeyLoad slot) s (((s.dev.put Reg.CX_KEY_CMD.action 0).put Reg.CX_KEY_CMD.slot slot).keyCommand true slot) ∧
    Gives (.cxKeyClear slot) s (((s.dev.put Reg.CX_KEY_CMD.action 1).put Reg.CX_KEY_CMD.slot slot).keyCommand false slot)) ∧
  (∀ (s : State) (slot : Nat) (w : Bool), s.dev.cxOpen = true → s.dev.cxBusy (slot + 1) = false →
    s.dev.cx.waiting.find? (fun x => x.2 = slot) = some (w, slot) →
    Gives (.keyBusyCleared slot) s ({ s.dev with cx := { s.dev.cx with waiting := s.dev.cx.waiting.filter (fun x => x.2 != slot) } }.keyCommand w slot)) ∧
  (∀ (d : Dev) (slot : Nat) (k : BitVec 512), (d.setKey slot (some k)).cx.slots.find slot = some k ∧
    (d.setKey slot none).cx.slots.find slot = none ∧
    (∀ j, j ≠ slot → (d.setKey slot (some k)).cx.slots.find j = d.cx.slots.find j ∧
      (d.setKey slot none).cx.slots.find j = d.cx.slots.find j)) ∧
  (∀ (d : Dev) (slot : Nat) (k : BitVec 512), halvesEqual k = true →
    d.loadKey slot k = (d.contained Src.keySlots Kind.keyLoadRefused slot 0 0).raise (Irq.cx 2))

/-- Firmware (R148, R149, R123, R362, R378, R461): a commit writes a good image to the idle slot of its kind and empties the download
buffer; activating a Warden slot marks it for the next wake; activating a Bolt slot holds the queues and sends Prepare. -/
def Obligations.FirmwareCommandsComplete : Prop :=
  (∀ (s : State) (acc kind : Nat) (ok : Bool) (c : Command) (r : BitVec 16 × Dev) (e : Dev),
    s.dev.serialCmd acc 0x88 (fun a => a % 2 = 1) = some c → kind = 1 - bitsOf (Pkt.cdwA c.pkt) 1 1 →
    r = s.dev.commitImage kind (Pkt.cdwB c.pkt 36 32) s.dev.host.download ok →
    e = r.2.modHost (fun h => { h with download := [] }) →
    Gives (.firmwareDownloadCommit acc ok) s (if r.1 = St.success then e.succeed acc (s.dev.idleSlot kind) 0 else e.fail acc r.1)) ∧
  (∀ (s : State) (acc : Nat) (c : Command), s.dev.serialCmd acc 0x89 (fun a => a % 2 = 1) = some c →
    slotState s.dev.slots (slotNo 0 c.fwSlot) = 1 →
    Gives (.firmwareActivateWarden acc) s ((((s.dev.writeSlots (slotBoltActive s.dev.slots) c.fwSlot
      ((List.range 4).map (fun i => slotState s.dev.slots i)) ((List.range 4).map (fun i => slotSigner s.dev.slots i))
      ((List.range 4).map (fun i => slotRevision s.dev.slots i))).flag Reg.WD_STATUS.next_marked (c.fwSlot != (s.dev.writeSlots
        (slotBoltActive s.dev.slots) c.fwSlot ((List.range 4).map (fun i => slotState s.dev.slots i))
        ((List.range 4).map (fun i => slotSigner s.dev.slots i)) ((List.range 4).map (fun i => slotRevision s.dev.slots i))).wardenSlot)).event
      0x0c02 Src.wardenFw c.fwSlot 0 0).succeed acc 0 0)) ∧
  (∀ (s : State) (acc : Nat) (c : Command), s.dev.serialCmd acc 0x89 (fun a => a % 2 = 0) = some c →
    slotState s.dev.slots (slotNo 1 c.fwSlot) = 1 → s.dev.pw.hasp = none → s.dev.cores.act = none →
    GivesSome (.firmwareActivateBolt acc) s (fun e => e.qe.hold = some s.dev.now ∧ e.nand = s.dev.nand ∧ e.cf = s.dev.cf ∧
      e.cores.toSend = s.dev.cores.toSend ++ [(1, 2)] ∧
      ∃ a, e.cores.act = some a ∧ a.acc = some acc ∧ a.slot = c.fwSlot ∧ a.step = .waitAnswer ∧ a.start = s.dev.now))

/-- The activation's messages and waits (R123, R353, R362): Warden sends what it owes, once; a refusal or silence ends the activation;
an answer goes on to the halt; after the wait the cores start from the slot; an image that reports the slot's revision is ready. -/
def Obligations.ActivationStepsComplete : Prop :=
  (∀ (s : State) (reason : Nat), s.dev.owes 1 reason = true → Gives (.prepare reason) s
    ((s.dev.modCores (fun k => { k with toSend := k.toSend.erase (1, reason) })).mailDown 1 reason)) ∧
  (∀ s : State, s.dev.owes 2 0 = true → Gives .mailboxRelease s
    ((s.dev.modCores (fun k => { k with toSend := k.toSend.erase (2, 0) })).mailDown 2 0)) ∧
  (∀ (s : State) (core : Nat) (refuse : Bool) (e : Dev) (a : Activation), s.dev.coreRuns core = true → s.dev.wardenRuns = true →
    e = s.dev.mailUp core 3 [(64, 8, if refuse then 1 else 0)] → e.cores.act = some a → a.step = .waitAnswer →
    Gives (.prepareAnswer core refuse) s (if refuse then e.activationRefused a else (e.setAct a .sendHalt).owe 4 0)) ∧
  (∀ (s : State) (a : Activation), s.dev.cores.act = some a → a.step = .waitAnswer → s.dev.wardenRuns = true →
    s.dev.expired a.start (msTicks 250) = true → Gives .activationPrepareTimeout s (s.dev.activationRefused a)) ∧
  (∀ (s : State) (a : Activation), s.dev.owes 4 0 = true → s.dev.cores.act = some a →
    GivesSome .haltNotice s (fun e => ∃ b, e.cores.act = some b ∧ (∃ t, b.step = .haltWait t) ∧ b.slot = a.slot ∧ b.acc = a.acc ∧
      e.cores.toSend = s.dev.cores.toSend.erase (4, 0))) ∧
  (∀ (s : State) (a : Activation) (t : Nat), s.dev.cores.act = some a → a.step = .haltWait t → s.dev.wardenRuns = true →
    s.dev.expired t (msTicks 1) = true → Gives .haltWaitExpiry s ((s.dev.launch a.slot).setAct a .waitReady)) ∧
  (∀ (s : State) (core : Nat) (rev : BitVec 64) (e f : Dev), s.dev.coreRuns core = true → s.dev.wardenRuns = true →
    e = s.dev.mailUp core 5 [(64, 64, rev.toNat)] → (e.slotImage 1 e.boltSlot).map (fun i => i.revision) = some rev.toNat →
    e.bit Reg.BC_CTRL.ready = false → f = (e.flag Reg.BC_CTRL.ready true).raise Irq.imageReady →
    (f.cores.act = none → Gives (.imageReady core rev) s f) ∧
    (∀ a, f.cores.act = some a → a.step = .waitReady → Gives (.imageReady core rev) s (f.imageReady a))) ∧
  (∀ (s : State) (a : Activation), s.dev.wardenRuns = true → s.dev.cores.act = some a → a.step = .waitReady → a.acc.isSome = true →
    s.dev.expired a.start (msTicks 1500) = true →
    Gives .imageReadyTimeout s (((s.dev.launch a.old).setAct a (.oldImage s.dev.now)).activateResult a St.activationFailed)) ∧
  (∀ (s : State) (t : Nat), s.dev.qe.hold = some t → s.dev.expired t (msTicks 2000) = true →
    Gives .activationHoldEnd s s.dev.endHold) ∧
  (∀ (s : State) (core : Nat) (code : Byte) (p0 p1 p2 : Dword), s.dev.coreRuns core = true → s.dev.wardenRuns = true →
    Gives (.eventRequest core code p0 p1 p2) s ((s.dev.mailUp core 6 [(64, 8, code.toNat), (96, 32, p0.toNat), (128, 32, p1.toNat),
      (160, 32, p2.toNat)]).record (0x0b00 + code.toNat) (Src.boltCore core) 0 true p0.toNat p1.toNat p2.toNat))

/-! ### The endpoint (01, 10) -/

/-- QE_AQ_CFG and REGISTER_WRITE (R15, R42, R47, R80, R83, R344): a write with enable set makes queue 0 where the port takes it and the depth fits; a
write that clears enable takes queue 0 away, unless it has an outstanding command, when the write is ignored; an aligned write by the host of a
port acts on the word of that port's registers, one by Warden on any word; HP1_ of a device with one port ignores writes. -/
def Obligations.RegisterWritesComplete : Prop :=
  (∀ (s : State) (p : Nat) (v : Dword), s.dev.takesMemory p = true → v.getLsbD 31 = true →
    s.dev.bit (qeReg p Reg.QE_AQ_CFG.enable) = false → Gives (.adminQueueEnable p v) s ((s.dev.writeAqCfg p v).enableAq p)) ∧
  (∀ (d : Dev) (p : Nat), (d.port p).state = .holding ∨ (d.port p).state = .running →
    depthOk (d.adminQueue p).depth (d.adminQueue p).ring = true →
    ∃ u, (d.enableAq p).queue p 0 = some u ∧ u.depth = (d.adminQueue p).depth ∧ u.ring = (d.adminQueue p).ring ∧ u.posted = 0 ∧
      u.released = 0 ∧ u.state = .active ∧ u.base = (d.adminQueue p).base) ∧
  (∀ (s : State) (p : Nat) (v : Dword), s.dev.takesMemory p = true → v.getLsbD 31 = false →
    s.dev.bit (qeReg p Reg.QE_AQ_CFG.enable) = true →
    (s.dev.cmdsOf p 0 ≠ [] → Gives (.adminQueueDisable p v) s s.dev) ∧
    (s.dev.cmdsOf p 0 = [] → GivesSome (.adminQueueDisable p v) s (fun e => e.queue p 0 = none ∧ e.nand = s.dev.nand ∧ e.pw = s.dev.pw))) ∧
  (∀ (s : State) (p a : Nat) (v : Qword), s.dev.takesMemory p = true → s.dev.region a = .registers → a % 4 = 0 →
    Gives (.registerWrite (.host p) a false v) s (s.dev.hostWord p a (BitVec.ofNat 32 v.toNat))) ∧
  (∀ (s : State) (a : Nat) (v : Qword), s.dev.wardenWrites = true → s.dev.region a = .registers → a % 4 = 0 →
    Gives (.registerWrite .warden a false v) s (s.dev.coreWord .warden a (BitVec.ofNat 32 v.toNat) true)) ∧
  (∀ (d : Dev) (a : Nat) (v : Dword), d.ports = 1 → a / 0x1000000 = 0x206 →
    d.coreWord .warden a v true = d.served .warden 0 ∧ d.regWord a = some 0)

/-- Fields (R11, R13): of a write that reaches a field, a legal value of an rw field takes effect, a reserved encoding leaves the field
as it was, and a 1 clears a w1c bit while a 0 leaves it. No field of another register changes. -/
def Obligations.FieldWrites : Prop :=
  ∀ (d : Dev) (base v : Nat) (f : FieldDef), 0 < f.width → f.lsb + f.width ≤ 32 →
    (f.kind = .rw → f.lo ≤ bitsOf v f.lsb f.width → bitsOf v f.lsb f.width ≤ f.hi →
      (d.writeField base v (2 ^ 32 - 1) f).get ⟨base, f.lsb, f.width⟩ = bitsOf v f.lsb f.width) ∧
    (f.kind = .rw → (bitsOf v f.lsb f.width < f.lo ∨ f.hi < bitsOf v f.lsb f.width) → d.writeField base v (2 ^ 32 - 1) f = d) ∧
    (f.kind = .w1c → bitsOf v f.lsb f.width = 1 → (d.writeField base v (2 ^ 32 - 1) f).get ⟨base, f.lsb, f.width⟩ = 0) ∧
    (f.kind = .w1c → bitsOf v f.lsb f.width = 0 → d.writeField base v (2 ^ 32 - 1) f = d) ∧
    (∀ g : Fld, g.addr ≠ base → (d.writeField base v (2 ^ 32 - 1) f).get g = d.get g)

/-- The endpoint (R309, R312, R314, R319, R332 to R336): a configuration request is answered, with Request Retry Status before the endpoint is
configured and during an FLR; an unsupported request is refused and recorded; Bus Master Enable cleared withdraws the commands that need the
bus, and set again lets what waited go; an FLR resets the function and ends; a link change is reported, L0s and L1 where the
port's ASPM control enables them; a write to no window is counted, or, with the windows off, an unsupported request; a poisoned write to a window that would take a
clean one is recorded under AER and dropped. -/
def Obligations.EndpointCommandsComplete : Prop :=
  (∀ (s : State) (p : Nat) (w : Bool) (r : CfgReg) (v : Qword), s.dev.endpointOn p = true → s.dev.cfgRetry p = true →
    Gives (.configurationRequest p w r v) s (s.dev.emit (.cfgReply p .retry 0))) ∧
  (∀ (s : State) (p : Nat) (r : CfgReg) (v : Qword), s.dev.endpointOn p = true → s.dev.cfgRetry p = false →
    Gives (.configurationRequest p false r v) s (s.dev.emit (.cfgReply p .successful (s.dev.cfgRead p r))) ∧
    (r = .busMasterEnable → Gives (.configurationRequest p true r v) s ((s.dev.setBus p (v.getLsbD 0)).emit (.cfgReply p .successful 0))) ∧
    (r ≠ .busMasterEnable → Gives (.configurationRequest p true r v) s ((((s.dev.modPort p (cfgWrite s.dev.image.bar2Log2 s.dev.image.bar4 r v)).noteCto p).resendAll p).emit
      (.cfgReply p .successful 0)))) ∧
  (∀ (s : State) (p : Nat), s.dev.endpointOn p = true →
    Gives (.unsupportedRequest p) s ((s.dev.aerError p .unsupportedRequest).emit (.requestReply p .unsupportedRequest))) ∧
  (∀ (s : State) (p : Nat) (e : Dev), s.dev.endpointOn p = true → s.dev.cfgRetry p = false → (s.dev.port p).bme = true →
    e = ((s.dev.modPort p (fun t => { t with bme := false })).addSat (hpReg p Reg.HP_WITHDRAWN.clears) 1).zeroDeficits.raise (Irq.hp p 2) →
    Gives (.busMasterEnableCleared p) s
      ((e.each (e.qe.cmds.filter (fun c => c.port == p && e.needsBus c)) (fun x c => x.withdraw c)).stir)) ∧
  (∀ (s : State) (p : Nat), s.dev.endpointOn p = true → s.dev.cfgRetry p = false → (s.dev.port p).bme = false →
    Gives (.busMasterEnableSet p) s (((s.dev.modPort p (fun t => { t with bme := true })).resendAll p).serveAll)) ∧
  (∀ (s : State) (p : Nat), s.dev.endpointOn p = true → s.dev.cfgRetry p = false → Gives (.flr p) s (s.dev.functionReset p)) ∧
  (∀ (s : State) (p : Nat), p < s.dev.ports → (s.dev.port p).flrStart.isSome = true →
    Gives (.flrComplete p) s (s.dev.modPort p (fun t => { t with flrStart := none }))) ∧
  (∀ (s : State) (p state speed width : Nat) (flit : Bool), s.dev.endpointOn p = true → p < 2 → speed ≤ 6 → width < 32 →
    (state ≤ 2 ∨ state = 3 ∧ (s.dev.port p).aspm % 2 = 1 ∧ flit = false ∨ state = 4 ∧ 2 ≤ (s.dev.port p).aspm) →
    GivesSome (.linkStateChange p state speed width flit) s (fun e => e.get (hpReg p Reg.HP_LINK.state) = state ∧
      e.get (hpReg p Reg.HP_LINK.speed) = speed ∧ e.get (hpReg p Reg.HP_LINK.width) = width ∧
      e.bit (hpReg p Reg.HP_LINK.flit) = flit ∧ e.qe = s.dev.qe ∧ e.nand = s.dev.nand)) ∧
  (∀ (s : State) (p bar off : Nat) (f : WriteForm), s.dev.memoryOff p = true →
    Gives (.unmappedBarWrite p bar off f) s (s.dev.aerError p .unsupportedRequest)) ∧
  (∀ (s : State) (p bar off len : Nat), s.dev.takesMemory p = true → s.dev.memoryOff p = false → s.dev.writeDropped p bar off len = true →
    Gives (.unmappedBarWrite p bar off ⟨len, false⟩) s (s.dev.addSat (hpReg p Reg.HP_BAR_DROPS.unmapped) 1)) ∧
  (∀ (s : State) (p bar off len : Nat), s.dev.takesMemory p = true → s.dev.memoryOff p = false → s.dev.writeDropped p bar off len = false →
    s.dev.poisonDropped p bar off len = true → Gives (.unmappedBarWrite p bar off ⟨len, true⟩) s (s.dev.aerError p .poisonedTlp))

/-- BAR_READ of a window the host may write but not read (R53, R315, R338): an ingress window and the slots read as zeros, and nothing
changes but what the port answers. With the windows off (Memory Space Enable 0, or D3hot) the read is an unsupported request. -/
def Obligations.IngressWindowsReadZero : Prop :=
  ∀ (s : State) (p bar off len q : Nat) (b : Bool), 0 < len → len ≤ 4096 →
    (s.dev.memoryOff p = true → Gives (.barRead p bar off len b) s ((s.dev.aerError p .unsupportedRequest).emit (.readReply p .unsupportedRequest []))) ∧
    (s.dev.takesMemory p = true → s.dev.memoryOff p = false → (s.dev.barWin p bar off = .ingress q ∨ s.dev.barWin p bar off = .slots) →
    Gives (.barRead p bar off len b) s (s.dev.emit (.readReply p .successful (List.replicate len 0))))

/-! ### Power and boot (09) -/

/-- Arrivals and the wake order (R286, R288, R289, R291, R490): a power-on, and WAKE_N held long enough in Stop, begin the wake order at its first step
with the cause latched and the straps sampled; what the flash parts hold stays. Each ready signal settles what is awaited; with PERST_N high
logic is released and the boot sequence begins; one that does not come is a sequencing fault, and the device enters Deadbolt. -/
def Obligations.WakeCommandsComplete : Prop :=
  (∀ (s : State) (straps : BitVec 8), straps.toNat / 16 = 0 → s.dev.mayPowerOn = true →
    Gives (.powerOn straps) s (s.dev.powerUp straps false)) ∧
  (∀ (s : State) (us : Nat), s.dev.pw.phase = .stopped → 10 ≤ us → Gives (.wakeN us) s (s.dev.powerUp s.dev.pw.straps true)) ∧
  (∀ (d : Dev) (straps : BitVec 8) (w : Bool), (d.powerUp straps w).pw.phase = .waking ∧ (d.powerUp straps w).pw.wakeStep = 1 ∧
    (d.powerUp straps w).pw.latchPower = !w ∧ (d.powerUp straps w).pw.latchWake = w ∧ (d.powerUp straps w).nand = d.nand ∧
    (d.powerUp straps w).cf.sectors = d.cf.sectors ∧ (d.powerUp straps w).qe = {} ∧ (d.powerUp straps w).cx = {} ∧
    (d.powerUp straps w).mem = {} ∧ (d.powerUp straps w).get ⟨Reg.PW_STRAPS.spare.addr, 0, 8⟩ = straps.toNat) ∧
  (∀ (s : State) (k : Nat), s.dev.wakeAt 1 = true → s.dev.nextSwitch = some k →
    GivesSome .pwrGood s (fun e => (e.powerDomain k).pwrGood = true ∧ e.nand = s.dev.nand ∧ e.regs = s.dev.regs ∧
      (e.nextSwitch = none → e.pw.wakeStep = 2) ∧ (e.nextSwitch ≠ none → e.pw.wakeStep = 1))) ∧
  (∀ s : State, s.dev.wakeAt 2 = true → GivesSome .clkReady s (fun e => e.pw.wakeStep = 3 ∧ e.pw.phase = .waking ∧ e.regs = s.dev.regs ∧
    ∀ k ∈ switchOrder, (e.powerDomain k).clkReady = true)) ∧
  (∀ s : State, s.dev.wakeAt 3 = true → s.dev.arraysReady = false → s.dev.pw.perstLow = true →
    GivesSome .memReady s (fun e => e.arraysReady = true ∧ e.pw.wakeStep = 3 ∧ e.pw.phase = .waking ∧ e.regs = s.dev.regs)) ∧
  (∀ s : State, s.dev.wakeAt 3 = true → s.dev.arraysReady = true → s.dev.pw.perstLow = true → s.dev.pw.pwrFailLow = false →
    GivesSome .perstNRelease s (fun e => e.pw.phase = .booting ∧ e.pw.bootStep = 1 ∧ e.pw.wakeStep = 4 ∧ e.pw.perstLow = false ∧
      e.nand = s.dev.nand)) ∧
  (∀ s : State, s.dev.awaits = true → GivesSome .sequencingFault s (fun e => e.pw.phase = .deadbolt ∧ e.pw.faultN = true))

/-- PERST_N, VDD_AON and PWR_FAIL_N (R290, R291, R305, R493, R495): PERST_N low for 100 microseconds in Run resets all logic but AON's, which keeps the
straps and the latch; in the other phases it does what the wake order and Deadbolt allow; a shorter pulse does that or nothing. VDD_AON lost
leaves only what the flash parts and the code flash hold. PWR_FAIL_N low for a microsecond, where PW acts on it, holds back every program
and erase that has not begun; a shorter pulse does that or nothing; its release starts 10 ms of high, after which they go. -/
def Obligations.PowerPinsComplete : Prop :=
  (∀ (s : State) (us : Nat), s.dev.pw.perstLow = false → 100 ≤ us → GivesSome (.perstNAssert us) s (fun e =>
    e = s.dev.perstAssert ∧ (s.dev.awake = true → e.pw.phase = .waking ∧ e.pw.perstLow = true ∧ e.pw.perstReset = true ∧
      e.pw.latchPower = s.dev.pw.latchPower ∧ e.pw.latchWake = s.dev.pw.latchWake ∧ e.pw.straps = s.dev.pw.straps ∧
      e.nand = s.dev.cut.nand ∧ e.cf = { sectors := s.dev.cut.cf.sectors } ∧ e.qe = {} ∧ e.cx = {} ∧ e.mem = {} ∧ e.bm = {} ∧ e.mp = {} ∧
      e.ms = {} ∧ e.cd = {} ∧ e.rc = {} ∧ e.cores = {} ∧ e.ft = {} ∧ e.mt = {}))) ∧
  (∀ (s : State) (us : Nat), s.dev.pw.perstLow = false → us < 100 →
    Gives (.perstNAssert us) s s.dev.draw.2.perstAssert ∨ Gives (.perstNAssert us) s s.dev.draw.2) ∧
  (∀ s : State, s.dev.pw.phase ≠ .unpowered → GivesSome .vddAonLoss s (fun e => e.pw.phase = .unpowered ∧ e.regs = [] ∧
    e.nand = s.dev.cut.nand ∧ e.cf = { sectors := s.dev.cut.cf.sectors } ∧ e.qe = {} ∧ e.cx = {} ∧ e.mem = {} ∧ e.bm = {} ∧ e.mp = {} ∧
    e.ms = {} ∧ e.cd = {} ∧ e.rc = {} ∧ e.cores = {} ∧ e.ft = {} ∧ e.mt = {} ∧ e.pw.straps = s.dev.pw.straps)) ∧
  (∀ (s : State) (ns : Nat), s.dev.pw.pwrFailLow = false → s.dev.pw.phase ≠ .unpowered → 1000 ≤ ns →
    (s.dev.pwrFailActs = true → Gives (.pwrFailNAssert ns) s (s.dev.modPw (fun w => { w with pwrFailLow := true })).pwrFail) ∧
    (s.dev.pwrFailActs = false → Gives (.pwrFailNAssert ns) s (s.dev.modPw (fun w => { w with pwrFailLow := true })))) ∧
  (∀ (s : State) (ns : Nat), s.dev.pw.pwrFailLow = false → s.dev.pw.phase ≠ .unpowered → s.dev.pwrFailActs = true → ns < 1000 →
    Gives (.pwrFailNAssert ns) s (s.dev.draw.2.modPw (fun w => { w with pwrFailLow := true })).pwrFail ∨
      Gives (.pwrFailNAssert ns) s s.dev.draw.2) ∧
  (∀ (d : Dev) (k : OpKind), d.bit Reg.PW_STATE.prog_hold = true → (k.isProgram = true ∨ k.isErase = true) → d.mayStart k = false) ∧
  (∀ d : Dev, d.pw.phase ≠ .preparing → d.pwrFail.bit Reg.PW_STATE.prog_hold = true ∧ d.pwrFail.bit Reg.PW_STATE.pwr_fail = true) ∧
  (∀ s : State, s.dev.pw.pwrFailLow = true →
    (s.dev.pwrFailActs = true → GivesSome .pwrFailNRelease s (fun e =>
      e.pw.pwrFailLow = false ∧ e.pw.highSince = some s.dev.now ∧ e.pw.phase = s.dev.pw.phase ∧ e.nand = s.dev.nand)) ∧
    (s.dev.pwrFailActs = false → Gives .pwrFailNRelease s (s.dev.modPw (fun w => { w with pwrFailLow := false })))) ∧
  (∀ (s : State) (t : Nat), s.dev.pwrFailActs = true → s.dev.pw.pwrFailLow = false → s.dev.bit Reg.PW_STATE.prog_hold = true →
    s.dev.pw.highSince = some t →
    (s.dev.expired t (msTicks 10) = true →
      Gives .pwrFailResume s (((s.dev.put Reg.PW_STATE.prog_hold 0).modPw (fun w => { w with highSince := none })).stir)) ∧
    (s.dev.expired t (msTicks 10) = false → Gives .pwrFailResume s s.dev))

/-- Boot steps 1 to 5 (R259, R292 to R296, R363, R407, R452, R456, R462, R479): the code-flash scan; the image, which is judged, and which fails the
load where the judgement names a code; the images' authentication; DRAM training, which opens every port of the device, or is fatal where a
channel fails; the release of FPHY; a channel's bring-up, where the ceiling has room for its operations; the audit's measurements. -/
def Obligations.BootStepsOneToFiveComplete : Prop :=
  (∀ s : State, s.dev.pw.phase = .booting → s.dev.bit Reg.CF_STATUS.scan_done = false →
    Gives (.codeflashScan true) s (s.dev.scan.endBootStep 1)) ∧
  (∀ (s : State) (nor : NorInfo) (image : List Byte), s.dev.pw.phase = .booting → s.dev.pw.bootStep = 2 →
    Gives (.configurationLoad nor image) s (s.dev.readImage nor image)) ∧
  (∀ (s : State) (nor : NorInfo) (image : List Byte) (code off : Nat), s.dev.pw.phase = .booting → s.dev.pw.bootStep = 2 →
    s.dev.judgeImage nor image = .inl (code, off) →
    GivesSome (.configurationLoad nor image) s (fun e => e.pw.phase = .loadFailed ∧ e.pw.faultN = true ∧ e.nand = s.dev.nand)) ∧
  (∀ (s : State) (kat march : Option Nat) (ok : Bool), s.dev.bootAt 3 = true →
    Gives (.imageAuthentication kat march ok) s (s.dev.authenticateImages kat march ok)) ∧
  (∀ (s : State) (r w : Nat), s.dev.bootAt 4 = true → GivesSome (.ddr5Training none r w) s (fun e => e.pw.bootStep = 5 ∧
    e.pw.phase = .booting ∧ e.get Reg.DC_STATUS.state = 2 ∧ e.port0.state = .holding ∧ (s.dev.ports = 2 → e.port1.state = .holding))) ∧
  (∀ (s : State) (c r w : Nat), s.dev.bootAt 4 = true → c < 6 →
    GivesSome (.ddr5Training (some c) r w) s (fun e => e.pw.phase = .deadbolt)) ∧
  (∀ s : State, s.dev.bootAt 5 = true → s.dev.pw.fphy = false → s.dev.wardenRuns = true →
    GivesSome .pwCmdReleaseFphy s (fun e => e = s.dev.releaseFphy ∧ e.pw.fphy = true)) ∧
  (∀ (s : State) (n : Nat) (bad : BitVec 32) (ok : Bool) (r w : Nat), s.dev.bootAt 5 = true → s.dev.pw.fphy = true → n < 128 →
    s.dev.get (fcReg n Reg.FC_STATUS.state) = 1 → (∀ c ∈ s.dev.bringUpCosts, s.dev.fits c = true) →
    Gives (.flashBringUp n bad ok r w) s (s.dev.channelOutcome n bad ok r w)) ∧
  (∀ (s : State) (m : List Measure), s.dev.bootAt 5 = true → s.dev.get Reg.MS_STATUS.state = 2 → s.dev.get Reg.CD_STATUS.state = 1 →
    (∀ c ∈ s.dev.readCosts, s.dev.fits c = true) → Gives (.wakeAuditMeasurement m) s (s.dev.takeMeasures m))

/-- Boot steps 6 to 10 (R185 to R189, R201, R245 to R248, R292, R298): of the records that decode the one with the highest sequence is loaded, where the
format's bits per cell and slots are the image's; where they are not, it is fatal; with no record the device is formatted where the image
permits it and no format exists, else it is fatal; replay, the verdicts and the samples follow, each where the ceiling has room for its
operations; then the ports run. -/
def Obligations.BootStepsSixToTenComplete : Prop :=
  (∀ (s : State) (bad : Unreadable) (d : Dev), s.dev.bootAt 6 = true → s.dev.get Reg.MP_STATUS.state = 1 →
    s.dev.bit Reg.PW_STATE.format = false → (∀ c ∈ s.dev.readCosts, s.dev.fits c = true) → d = s.dev.dropUnreadable bad →
    (∀ r, d.highestRec = some r → d.nand.bits = d.bitsPerCell → d.nand.slots = d.slotCount →
      Gives (.checkpointLoad bad) s ((if r.stop then d else d.dropFooters r bad.torn).loadRecord r)) ∧
    (∀ r, d.highestRec = some r → (d.nand.bits ≠ d.bitsPerCell ∨ d.nand.slots ≠ d.slotCount) →
      GivesSome (.checkpointLoad bad) s (fun e => e.pw.phase = .deadbolt)) ∧
    (d.highestRec = none → d.image.permit.isSome = true → d.nand.formatted = false →
      Gives (.checkpointLoad bad) s (((d.fixCause 1).put Reg.PW_STATE.format 1).applyBases 0 1)) ∧
    (d.highestRec = none → (d.image.permit = none ∨ d.nand.formatted = true) →
      GivesSome (.checkpointLoad bad) s (fun e => e.pw.phase = .deadbolt))) ∧
  (∀ (d : Dev) (r : CkptRec), d.highestRec = some r → r ∈ d.nand.recs ∧ ∀ x ∈ d.nand.recs, x.seq ≤ r.seq) ∧
  (∀ (s : State) (r : CkptRec), s.dev.bootAt 7 = true → s.dev.get Reg.MP_STATUS.state = 2 →
    (∀ c ∈ s.dev.readCosts, s.dev.fits c = true) → s.dev.newestRec = some r → Gives .replay s (s.dev.replayFromRec r)) ∧
  (∀ (s : State) (m : List Measure), s.dev.bootAt 8 = true → (s.dev.toRemeasure = [] ∨ ∀ c ∈ s.dev.readCosts, s.dev.fits c = true) →
    Gives (.verdictPhase m) s (s.dev.verdicts m)) ∧
  (∀ (s : State) (bank : Nat) (failed : List Nat), s.dev.bootAt 9 = true → s.dev.cd.toSample.contains bank = true →
    (∀ c ∈ s.dev.readCosts, s.dev.fits c = true) →
    ((∀ a ∈ failed, Pga.set (a / 16) ∉ s.dev.sampledSets bank) → Gives (.bankSampling bank failed) s (s.dev.bankSampled bank true)) ∧
    ((∃ a ∈ failed, Pga.set (a / 16) ∈ s.dev.sampledSets bank) →
      GivesSome (.bankSampling bank failed) s (fun e => e.pw.phase = .deadbolt))) ∧
  (∀ (s : State) (c : Nat) (bad : List Nat), s.dev.bootAt 6 = true → s.dev.bit Reg.PW_STATE.format = true → s.dev.pw.formatted = false →
    s.dev.bit Reg.PW_STATE.prog_hold = false → (∀ c ∈ s.dev.get Reg.MS_COST_PROG.prog_ma :: s.dev.bringUpCosts, s.dev.fits c = true) →
    s.dev.image.permit = some c → Gives (.format bad) s (s.dev.formatDevice c bad)) ∧
  (∀ s : State, s.dev.bootAt 10 = true → Gives .portsRunning s s.dev.enterRun)

/-- Hasp (R299 to R303): Prepare begins only in Run with no Hasp, activation or hold under way; each participant answers once, and one that cannot answer
yet changes nothing; a refusal, a silence past the limit or Warden's release ends it, and the device is in Run again; the eighth ready answer
begins Commit; step 7 opens the switches once the Stop's completion has left, and a WAKE_N that is still low then begins a wake; a Commit that
overruns is a sequencing fault, and the device enters Deadbolt. -/
def Obligations.HaspCommandsComplete : Prop :=
  (∀ s : State, s.dev.mayPrepare = true → s.dev.wardenRuns = true →
    Gives .pwCmdBeginPrepare s ((s.dev.put Reg.PW_CMD.cmd 2).beginPrepare none)) ∧
  (∀ s : State, (s.dev.pw.phase ≠ .running ∨ s.dev.pw.hasp.isSome = true ∨ s.dev.cores.act.isSome = true ∨ s.dev.qe.hold.isSome = true) →
    Gives .pwCmdBeginPrepare s s.dev ∧ ∀ acc, Gives (.stop acc) s s.dev) ∧
  (∀ s : State, s.dev.pw.phase = .preparing → s.dev.wardenRuns = true →
    Gives .pwCmdRelease s ((s.dev.put Reg.PW_CMD.cmd 3).haspRelease (s.dev.get Reg.PW_HASP_STATUS.refused) false)) ∧
  (∀ (s : State) (h : Hasp), s.dev.pw.phase = .preparing → s.dev.pw.hasp = some h →
    s.dev.expired h.start (msTicks (s.dev.get Reg.PW_HASP_CFG.prepare_ms)) = true →
    Gives .haspPrepareTimeout s (s.dev.haspRelease (255 - s.dev.get Reg.PW_HASP_STATUS.ready) true)) ∧
  (∀ d : Dev, d.resumeUnits.pw.phase = .running ∧ d.resumeUnits.pw.hasp = none ∧ d.resumeUnits.qe.haspDrop = false) ∧
  (∀ (s : State) (h : Hasp) (unit : Nat) (bad : List Nat) (ok : Bool), s.dev.pw.phase = .preparing → s.dev.pw.hasp = some h →
    ((s.dev.get Reg.PW_HASP_STATUS.ready).testBit unit = true → Gives (.haspReadyAnswer unit bad ok) s s.dev) ∧
    ((s.dev.get Reg.PW_HASP_STATUS.ready).testBit unit = false →
      (s.dev.haspAnswer h unit = .notYet → Gives (.haspReadyAnswer unit bad ok) s s.dev) ∧
      (s.dev.haspAnswer h unit = .no → Gives (.haspReadyAnswer unit bad ok) s (s.dev.haspRelease (2 ^ unit) false)) ∧
      (s.dev.haspAnswer h unit = .yes → (s.dev.unitReady unit).get Reg.PW_HASP_STATUS.ready ≠ 255 →
        Gives (.haspReadyAnswer unit bad ok) s (s.dev.unitReady unit)) ∧
      (s.dev.haspAnswer h unit = .yes → (s.dev.unitReady unit).get Reg.PW_HASP_STATUS.ready = 255 →
        Gives (.haspReadyAnswer unit bad ok) s ((s.dev.unitReady unit).beginCommit bad ok)))) ∧
  (∀ (s : State) (h : Hasp), s.dev.pw.phase = .committing → s.dev.pw.hasp = some h →
    (h.commitStep = 6 → s.dev.stopPosted h = true → s.dev.pw.wakeUntil ≤ s.dev.now →
      GivesSome .pwCmdCommitStep7 s (fun e => e = s.dev.enterStop ∧ e.pw.phase = .stopped ∧ e.pw.detectorArmed = true ∧ e.regs = [] ∧
        e.qe = {} ∧ e.cx = {} ∧ e.mem = {})) ∧
    (h.commitStep = 6 → s.dev.stopPosted h = true → s.dev.now + 10 ≤ s.dev.pw.wakeUntil →
      GivesSome .pwCmdCommitStep7 s (fun e => e = s.dev.enterStop ∧ e.pw.phase = .waking ∧ e.pw.latchWake = true ∧ e.qe = {} ∧ e.cx = {} ∧
        e.mem = {})) ∧
    ((h.commitStep ≠ 6 ∨ s.dev.stopPosted h = false) → Gives .pwCmdCommitStep7 s s.dev)) ∧
  (∀ (s : State) (h : Hasp) (t : Nat), s.dev.pw.phase = .committing → s.dev.pw.hasp = some h → h.commitStart = some t →
    s.dev.expired t (msTicks (s.dev.get Reg.PW_HASP_CFG.commit_ms)) = true →
    GivesSome .haspCommitOverrun s (fun e => e.pw.phase = .deadbolt ∧ e.pw.faultN = true))

/-! ### Media (06) -/

/-- Tokens, the ramp and calibration (R195, R215, R217, R219): an operation that has waited token_wait_us becomes the claim; the oldest
tail gives its tokens back; the ramp begins after its delay and its ceiling rises; a channel is calibrated at each interval. -/
def Obligations.TokensAndTimersComplete : Prop :=
  (∀ (s : State) (op t : Nat) (o : FlashOp), s.dev.isDead = false → s.dev.ms.ops.find? (fun o => o.id = op) = some o →
    o.tokenWait = some t → s.dev.expired t (s.dev.get Reg.MS_PROG_CFG.token_wait_us) = true →
    GivesSome (.tokenClaim op) s (fun e => e = s.dev.claim op ∧ op ∈ e.ms.claims ∧ e.ms.ops = s.dev.ms.ops)) ∧
  (∀ (s : State) (t : Nat) (rest : List Nat), s.dev.isDead = false → s.dev.ms.tails = t :: rest →
    s.dev.expired t (s.dev.get Reg.MS_COST_TAIL.tail_us) = true →
    GivesSome .tailReturn s (fun e => e.ms.tails = rest ∧ e.ms.ops = s.dev.ms.ops ∧
      e.get Reg.MS_LEDGER.held_ma = s.dev.get Reg.MS_LEDGER.held_ma - s.dev.get Reg.MS_COST_TAIL.tail_ma)) ∧
  (∀ (s : State) (t : Nat), s.dev.ms.fphyAt = some t → s.dev.ms.rampAt = none →
    s.dev.expired t (msTicks (s.dev.get Reg.MS_RAMP_CFG.delay_ms)) = true →
    Gives .rampDelay s ((s.dev.modMs (fun m => { m with rampAt := some s.dev.now })).setCeiling (s.dev.rampCeiling 0))) ∧
  (∀ (s : State) (t : Nat), s.dev.ms.rampAt = some t → s.dev.bit Reg.MS_STATUS.ramp = true →
    Gives .rampTick s (s.dev.setCeiling (max (s.dev.get Reg.MS_LEDGER.ceiling_ma) (s.dev.rampCeiling ((s.dev.now - t) / 1000))))) ∧
  (∀ (s : State) (ch t : Nat), s.dev.ms.zq.find ch = some t → s.dev.get (fcReg ch Reg.FC_STATUS.state) = 4 → s.dev.msWorks = true →
    s.dev.expired t (msTicks (s.dev.get (fcReg ch Reg.FC_ZQ_CFG.zq_interval_ms))) = true →
    Gives (.zqShortCalibration ch) s ((s.dev.modMs (fun m => { m with zq := m.zq.put ch s.dev.now })).each
      (s.dev.goodLuns.filter (fun l => l / 32 = ch && !s.dev.ms.ops.any (fun o => o.lun = l && o.kind == .zq))) (fun d l => d.queueOp l .zq 0 0)))

/-- Operations (R178, R205 to R214): an idle LUN takes the operation R210 chooses, a busy one goes on; ready, the end of each KiB and an
overrun end what runs; an erase suspends for waiting reads and resumes after them; a set ages; an idle open set is sealed. -/
def Obligations.MediaOperationsComplete : Prop :=
  (∀ (s : State) (ch lun : Nat) (o : FlashOp), s.dev.msWorks = true → ch < 128 → lun < 32 → s.dev.lunFailed (ch * 32 + lun) = false →
    (s.dev.activeOp (ch * 32 + lun) = some o → Gives (.nextOperation ch lun) s (s.dev.continueOp o)) ∧
    (s.dev.activeOp (ch * 32 + lun) = none → s.dev.chooseOp (ch * 32 + lun) = some o → Gives (.nextOperation ch lun) s (s.dev.beginOp o))) ∧
  (∀ (s : State) (ch lun : Nat) (pass ok : Bool) (o : FlashOp), ch < 128 → lun < 32 → s.dev.isDead = false →
    s.dev.ms.ops.find? (fun o => o.lun = ch * 32 + lun && (o.st == .array || o.st == .setting)) = some o → Gives (.lunReady ch lun pass ok) s (s.dev.opReady o pass ok)) ∧
  (∀ (s : State) (ch lun : Nat) (o n : FlashOp) (e : Dev), ch < 128 → lun < 32 → s.dev.isDead = false →
    s.dev.ms.ops.find? (fun o => o.lun = ch * 32 + lun && o.moving) = some o →
    n = { o with moving := false, kib := o.kib - 1, begun := o.kib != 1, held := none } →
    e = (s.dev.unhold (s.dev.get Reg.MS_COST_XFER.xfer_ma)).modOp o.id (fun _ => n) →
    Gives (.dataTransferEnd ch lun) s (if n.kib = 0 then e.transferDone n else e.startKib n)) ∧
  (∀ (s : State) (ch lun op : Nat) (o : FlashOp), ch < 128 → lun < 32 → s.dev.isDead = false →
    s.dev.ms.ops.find? (fun o => o.id = op && o.lun = ch * 32 + lun && o.st == .array && (match s.dev.opLimit o with
      | some l => s.dev.expired o.start l
      | none => false)) = some o →
    Gives (.opLimitExpiry ch lun op) s (s.dev.opOverran o)) ∧
  (∀ (s : State) (ch lun : Nat) (o : FlashOp), ch < 128 → lun < 32 → s.dev.isDead = false →
    s.dev.ms.ops.find? (fun o => o.lun = ch * 32 + lun && o.kind.isErase && !o.resetting && o.st == .array) = some o →
    s.dev.waitingReads o.lun ≠ [] → s.dev.expired o.start (s.dev.get Reg.MS_SUSPEND_CFG.resume_min_us) = true →
    o.suspends < s.dev.get Reg.MS_SUSPEND_CFG.max_suspends →
    GivesSome (.eraseSuspend ch lun false) s (fun e => e = s.dev.suspendOp o false ∧ ∃ n ∈ e.ms.ops, n.id = o.id ∧ n.st = .suspended ∧
      n.suspends = o.suspends + 1 ∧ n.ran = o.ran + (s.dev.now - o.start) ∧ n.readsLeft.length ≤ s.dev.get Reg.MS_SUSPEND_CFG.per_suspend)) ∧
  (∀ (s : State) (ch lun : Nat) (o : FlashOp), ch < 128 → lun < 32 → s.dev.isDead = false → s.dev.suspendedOp (ch * 32 + lun) = some o →
    s.dev.mayResume o = true →
    GivesSome (.eraseResume ch lun) s (fun e => e.qe = s.dev.qe ∧ e.nand = s.dev.nand ∧ ∃ n ∈ e.ms.ops, n.id = o.id ∧ n.st = .array ∧
      n.start = s.dev.now ∧ n.cost = s.dev.get Reg.MS_COST_ERASE.erase_ma)) ∧
  (∀ (s : State) (seq : Nat) (x : WlSet), s.dev.isDead = false → s.dev.setOf seq = some x →
    s.dev.expired x.sealedAt (msTicks (s.dev.get Reg.MS_PROG_CFG.prog_age_ms)) = true →
    Gives (.progAge seq) s (s.dev.modSet seq (fun x => { x with aged := true }))) ∧
  (∀ (s : State) (stream : Nat) (o : OpenSet), s.dev.isDead = false → s.dev.openSet stream = some o →
    s.dev.expired o.last (secTicks (s.dev.get Reg.MP_CKPT_CFG.idle_pad_s)) = true →
    Gives (.idlePad stream) s (s.dev.modOpenSet stream (fun o => { o with sealing := true })).stir)

/-! ### Codec, drift and the descriptors (05 to 08, 11) -/

/-- Decodes, the ladder and witness lines (R227, R244, R250 to R254): a decode passes where the syndrome is zero and, but for a parity set's
codeword, crc and address are right; then its request ends, and otherwise it goes up the ladder; after policy_ms the request climbs by
itself; a witness interval begins the sweep of the LUN's newest line that decodes, or, where it has none, queues a new line. -/
def Obligations.DecodesAndWitnessesComplete : Prop :=
  (∀ (s : State) (id unsat : Nat) (f : Check) (r q : CwReq) (e : Dev), s.dev.req id = some r → r.awaits = true →
    s.dev.isDead = false → q = r.noteUnsat (unsat % 2 ^ 32) → e = s.dev.modReq id (fun _ => q) →
    (f.syndromeZero = true → (e.isParity q.addr = true ∨ f.crcOk = true ∧ f.address = q.addr) → q.dead = false → e.onFlash q.addr = true →
      Gives (.decodeResult id f unsat) s ((e.noteAdjust q).reqEnded q true)) ∧
    ((f.syndromeZero = false ∨ e.isParity q.addr = false ∧ (f.crcOk = false ∨ f.address ≠ q.addr) ∨ q.dead = true ∨ e.onFlash q.addr = false) →
      Gives (.decodeResult id f unsat) s (e.decodeFailed q))) ∧
  (∀ (s : State) (id : Nat) (r : CwReq), s.dev.req id = some r → r.st = .waitingStep → s.dev.qe.hold = none → s.dev.isDead = false →
    s.dev.expired r.timer (msTicks (s.dev.get Reg.CD_LADDER_CFG.policy_ms) + r.paused) = true →
    Gives (.ladderFallback id) s (s.dev.nextTier r)) ∧
  (∀ (s : State) (ch l lun valley : Nat) (d : Dev), lun = ch * 32 + l → lun ∈ s.dev.goodLuns → s.dev.inRun = true → s.dev.pw.phase ≠ .committing → valley < 16 →
    s.dev.isDead = false → s.dev.lineUnderway lun = false →
    s.dev.optExpired (s.dev.drift lun).lastWitness (hourTicks (s.dev.get Reg.CD_WITNESS_CFG.interval_h)) = true →
    d = s.dev.modDrift lun (fun x => { x with lastWitness := s.dev.optTicks }) →
    (∀ w, d.witnessPlace lun = some w → Gives (.witnessInterval ch l valley) s (d.startSweep w d.sweepLevel valley (.interval lun))) ∧
    (d.witnessPlace lun = none → Gives (.witnessInterval ch l valley) s (d.queueWitness lun 1)))

/-- CD's descriptors (R260): each is taken from its ring. Where its fields are right, Ladder Step climbs, Witness Sweep begins the sweep of the LUN's
line, Reference Query writes the references and answers bins and whether an adjustment holds, and Sample requests every codeword of its set. -/
def Obligations.CodecDescriptorsComplete : Prop :=
  (∀ (s : State) (i : Nat) (l : Line) (d : Dev) (r : CwReq), s.dev.entryReady .cd 1 = some (i, l) → d = s.dev.takeDesc .cd i l →
    d.cdDone = true → d.req (bodyAt l 0 32) = some r → r.st = .waitingStep → r.tier + 1 = bodyAt l 4 8 → Gives .ladderStep s (d.nextTier r)) ∧
  (∀ (s : State) (i : Nat) (l : Line) (d : Dev) (counts : List Dword) (w : Nat), s.dev.entryReady .cd 2 = some (i, l) → d = s.dev.takeDesc .cd i l →
    counts.length = 16 * s.dev.thresholds → d.cdDone = true → populated d (bodyAt l 0 7 * 32 + bodyAt l 1 5) = true →
    bodyAt l 2 8 < d.bitsPerCell → d.lunFailed (bodyAt l 0 7 * 32 + bodyAt l 1 5) = false → d.bufferOk (bodyAt l 16 64) 2048 = true →
    d.witnessPlace (bodyAt l 0 7 * 32 + bodyAt l 1 5) = some w →
    Gives (.witnessSweep counts) s ((d.modDesc .cd i (fun x => { x with counts := counts })).startSweep w (bodyAt l 2 8) 0 (.sweep i))) ∧
  (∀ (s : State) (i lun b : Nat) (l : Line) (d : Dev), s.dev.entryReady .cd 3 = some (i, l) → d = s.dev.takeDesc .cd i l →
    lun = Pga.dieLun (bodyAt l 0 44 / 16) → b = Pga.block (bodyAt l 0 44 / 16) → d.cdDone = true → populated d lun = true →
    b < d.blockGroups → Pga.wl (bodyAt l 0 44 / 16) < d.wordLines → cwIndex (bodyAt l 0 44) < d.codewords → d.lunFailed lun = false →
    d.bufferOk (bodyAt l 16 64) d.thresholds = true →
    Gives .referenceQuery s ((d.writeBuffer (bodyAt l 16 64)
      ((List.range d.thresholds).map (fun t =>
        (d.baseRef lun (d.levelOf (cwIndex (bodyAt l 0 44))) (d.binsOf lun b).1 (d.binsOf lun b).2 t % 256).toNat)) 0x36).answer .cd i 0
        ((d.binsOf lun b).2 + 16 * (d.binsOf lun b).1 +
          (if (d.adjustment lun (d.levelOf (cwIndex (bodyAt l 0 44))) (d.binsOf lun b).2).isSome then 128 else 0)) 0)) ∧
  (∀ (s : State) (i : Nat) (l : Line) (d : Dev), s.dev.entryReady .cd 4 = some (i, l) → d = s.dev.takeDesc .cd i l →
    d.cdDone = true → populated d (Pga.dieLun (bodyAt l 0 40)) = true → Pga.block (bodyAt l 0 40) < d.blockGroups →
    Pga.wl (bodyAt l 0 40) < d.wordLines → bodyAt l 5 8 ≤ 4 → d.lunFailed (Pga.dieLun (bodyAt l 0 40)) = false →
    Gives (.sample (bodyAt l 0 40) (bodyAt l 5 8)) s (d.each (List.range d.codewords) (fun e k =>
      e.oneReq (Pga.set (bodyAt l 0 40) * 16 + k) (.sample i (bodyAt l 5 8)) 0 0)))

/-- MP's descriptors (R191, R192): Lookup writes the entries, Validate Set answers the mask of slots still valid, Hold and Release set and
clear pinned, Write Back and Checkpoint begin their work. -/
def Obligations.MapDescriptorsComplete : Prop :=
  (∀ (s : State) (i : Nat) (l : Line) (d : Dev) (keys : List Nat), s.dev.entryReady .mp 1 = some (i, l) → d = s.dev.takeDesc .mp i l →
    d.mpRuns = true → d.named l 64 = some keys → (∀ k ∈ keys, d.pageLost (pageOf k) = false) →
    d.bufferOk (bodyAt l 16 64) (8 * keys.length) = true →
    Gives .lookup s ((d.writeBuffer (bodyAt l 16 64) (keys.flatMap (fun k => bytesOf (d.ent k).toNat 8)) 0x33).answer .mp i 0 0 0)) ∧
  (∀ (s : State) (i : Nat) (l : Line) (d : Dev) (x : OnFlash), s.dev.entryReady .mp 2 = some (i, l) → d = s.dev.takeDesc .mp i l →
    d.mpRuns = true → Pga.slot (bodyAt l 4 40) = 0 → d.nand.sets.find (bodyAt l 4 40) = some x →
    (∀ e ∈ x.slots, e.kind ≠ 0 → d.pageLost (pageOf e.key) = false) →
    Gives .validateSet s (d.answer .mp i 0
      ((x.slots.mapIdx (fun k e => if d.slotValid (bodyAt l 4 40) k e then 2 ^ k else 0)).sum + 65536 * x.stream) (x.seq % 2 ^ 32))) ∧
  (∀ (s : State) (i : Nat) (l : Line) (d : Dev) (keys : List Nat) (b : Bool), s.dev.entryReady .mp (if b then 3 else 4) = some (i, l) →
    d = s.dev.takeDesc .mp i l → d.mpRuns = true → d.named l 512 = some keys → (∀ k ∈ keys, d.pageLost (pageOf k) = false) →
    Gives (if b then .hold else .release) s ((d.each keys (fun e k =>
      if Ent.pinned (e.ent k) = b then e else e.putEnt k (Ent.withPinned (e.ent k) b))).answer .mp i 0 0 0)) ∧
  (∀ (s : State) (i : Nat) (l : Line) (d : Dev), s.dev.entryReady .mp 5 = some (i, l) → d = s.dev.takeDesc .mp i l → d.mpRuns = true →
    d.mp.ns.has (bodyAt l 0 5) = true → 1 ≤ bodyAt l 9 16 → bodyAt l 9 16 ≤ 4096 → bodyAt l 4 40 + bodyAt l 9 16 ≤ 2 ^ 27 →
    (∀ x ∈ d.mp.dir, x.2.lost = false) → Gives .writeBack s (d.writeBackDesc i l)) ∧
  (∀ (s : State) (i : Nat) (l : Line) (d : Dev), s.dev.entryReady .mp 6 = some (i, l) → d = s.dev.takeDesc .mp i l → d.mpRuns = true →
    Gives .checkpoint s ((d.modDesc .mp i (fun x => { x with
      goal := d.get Reg.MP_CKPT_SEQ.seq + (if d.mp.ckpt.isSome then 2 else 1) })).beginCkpt false))

/-- MS's descriptors, RC's, and the end of one (R223, R283, R350). -/
def Obligations.MediaDescriptorsComplete : Prop :=
  (∀ (s : State) (i lun : Nat) (l : Line) (d : Dev), s.dev.entryReady .ms 1 = some (i, l) → d = s.dev.takeDesc .ms i l → d.msRuns = true →
    lun = bodyAt l 0 7 * 32 + bodyAt l 1 5 → populated d lun = true →
    (∀ o ∈ d.ms.ops, o.lun = lun → o.st = .queued) → d.lunState lun = 0 → d.activeOp lun = none → d.suspendedOp lun = none → d.lunFailed lun = false →
    Gives .lunQuery s (d.answer .ms i 0 0 0)) ∧
  (∀ (s : State) (i lun : Nat) (l : Line) (d : Dev) (wrong : List Line), s.dev.entryReady .ms 2 = some (i, l) → d = s.dev.takeDesc .ms i l →
    d.msRuns = true → lun = Pga.dieLun (bodyAt l 0 44 / 16) →
    populated d lun = true → Pga.block (bodyAt l 0 44 / 16) < d.blockGroups → Pga.wl (bodyAt l 0 44 / 16) < d.wordLines →
    cwIndex (bodyAt l 0 44) < d.codewords → d.lunFailed lun = false → d.bufferOk (bodyAt l 16 64) 8192 = true →
    Gives (.rawRead wrong) s ((d.modDesc .ms i (fun x => { x with wrong := wrong })).queueOp lun (.raw (bodyAt l 0 44) i) 0 0)) ∧
  (∀ (s : State) (i lun b : Nat) (l : Line) (d : Dev), s.dev.entryReady .ms 3 = some (i, l) → d = s.dev.takeDesc .ms i l → d.msRuns = true →
    lun = Pga.dieLun (bodyAt l 0 40) → b = Pga.block (bodyAt l 0 40) → Pga.wl (bodyAt l 0 40) = 0 → Pga.slot (bodyAt l 0 40) = 0 →
    populated d lun = true → b < d.blockGroups → (d.entry lun b).state ≠ .witness → (d.entry lun b).state ≠ .system → d.lunFailed lun = false →
    Gives .retireBlock s ((d.modDesc .ms i (fun x => { x with goal := blockKey lun b })).retireSoon lun b)) ∧
  (∀ (s : State) (i id : Nat) (l : Line) (d : Dev), d = s.dev.takeDesc .rc i l → id = bodyAt l 0 40 → d.rcRuns = true →
    id ∈ d.allStripes → d.stripeRetired id = false →
    (s.dev.entryReady .rc 1 = some (i, l) → Gives .stripeQuery s (d.stripeQuery i l) ∧ ∃ w0 w1, d.stripeQuery i l = d.answer .rc i 0 w0 w1 ∧
      w0 % 2 ^ 16 = ((d.stripeEntries id).map (fun e => e.valid)).sum % 2 ^ 16) ∧
    (s.dev.entryReady .rc 2 = some (i, l) → (∀ e ∈ d.stripeEntries id, e.state = .closed) →
      Gives .reclaim s (d.makeVictim id (some i)))) ∧
  (∀ (s : State) (i lun : Nat) (l : Line) (d : Dev), s.dev.entryReady .rc 3 = some (i, l) → d = s.dev.takeDesc .rc i l → d.rcRuns = true →
    lun = bodyAt l 0 7 * 32 + bodyAt l 1 5 → populated d lun = true → d.lunFailed lun = false →
    Gives .refreshLun s (d.addPass {
      why := .refreshLun lun
      left := d.setsIn lun none
      urgent := false
      desc := some i })) ∧
  (∀ (s : State) (i lun b : Nat) (l : Line) (d : Dev), s.dev.entryReady .rc 4 = some (i, l) → d = s.dev.takeDesc .rc i l → d.rcRuns = true →
    lun = Pga.dieLun (bodyAt l 0 40) → b = Pga.block (bodyAt l 0 40) → Pga.wl (bodyAt l 0 40) = 0 → Pga.slot (bodyAt l 0 40) = 0 →
    populated d lun = true → b < d.blockGroups → (d.entry lun b).state.present = true →
    Gives .markSuspect s ((d.modEntry lun b (fun e => { e with suspect := true })).answer .rc i 0 0 0)) ∧
  (∀ (s : State) (n i : Nat) (u : Unit4) (x : Desc) (r : Nat × Dword × Dword), unitOf n = some u → s.dev.awake = true → s.dev.isDead = false →
    (s.dev.inProgress u).find? (fun x => x.index = i) = some x → x.result = some r → Gives (.descriptorDone n i) s (s.dev.endDesc x r))

/-- RC's units and victims, and checkpoints (R182, R183, R187, R268 to R274): a unit is offered from the first pass that has work, Urgent
passes first; it is done when all its granules are settled; an emptied stripe is erased when nothing needs it; without policy firmware RC
chooses a victim; a checkpoint begins when due and is durable when a copy of its record has verified. -/
def Obligations.ReclaimAndCheckpointsComplete : Prop :=
  (∀ (s : State) (p : Pass), s.dev.rcRuns = true → s.dev.isDead = false → s.dev.pw.phase = .running → s.dev.isSealed = false →
    (s.dev.rc.passes.find? (fun p => p.urgent && !p.left.isEmpty) = some p ∨
      s.dev.rc.passes.find? (fun p => p.urgent && !p.left.isEmpty) = none ∧ s.dev.rc.passes.find? (fun p => !p.left.isEmpty) = some p) →
    Gives .reclaimUnitOffer s (s.dev.offerUnit p)) ∧
  (∀ (s : State) (n : Nat) (u : Unit_), s.dev.isDead = false →
    s.dev.rc.units.find? (fun u => u.id = n && u.started && u.copies.all (fun c => c.settled)) = some u →
    Gives (.reclaimUnitDone n) s ((((s.dev.modRc (fun r => { r with units := r.units.filter (fun x => x.id != n) })).modPass u.pass (fun p => { p with
      rewritten := p.rewritten + ((u.copies.map (fun c => Pga.set c.pga)).eraseDups).length
      copied := p.copied + (u.copies.filter (fun c => c.recorded)).length })).endPasses).stir)) ∧
  (∀ (s : State) (id c : Nat), s.dev.rcRuns = true → s.dev.isDead = false → s.dev.rc.emptied.find? (fun p => p.1 = id) = some (id, c) →
    (∀ e ∈ s.dev.stripeEntries id, (e.state = .closed ∨ e.state = .victim) ∧ e.valid = 0 ∧ e.pinned = 0) → s.dev.isSealed = false →
    c + 2 ≤ s.dev.get Reg.MP_CKPT_SEQ.seq → s.dev.copiesSafe id = true → s.dev.superseded id = true → s.dev.inUse id = false →
    Gives (.victimErase id) s (((s.dev.each (s.dev.presentIn id) (fun e l => e.emptyGroup l (Pga.block id))).modRc (fun r => { r with
      emptied := r.emptied.filter (fun x => x.1 != id)
      victims := r.victims.filter (fun x => x != id) })).noteFree)) ∧
  (∀ (s : State) (t : Nat) (c : Candidate), s.dev.rcRuns = true → s.dev.isDead = false → s.dev.isSealed = false → s.dev.qe.hold = none →
    s.dev.reclaimWaits = false → s.dev.rc.belowSince = some t →
    s.dev.expired t (msTicks (10 * s.dev.get Reg.RC_VICTIM_CFG.fallback_ms)) = true →
    (s.dev.modRc (fun r => { r with belowSince := some s.dev.now })).fallbackChoice = some c →
    Gives .fallbackVictim s (((s.dev.modRc (fun r => { r with belowSince := some s.dev.now })).makeVictim c.id none).raise (Irq.rc 6))) ∧
  (∀ s : State, s.dev.mpRuns = true → s.dev.isDead = false → s.dev.ckptDue = true → s.dev.haspCkptDue = false →
    Gives .checkpointTrigger s (s.dev.beginCkpt false)) ∧
  (∀ (s : State) (place : Nat) (r : CkptRun), s.dev.mp.ckpt = some r → r.writing = true → s.dev.copyAt r.seq place = true → s.dev.isDead = false →
    Gives (.checkpointDurable r.seq place) s (if s.dev.mp.again then (s.dev.ckptDone r).beginCkpt false else s.dev.ckptDone r).stir)

/-! ### Faults (14) -/

/-- FAULT_MESSAGE, PRIVILEGED_FAULT, FT_ACK and FT_INJECT (R411, R415, R421 to R424): a checker's message goes to FT; a privileged one starts
Deadbolt by itself; acknowledging frees the corrected or the contained record; Warden arms the inject control; a source that is
not listed leaves the one it names (R13). -/
def Obligations.FaultCommandsComplete : Prop :=
  (∀ (s : State) (msg : BitVec 78), s.dev.logicOn = true → Src.listed (fld msg 0 10) = true → Kind.known (fld msg 10 6) = true →
    Kind.privileged (fld msg 10 6) = false → classOk (fld msg 10 6) (fld msg 16 2) = true →
    Gives (.faultMessage msg) s (((s.dev.injectAt (fld msg 0 10)).2.unitActs (fld msg 0 10) (fld msg 10 6) (fld msg 16 2)).faultMsg {
      source := fld msg 0 10, kind := fld msg 10 6, cls := fld msg 16 2, addr := fld msg 18 48, master := fld msg 66 8, access := fld msg 74 4,
      injected := (s.dev.injectAt (fld msg 0 10)).1 })) ∧
  (∀ (s : State) (src kind : Nat) (a : BitVec 48), s.dev.pw.phase ≠ .unpowered → s.dev.pw.phase ≠ .stopped → Src.listed src = true →
    Kind.privileged kind = true → GivesSome (.privilegedFault src kind a) s (fun e => e.pw.phase = .deadbolt ∧ (s.dev.isDead = false → e.pw.faultN = true))) ∧
  (∀ (s : State) (w : Who) (v : Dword), s.dev.wardenWrites = true → isCore w = true → GivesSome (.ftAck w v) s (fun e =>
    e.ft.fatal = s.dev.ft.fatal ∧ (v.getLsbD 0 = true → e.ft.corrected.valid = false) ∧ (v.getLsbD 1 = true → e.ft.contained.valid = false) ∧
    (v.getLsbD 0 = false → e.ft.corrected = s.dev.ft.corrected) ∧ (v.getLsbD 1 = false → e.ft.contained = s.dev.ft.contained))) ∧
  (∀ (s : State) (v : Dword), s.dev.wardenWrites = true → s.dev.bit Reg.FT_INJECT.arm = false →
    GivesSome (.ftInject .warden v) s (fun e =>
      e.get Reg.FT_INJECT.source = (if Src.listed (fld v 0 10) = true then fld v 0 10 else s.dev.get Reg.FT_INJECT.source) ∧ e.bit Reg.FT_INJECT.arm = v.getLsbD 31 ∧
      e.bit Reg.FT_STATUS.armed = v.getLsbD 31 ∧ e.ft = s.dev.ft ∧ e.pw = s.dev.pw))

/-- How FT classes a message (R412, R417, R418, R420, R423): outside Deadbolt a message whose class's record is free is captured there with
its source, kind and address; one that finds the record held goes to the next class; raise moves a message up by one; and a message whose
final class is fatal starts Deadbolt, FAULT_N asserted, while any other leaves the phase as it is. -/
def Obligations.FaultClasses : Prop :=
  ∀ (d : Dev) (m : FaultMsg) (raised final : Nat), d.isDead = false → m.cls ≤ 2 →
    raised = (if m.cls < 2 ∧ m.kind < 32 ∧ (d.get Reg.FT_KIND_RAISE.raise).testBit m.kind = true then m.cls + 1 else m.cls) →
    final = (if raised < 2 ∧ (d.capture raised).valid = true then raised + 1 else raised) →
    (final = 2 → (d.faultMsg m).pw.phase = .deadbolt ∧ (d.faultMsg m).pw.faultN = true) ∧
    (final < 2 → (d.faultMsg m).pw = d.pw ∧ (d.faultMsg m).qe.cmds = d.qe.cmds ∧ (d.faultMsg m).nand = d.nand) ∧
    (final < 2 → (d.capture final).valid = false → ((d.faultMsg m).capture final).valid = true ∧
      ((d.faultMsg m).capture final).source = m.source ∧ ((d.faultMsg m).capture final).kind = m.kind ∧
      ((d.faultMsg m).capture final).addr = BitVec.ofNat 48 m.addr ∧ ((d.faultMsg m).capture final).sent = m.cls ∧
      ((d.faultMsg m).capture final).followers = 0) ∧
    (final < 2 → raised < final → (d.capture raised).followers < 0xffffffff →
      ((d.faultMsg m).capture raised).followers = (d.capture raised).followers + 1)

/-- An armed inject control that meets a check whose class is fatal starts Deadbolt (R389, R424, R425): QE's tag array at the packet whose tag
is compared, Warden's watchdog and a thermal comparator at their next comparison. -/
def Obligations.InjectedFatalErrors : Prop :=
  (∀ (s : State) (p q off len : Nat) (be poisoned : Bool) (pkt : Packet) (u : Queue),
    s.dev.takesMemory p = true → q < 512 → s.dev.queue p q = some u → u.state ≠ .deleting → Pkt.opcode pkt ≠ 0 →
    (s.dev.port p).state ≠ .booting → (s.dev.port p).state ≠ .deadbolt → s.dev.qe.haspDrop = false → s.dev.qe.dead = false →
    packetFault off len be poisoned u.pcheck pkt = none → (s.dev.cmdsOf p q).length < u.depth → s.dev.armedFor Src.qeTags = true →
    GivesSome (.ingressPacket p q off len be poisoned pkt) s (fun e => e.pw.phase = .deadbolt)) ∧
  (∀ s : State, s.dev.awake = true → s.dev.armedFor Src.wdog = true →
    GivesSome .wardenWatchdogExpiry s (fun e => e.pw.phase = .deadbolt)) ∧
  (∀ (s : State) (i : Nat), s.dev.sensorsRun = true → i < 24 → s.dev.pw.thermTrip = false → s.dev.armedFor (Src.sensor i) = true →
    GivesSome (.thermalTrip i) s (fun e => e.pw.phase = .deadbolt ∧ e.pw.thermTrip = true))

/-! ### Warden and the Bolt cores (11) -/

/-- The watchdogs and the machine timer (R346, R358, R359): the key restarts a watchdog; Warden's expiry is fatal; a core's expiry halts it and begins
the cluster's restart; a core whose compare value is reached has its timer interrupt. The interrupt controller (R354 to R357): a claim takes
the source into service and returns it, or 0x3FF; a completion ends its service; a raise makes it pending; a route is written. -/
def Obligations.WatchdogsAndInterruptsComplete : Prop :=
  (∀ s : State, s.dev.awake = true → Gives (.wardenWatchdogKick 0x4b1c) s (s.dev.modCores (fun c => { c with
    wdogStart := s.dev.now
    wdogLimit := s.dev.get Reg.WD_WDOG.limit_ms }))) ∧
  (∀ s : State, s.dev.awake = true → s.dev.armedFor Src.wdog = false → s.dev.expired s.dev.cores.wdogStart (msTicks s.dev.cores.wdogLimit) = true →
    GivesSome .wardenWatchdogExpiry s (fun e => e = s.dev.fatal Src.wdog Kind.wardenWatchdog 0 11 ∧ e.pw.phase = .deadbolt)) ∧
  (∀ (s : State) (n : Nat), s.dev.awake = true → n < 16 →
    Gives (.boltWatchdogKick .warden n 0x4b1c) s ((s.dev.modCore n (fun c => { c with dogRan := 0, dogSince := s.dev.now })).served .warden 0) ∧
    Gives (.boltWatchdogKick (.bolt n) n 0x4b1c) s ((s.dev.modCore n (fun c => { c with dogRan := 0, dogSince := s.dev.now })).served (.bolt n) 0)) ∧
  (∀ (s : State) (n : Nat) (e : Dev), s.dev.dogRuns n = true → s.dev.get (Reg.BC_WDOG.limit_ms.at (8 * n)) * 1000 + 1 ≤ s.dev.dogTicks n →
    e = (((s.dev.settleDogs.modCore n (fun c => { c with halted := true })).put (Reg.BC_CORE.state.at (4 * n)) 3).raise (Irq.boltWdog n)).contained
      (Src.boltCore n) Kind.boltWatchdog n 0x3f 11 → e.isDead = false → e.cores.act = none →
    Gives (.boltWatchdogExpiry n) s ((e.modCores (fun c => { c with act := some ⟨none, .sendHalt, e.now, e.boltSlot, e.boltSlot⟩ })).owe 4 0)) ∧
  (∀ (s : State) (n : Nat), s.dev.coreRuns n = true → s.dev.get (Reg.BC_MTIMECMP.cmp.at (8 * n)) ≤ s.dev.now →
    Gives (.machineTimerInterrupt n) s (s.dev.modCore n (fun c => { c with timerIrq := true }))) ∧
  (∀ (s : State) (w : Who) (t : Nat), s.dev.awake = true → isCore w = true → t < 17 → icOwner w t = true →
    (s.dev.claimable t = none → Gives (.icClaim w t) s (s.dev.served w 0x3ff)) ∧
    (∀ n, s.dev.claimable t = some n → Gives (.icClaim w t) s
      (((s.dev.setIcPending n false).modCores (fun c => { c with service := c.service ++ [(n, t)] })).served w n))) ∧
  (∀ (s : State) (w : Who) (t n : Nat), s.dev.awake = true → isCore w = true → t < 17 → icOwner w t = true →
    Gives (.icComplete w t n) s (((s.dev.modCores (fun c => { c with service := c.service.erase (n, t) })).deliver n).served w 0)) ∧
  (∀ (s : State) (w : Who) (n : Nat), s.dev.awake = true → isCore w = true → mayRaise w n = true →
    Gives (.icRaise w n) s ((s.dev.raise n).served w 0)) ∧
  (∀ (s : State) (w : Who) (n : Nat) (v : Dword), s.dev.awake = true → isCore w = true → n < 320 → (w = .warden ∨ s.dev.boltRouteOk n v = true) →
    Gives (.icRoute w n v) s ((s.dev.writeRoute w n v).served w 0)) ∧
  (∀ (s : State) (n t : Nat), s.dev.awake = true → t < 17 → t ≠ n + 1 →
    Gives (.icClaim (.bolt n) t) s (s.dev.closed (.bolt n) (Reg.IC_CLAIM.source.addr + 8 * t) 2))

/-- What a claim returns (R356, R357): a pending source that is routed to the target, has a priority and is not in service; none of those has
a higher priority, and of the same priority none has a lower number. -/
def Obligations.ClaimTakesTheHighestPriority : Prop :=
  ∀ (d : Dev) (t n : Nat), d.claimable t = some n →
    n < 320 ∧ d.icIsPending n = true ∧ d.inService n = false ∧ d.routedTo n t = true ∧ d.get (routeReg Reg.IC_ROUTE.priority n) ≠ 0 ∧
    ∀ m, m < 320 → d.icIsPending m = true → d.inService m = false → d.routedTo m t = true →
      d.get (routeReg Reg.IC_ROUTE.priority m) ≤ d.get (routeReg Reg.IC_ROUTE.priority n) ∧
      (d.get (routeReg Reg.IC_ROUTE.priority m) = d.get (routeReg Reg.IC_ROUTE.priority n) → n ≤ m)

/-- INTERNAL_ACCESS (R40, R343 to R345, R384, R391): Warden's aligned access at an address that its map reaches, and a Bolt core's access that its
rights allow, are served by what lies there; an access the rights close is answered by a bus error; a store to a good on-chip line makes it a
valid one with the bytes replaced, and a store-conditional without its reservation stores nothing and answers 1. -/
def Obligations.InternalAccessCompletes : Prop :=
  (∀ (s : State) (k : AccessKind) (a x size : Nat) (data : Line) (m : Option (Bool × Dword)), s.dev.accessComes .warden k a size = true →
    s.dev.wardenMap a = some x → a % 4 = 0 →
    Gives (.internalAccess .warden k a size data m) s (s.dev.wardenAccess k x size (data.toNat % 2 ^ (8 * size)))) ∧
  (∀ (s : State) (n : Nat) (k : AccessKind) (a size : Nat) (data : Line), s.dev.accessComes (.bolt n) k a size = true → s.dev.boltMay n k a = true →
    (s.dev.region a).onChip = true →
    Gives (.internalAccess (.bolt n) k a size data none) s (s.dev.memAccess (.bolt n) k a size (data.toNat % 2 ^ (8 * size)))) ∧
  (∀ (s : State) (n : Nat) (k : AccessKind) (a size : Nat) (data : Line) (m : Option (Bool × Dword)), s.dev.accessComes (.bolt n) k a size = true →
    s.dev.boltMay n k a = false → s.dev.region a ≠ .nothing → s.dev.region a ≠ .registers →
    Gives (.internalAccess (.bolt n) k a size data m) s (s.dev.closed (.bolt n) a (accessCode k))) ∧
  (∀ (d : Dev) (w : Who) (a size v : Nat) (l : MemLine), (d.region a).onChip = true → d.chip a = some l → l.poisoned = false →
    Dev.crcOk l a = true → d.armedFor (d.region a).source = false →
    (d.storeMem w a size v 4).1 = true ∧ ∃ x, (d.storeMem w a size v 4).2.chip a = some x ∧ x.data = lineMerge l.data a size (BitVec.ofNat 512 v) ∧
      Dev.crcOk x a = true ∧ x.poisoned = false ∧ (∀ b, b / 64 ≠ a / 64 → (d.storeMem w a size v 4).2.chip b = d.chip b)) ∧
  (∀ (d : Dev) (n a size v : Nat), (d.core n).lr ≠ some a → (d.storeConditional n a size v).mem = d.mem ∧
    (d.storeConditional n a size v).out = d.out ++ [.busReply (.bolt n) true 1])

/-! ### On-chip memories, DRAM, temperature (13, 15, 19) -/

/-- SP_CLEAR, the march engine, raw lines and the TRNG (R385, R397 to R401, R453): a clear takes the valid bits of its lines; a march runs and
ends, a failing line being fatal; a raw write stores line and check value as given; a raw read returns them; TRNG data is drawn. -/
def Obligations.OnChipCommandsComplete : Prop :=
  (∀ (s : State) (v : Dword), s.dev.wardenWrites = true → v.getLsbD 31 = true → 1 ≤ fld v 0 19 → fld v 0 19 ≤ 262144 →
    (s.dev.region (s.dev.get Reg.SP_CLEAR_BASE.line * 64)).onChip = true → GivesSome (.spClear v) s (fun e =>
      (∀ k, s.dev.get Reg.SP_CLEAR_BASE.line ≤ k → k < s.dev.get Reg.SP_CLEAR_BASE.line + fld v 0 19 →
        s.dev.region (k * 64) = s.dev.region (s.dev.get Reg.SP_CLEAR_BASE.line * 64) → e.mem.lines.find k = none) ∧
      (∀ k, (k < s.dev.get Reg.SP_CLEAR_BASE.line ∨ s.dev.get Reg.SP_CLEAR_BASE.line + fld v 0 19 ≤ k ∨
        s.dev.region (k * 64) ≠ s.dev.region (s.dev.get Reg.SP_CLEAR_BASE.line * 64)) → e.mem.lines.find k = s.dev.mem.lines.find k))) ∧
  (∀ (s : State) (v : Dword), s.dev.wardenWrites = true → v.getLsbD 31 = true → s.dev.mem.march = none → fld v 0 8 ≤ 81 →
    (fld v 0 8 ≠ 81 ∨ v.getLsbD 8 = true) → GivesSome (.march v) s (fun e => e.mem.march = some (fld v 0 8, v.getLsbD 8) ∧
      e.mem.lines = s.dev.mem.lines ∧ e.bit Reg.SP_STATUS.march_busy = true)) ∧
  (∀ (s : State) (r : Nat) (p : Bool), s.dev.wardenWrites = true → s.dev.mem.march = some (r, p) →
    Gives (.marchDone none) s (s.dev.marchEnded r p none) ∧
    (∀ k, k < (marchRegion r).2 → GivesSome (.marchDone (some k)) s (fun e => e.pw.phase = .deadbolt ∧ e = s.dev.marchEnded r p (some k)))) ∧
  (∀ (s : State) (a : Nat), s.dev.wardenWrites = true → s.dev.testLine = some a → GivesSome .rawWrite s (fun e =>
    ∃ l, e.chip a = some l ∧ l.crc.toNat = s.dev.get Reg.SP_TEST_CRC.crc ∧ l.poisoned = false ∧
      ∀ k, k < 16 → fld l.data (32 * k) 32 = s.dev.get (Reg.SP_TEST_DATA.data.at (4 * k)))) ∧
  (∀ (s : State) (a : Nat) (l : MemLine), s.dev.wardenWrites = true → s.dev.testLine = some a → s.dev.chip a = some l →
    GivesSome .rawReadTest s (fun e => e.get Reg.SP_TEST_CRC.crc = l.crc.toNat ∧ e.mem = s.dev.mem ∧
      ∀ k, k < 16 → e.get (Reg.SP_TEST_DATA.data.at (4 * k)) = fld l.data (32 * k) 32)) ∧
  (∀ s : State, s.dev.wardenWrites = true →
    (s.dev.bit Reg.WD_TRNG_STATUS.seeded = true → Gives .trngDataRead s (s.dev.drbg.2.served .warden (fld s.dev.drbg.1 0 32))) ∧
    (s.dev.bit Reg.WD_TRNG_STATUS.seeded = false → Gives .trngDataRead s (s.dev.served .warden (s.dev.get Reg.WD_TRNG_DATA.data))))

/-- DRAM and temperature (R402, R405, R407, R426, R447, R502, R503): the test mask, a patrol pass, the refresh rate of a hot channel, a sensor's
reading, the trip, which is fatal, the temperature bins and the timing monitor. -/
def Obligations.DramAndTemperatureComplete : Prop :=
  (∀ (s : State) (v : Dword), s.dev.wardenWrites = true → GivesSome (.dcTestMask v) s (fun e =>
    e.get Reg.DC_TEST_MASK.mask = fld v 0 16 ∧ e.bit Reg.DC_TEST_MASK.armed = v.getLsbD 31 ∧ e.mem = s.dev.mem)) ∧
  (∀ s : State, s.dev.wardenWrites = true → s.dev.get Reg.DC_STATUS.state = 2 →
    s.dev.optExpired s.dev.mem.scrubOpt (hourTicks (s.dev.get Reg.DC_SCRUB_CFG.scrub_h)) = true → Gives .patrolScrub s s.dev.scrubPass) ∧
  (∀ (s : State) (ch : Nat) (hot : Bool), s.dev.wardenWrites = true → s.dev.get Reg.DC_STATUS.state = 2 → ch < 6 →
    GivesSome (.dramTemperaturePoll ch hot) s (fun e => (ch ∈ e.mem.hotChannels ↔ hot = true) ∧
      ∀ k, k ≠ ch → (k ∈ e.mem.hotChannels ↔ k ∈ s.dev.mem.hotChannels))) ∧
  (∀ (s : State) (i : Nat) (t : BitVec 16), s.dev.sensorsRun = true → i < 24 → GivesSome (.temperatureUpdate i t) s (fun e =>
    e.get (Reg.TS_TEMP.temp.at (4 * i)) = t.toNat ∧ e.bit (Reg.TS_TEMP.valid.at (4 * i)) = true ∧ e.pw = s.dev.pw ∧ e.nand = s.dev.nand ∧
    ∀ k, k < 24 → k ≠ i → e.get (Reg.TS_TEMP.temp.at (4 * k)) = s.dev.get (Reg.TS_TEMP.temp.at (4 * k)))) ∧
  (∀ (s : State) (i : Nat), s.dev.sensorsRun = true → i < 24 → s.dev.pw.thermTrip = false → s.dev.bit (Reg.TS_TEMP.valid.at (4 * i)) = true →
    2000 ≤ s.dev.reading i → GivesSome (.thermalTrip i) s (fun e => e.pw.phase = .deadbolt ∧ e.pw.thermTrip = true)) ∧
  (∀ (s : State) (t : Int), s.dev.awake = true → s.dev.isDead = false → s.dev.ev.binSecond < s.dev.opt.toNat / 1000 → s.dev.hottest = some t →
    GivesSome .temperatureBin s (fun e => e.ev = { s.dev.ev with binSecond := s.dev.ev.binSecond + 1 } ∧
      e.get (Reg.EV_TEMP_BIN.seconds.at (4 * tempBin t)) = min (s.dev.get (Reg.EV_TEMP_BIN.seconds.at (4 * tempBin t)) + 1) (2 ^ 32 - 1))) ∧
  (∀ s : State, s.dev.optRuns = true → s.dev.pw.perstLow = false → GivesSome .tcMonitorUpdate s (fun e => 300 ≤ e.get Reg.TS_TC_MONITOR.tc_ps ∧
    e.get Reg.TS_TC_MONITOR.tc_ps ≤ 410 ∧ e.bit Reg.TS_TC_MONITOR.valid = true ∧ e.get Reg.TS_TC_MONITOR.sensor = 22))

/-! ### The code flash (12) -/

/-- The code flash's command sequences (R371 to R376): the unlock writes and 64 data words begin the program of the line in the selected
sector; the sixth erase write begins the erase, during which the sector is torn; an erase suspends and resumes; a reset ends a sequence; a
sequence left for 100 microseconds is abandoned; an operation that ends leaves its line programmed or its sector erased. -/
def Obligations.CodeFlashCommandsComplete : Prop :=
  (∀ (s : State) (off : Nat) (words : List Dword), s.dev.cfOpen = true → s.dev.cf.op = .none → s.dev.cf.seq = [] → words.length = 64 →
    off % 256 = 0 → (s.dev.isMapped (s.dev.get Reg.CF_SECTOR_SEL.sector) = false ∨ off / 256 % 256 ≠ 255) →
    GivesSome (.programLine off words) s (fun e => (∃ l, e.cf.op = .program (s.dev.get Reg.CF_SECTOR_SEL.sector) (off / 256 % 256) l ∧
        ∀ k w, words[k]? = some w → fld l (32 * k) 32 = w.toNat) ∧
      e.cf.sectors = s.dev.cf.sectors ∧ e.cf.seq = [] ∧ e.get Reg.CF_STATUS.op = 1 ∧ e.bit Reg.CF_STATUS.busy = true)) ∧
  (∀ (s : State) (off : Nat), s.dev.cfOpen = true → s.dev.cf.op = .none → s.dev.cf.seq = [] →
    s.dev.isMapped (s.dev.get Reg.CF_SECTOR_SEL.sector) = false → (s.dev.sector (s.dev.get Reg.CF_SECTOR_SEL.sector)).erases < 20000 →
    GivesSome (.sectorErase off) s (fun e => e.cf.op = .erase (s.dev.get Reg.CF_SECTOR_SEL.sector) (s.dev.nextErases (s.dev.get Reg.CF_SECTOR_SEL.sector)) ∧
      (e.sector (s.dev.get Reg.CF_SECTOR_SEL.sector)).sealed = false ∧ e.get Reg.CF_STATUS.op = 2 ∧ e.bit Reg.CF_STATUS.busy = true)) ∧
  (∀ (s : State) (off p n : Nat), s.dev.cfOpen = true → s.dev.cf.op = .erase p n →
    (s.dev.cf.suspended = false → s.dev.cf.resumedAt = none → Gives (.cfEraseSuspend off) s s.dev.suspendErase) ∧
    (s.dev.cf.suspended = true → Gives (.cfEraseResume off) s s.dev.resumeErase)) ∧
  (∀ (s : State) (off : Nat), s.dev.cfOpen = true → s.dev.cf.op = .none → s.dev.cf.seq.take 3 ≠ programStart →
    GivesSome (.cfReset off) s (fun e => e = { s.dev with cf := { s.dev.cf with seq := [] } })) ∧
  (∀ s : State, s.dev.cf.seq ≠ [] → s.dev.expired s.dev.cf.seqTick 100 = true → GivesSome .cfSequenceTimeout s (fun e =>
    e.cf.seq = [] ∧ e.bit Reg.CF_STATUS.seq_error = true ∧ e.cf.op = s.dev.cf.op ∧ e.cf.sectors = s.dev.cf.sectors)) ∧
  (∀ (s : State) (p i us : Nat) (l : FlashLine), s.dev.cf.op = .program p i l → s.dev.cf.suspended = false → us ≤ 600 → i < 255 →
    s.dev.cf.markWaits = none → s.dev.cf.stalled = [] → GivesSome (.cfOperationDone us) s (fun e => e.cf.op = .none ∧ e.get Reg.CF_OP_TIME.us = us ∧
      (e.sector p).line i = (s.dev.sector p).line i &&& l ∧ (∀ q, q ≠ p → e.sector q = s.dev.sector q) ∧
      (∀ j, j ≠ i → (e.sector p).line j = (s.dev.sector p).line j))) ∧
  (∀ (s : State) (p n us : Nat), s.dev.cf.op = .erase p n → s.dev.cf.suspended = false → s.dev.cf.stalled = [] → us ≤ 200000 →
    GivesSome (.cfOperationDone us) s (fun e => e.cf.op = .none ∧ e.sector p = { sealed := true, erases := n } ∧
      ∀ q, q ≠ p → e.sector q = s.dev.sector q))

/-! ### The event log (15) -/

/-- The recorder's commands (R438 to R448): an event of R438 is recorded; a write that is due goes to the log's two replicas; a snapshot is
written every health_s; a clear that an origin asked for is granted with its record. A record takes the next
sequence, the time and its parameters at the end of the staging ring; where the ring or the log is full it is counted as dropped. -/
def Obligations.EventCommandsComplete : Prop :=
  (∀ (s : State) (code src cls : Nat) (p0 p1 p2 : Dword), s.dev.awake = true → eventListed code src cls = true →
    Gives (.eventRecord code src cls p0 p1 p2) s (s.dev.record code src cls (0x0b00 ≤ code && code ≤ 0x0bff) p0.toNat p1.toNat p2.toNat)) ∧
  (∀ s : State, s.dev.evWorks = true → s.dev.evBusy .log = false → s.dev.ev.clears = [] → s.dev.ringDue = true → s.dev.logFull = false →
    Gives .evFlush s s.dev.writeRing) ∧
  (∀ s : State, s.dev.evWorks = true → s.dev.evBusy .log = false → s.dev.ev.clears ≠ [] → s.dev.otherHalfBusy = false →
    Gives .evFlush s (s.dev.modNand (fun n => { n with
      logHalf := !n.logHalf
      logA := 0
      logB := 0 })).writeRing) ∧
  (∀ s : State, s.dev.evWorks = true → s.dev.evBusy .health = false →
    s.dev.optExpired s.dev.ev.lastSnapshot (secTicks (s.dev.get Reg.EV_CFG.health_s)) = true →
    Gives .healthSnapshot s ((s.dev.placeBoth (s.dev.evSet .health 0 (some s.dev.healthNow))).modEv (fun e => { e with lastSnapshot := s.dev.optTicks }))) ∧
  (∀ (s : State) (origin : Nat) (acc : Option Nat), s.dev.isDead = false → s.dev.ev.asked.find? (fun a => a.1 = origin) = some (origin, acc) →
    GivesSome (.logClear origin) s (fun e => e.get Reg.EV_DROPPED.dropped = 0 ∧
      e.get Reg.EV_NEXT_SEQ.seq = (s.dev.get Reg.EV_NEXT_SEQ.seq + 1) % 2 ^ 24 ∧ e.ev.asked = s.dev.ev.asked.erase (origin, acc) ∧
      ∃ c, e.ev.clears = s.dev.ev.clears ++ [c] ∧ c.origin = origin ∧ c.acc = acc ∧ c.held = s.dev.evHeld ∧ c.record.code = 0x0e01 ∧
        c.record.seq = s.dev.get Reg.EV_NEXT_SEQ.seq ∧ e.ev.ring.getLast? = some c.record)) ∧
  (∀ (d : Dev) (code src cls p0 p1 p2 : Nat) (req : Bool),
    (d.logFull = false → d.ev.ring.length < 4096 →
      (d.letIn code src cls req p0 p1 p2).ev.ring = d.ev.ring ++ [⟨BitVec.ofNat 16 code, src, cls, req, d.get Reg.EV_NEXT_SEQ.seq, d.pcc, d.opt,
        BitVec.ofNat 32 p0, BitVec.ofNat 32 p1, BitVec.ofNat 32 p2⟩] ∧
      (d.letIn code src cls req p0 p1 p2).get Reg.EV_NEXT_SEQ.seq = (d.get Reg.EV_NEXT_SEQ.seq + 1) % 2 ^ 24 ∧
      (d.letIn code src cls req p0 p1 p2).get Reg.EV_DROPPED.dropped = d.get Reg.EV_DROPPED.dropped) ∧
    ((d.logFull = true ∨ 4096 ≤ d.ev.ring.length) →
      (d.letIn code src cls req p0 p1 p2).ev = d.ev ∧
      (d.letIn code src cls req p0 p1 p2).get Reg.EV_NEXT_SEQ.seq = d.get Reg.EV_NEXT_SEQ.seq ∧
      (d.letIn code src cls req p0 p1 p2).get Reg.EV_DROPPED.dropped = min (d.get Reg.EV_DROPPED.dropped + 1) (2 ^ 32 - 1)))

/-! ### The maintenance port (16) -/

/-- The UART's commands (R465; the form of the replies is log 31): each is served where its place serves it. -/
def Obligations.UartCommandsComplete : Prop :=
  (∀ s : State, s.dev.uartPlace ≠ .silent →
    Gives .id s (s.dev.heard.uartReply [hexBytes Config.deviceId.toNat 8, hexBytes Config.agreementKey.toNat 96,
      hexBytes (s.dev.heard.get Reg.PW_BOOT_CAUSE.cause) 1] 0) ∧
    Gives .fault s (s.dev.heard.uartReply [hexBytes s.dev.heard.faultWindow 256] 0) ∧
    Gives .log s (s.dev.heard.uartReply ((if s.dev.heard.uartPlace == .run then s.dev.heard.heldRecords else s.dev.heard.ev.ring).map
      (fun e => hexBytes (eventBytes e) 32)) 0)) ∧
  (∀ s : State, s.dev.uartPlace = .run →
    Gives .clear s (s.dev.heard.modEv (fun e => { e with asked := e.asked ++ [(2, none)] })) ∧
    Gives .lock s (s.dev.heard.lockMt.uartReply [] 0) ∧
    (s.dev.bit Reg.MT_AUTH_CFG.challenge = true → GivesSome .chal s (fun e => ∃ n, e.mt.nonce = some (n, e.now) ∧ e.mt.unlocked = s.dev.mt.unlocked)) ∧
    (s.dev.bit Reg.MT_AUTH_CFG.challenge = true → ∀ sig, Gives (.resp sig) s
      ((s.dev.heard.modMt (fun m => { m with nonce := none })).attempt 1 (s.dev.heard.respOk sig))) ∧
    (s.dev.bit Reg.MT_AUTH_CFG.password = true → ∀ text, Gives (.pass text) s (s.dev.heard.attempt 2 (s.dev.heard.passOk text)))) ∧
  (∀ (s : State) (line : List Byte), s.dev.uartPlace ≠ .silent → (∀ x ∈ s.dev.servedWords, textBytes x ≠ line.takeWhile (fun b => b != 32)) →
    Gives (.unknownCommand line) s (s.dev.heard.uartReply [] 1)) ∧
  (∀ (s : State) (v : Dword), s.dev.wardenWrites = true → v.getLsbD 0 = true → GivesSome (.mtLock v) s (fun e =>
    e = { s.dev with mt := { s.dev.mt with unlocked := false } })) ∧
  (∀ (s : State) (n : BitVec 256) (t : Nat), s.dev.mt.nonce = some (n, t) → s.dev.expired t (secTicks 60) = true →
    GivesSome .nonceExpiry s (fun e => e = { s.dev with mt := { s.dev.mt with nonce := none } })) ∧
  (∀ (s : State) (t n : Nat), s.dev.mt.delay = some (t, n) → s.dev.expired t (secTicks n) = true →
    GivesSome .unlockDelayExpiry s (fun e => e = { s.dev with mt := { s.dev.mt with delay := none } }))

/-- Unlock attempts (R467, R468): one that is right and not delayed unlocks the port and ends the count of failures; one that is wrong counts,
and the next is refused for 1, 2, 4 … seconds, 64 at most; one made during the delay is refused and leaves the delay. -/
def Obligations.UnlockAttempts : Prop :=
  ∀ (d : Dev) (method : Nat) (ok : Bool),
    (d.attempt method ok).mt.attempts = d.mt.attempts + 1 ∧
    (ok = true → d.mt.delay = none → (d.attempt method ok).mt.unlocked = true ∧ (d.attempt method ok).mt.mode = method ∧
      (d.attempt method ok).mt.failures = 0) ∧
    ((ok = false ∨ d.mt.delay ≠ none) → (d.attempt method ok).mt.unlocked = d.mt.unlocked ∧
      (d.attempt method ok).mt.failures = d.mt.failures + 1) ∧
    (ok = false → d.mt.delay = none → (d.attempt method ok).mt.delay = some (d.now, min (2 ^ d.mt.failures) 64)) ∧
    (d.mt.delay ≠ none → (d.attempt method ok).mt.delay = d.mt.delay)

/-- The TAP (R463, R464, R505, R506): BYPASS captures 0; IDCODE shifts out 0x14096D75; SAMPLE/PRELOAD and EXTEST shift the cells' capture out;
a reset selects IDCODE; a debug access is BYPASS while the port is locked. -/
def Obligations.TapCommandsComplete : Prop :=
  ∀ s : State, s.dev.tapOn = true →
    Gives .bypass s ((s.dev.tapInstr 0).emit (.tdo 1 0)) ∧
    GivesSome .idcode s (fun e => e.out = s.dev.out ++ [.tdo 32 0x14096d75] ∧ e.mt.tapInstr = 1) ∧
    (∀ p, GivesSome (.samplePreload p) s (fun e => e.mt.tapInstr = 2 ∧ e.mt.boundary = p ∧
      e.out = s.dev.out ++ [.tdo 3169 (Config.boundarySample s.dev.freeCtr)])) ∧
    GivesSome .extest s (fun e => e.mt.tapInstr = 3 ∧ e.mt.boundary = s.dev.mt.boundary ∧
      e.out = s.dev.out ++ [.tdo 3169 (Config.boundarySample s.dev.freeCtr)]) ∧
    GivesSome .tapReset s (fun e => e = { s.dev with mt := { s.dev.mt with tapInstr := 1 } }) ∧
    (∀ op, s.dev.mt.unlocked = true → s.dev.isDead = false → Gives (.debugAccess op) s (s.dev.debug op)) ∧
    (∀ op, s.dev.mt.unlocked = false → Gives (.debugAccess op) s ((s.dev.tapInstr 0).emit (.tdo 1 0)))
end

