-- ==== Sys2Proof/Laws/Outcome.lean ====
section
/-! SUPPORT. What a command's answer is: run, act and actOn always answer a next state, which differs from the old one in the
device only. -/

namespace Sys2Proof.Machine

@[simp] theorem run_eq (s : State) (f : Dev → Dev) : run s f = .next { s with dev := f s.dev } := rfl

/-- The enabling condition holds. -/
theorem act_true {s : State} {c : Dev → Bool} {f : Dev → Dev} (h : c s.dev = true) :
    act s c f = .next { s with dev := f s.dev } := by
  simp [act, h]

/-- It does not hold: nothing happens. -/
theorem act_false {s : State} {c : Dev → Bool} {f : Dev → Dev} (h : c s.dev = false) : act s c f = .next s := by
  simp [act, h]

/-- The item exists. -/
theorem actOn_some {α : Type} {s : State} {o : Dev → Option α} {f : Dev → α → Dev} {a : α} (h : o s.dev = some a) :
    actOn s o f = .next { s with dev := f s.dev a } := by
  simp [actOn, h]

/-- It does not: nothing happens. -/
theorem actOn_none {α : Type} {s : State} {o : Dev → Option α} {f : Dev → α → Dev} (h : o s.dev = none) :
    actOn s o f = .next s := by
  simp [actOn, h]

/-- Everything act can do: a next state with the queue unchanged, whose device is f's where the condition holds and the old
one elsewhere. -/
theorem act_next {s t : State} {c : Dev → Bool} {f : Dev → Dev} (h : act s c f = .next t) :
    t.pending = s.pending ∧ t.dev = if c s.dev then f s.dev else s.dev := by
  simp only [act, run_eq, Host.Outcome.next.injEq] at h
  subst h
  exact ⟨rfl, rfl⟩

/-- Everything actOn can do. -/
theorem actOn_next {α : Type} {s t : State} {o : Dev → Option α} {f : Dev → α → Dev} (h : actOn s o f = .next t) :
    t.pending = s.pending ∧ ((o s.dev = none ∧ t.dev = s.dev) ∨ ∃ a, o s.dev = some a ∧ t.dev = f s.dev a) := by
  simp only [actOn, run_eq, Host.Outcome.next.injEq] at h
  subst h
  refine ⟨rfl, ?_⟩
  cases e : o s.dev with
  | none => simp
  | some a => simp

theorem act_answers (s : State) (c : Dev → Bool) (f : Dev → Dev) : ∃ d, act s c f = .next { s with dev := d } := ⟨_, rfl⟩

theorem actOn_answers {α : Type} (s : State) (o : Dev → Option α) (f : Dev → α → Dev) :
    ∃ d, actOn s o f = .next { s with dev := d } := ⟨_, rfl⟩

/-! ### Folds over lists -/

@[simp] theorem Dev.each_nil {α : Type} (d : Dev) (f : Dev → α → Dev) : d.each [] f = d := rfl
@[simp] theorem Dev.each_cons {α : Type} (d : Dev) (a : α) (l : List α) (f : Dev → α → Dev) :
    d.each (a :: l) f = (f d a).each l f := rfl
theorem Dev.each_append {α : Type} (d : Dev) (l m : List α) (f : Dev → α → Dev) :
    d.each (l ++ m) f = (d.each l f).each m f := List.foldl_append ..

/-- What every step of a fold keeps, the fold keeps. -/
theorem Dev.each_keeps {α β : Type} (π : Dev → β) (f : Dev → α → Dev) (h : ∀ d a, π (f d a) = π d) (d : Dev) (l : List α) :
    π (d.each l f) = π d := by
  induction l generalizing d with
  | nil => rfl
  | cons a l ih => rw [Dev.each_cons, ih, h]

end Sys2Proof.Machine
end

