-- ==== Sys2Proof/Laws/Table.lean ====
section
/-! SUPPORT. The laws of the sparse tables: what a find sees after a put, an erase, a set or a modify, and that each of
them keeps the canonical form (indices rising strictly). -/

namespace Sys2Proof

@[simp] theorem Tbl.find_nil {α : Type} (k : Nat) : Tbl.find ([] : Tbl α) k = none := rfl

theorem Tbl.find_cons {α : Type} (i k : Nat) (v : α) (r : Tbl α) :
    Tbl.find ((i, v) :: r) k = if i = k then some v else Tbl.find r k := rfl

@[simp] theorem Tbl.find_put_same {α : Type} (t : Tbl α) (k : Nat) (v : α) : (Tbl.put t k v).find k = some v := by
  induction t with
  | nil => simp [Tbl.put, Tbl.find]
  | cons p r ih =>
    obtain ⟨i, w⟩ := p
    simp only [Tbl.put]
    split
    · simp [Tbl.find]
    · split
      · simp [Tbl.find]
      · next h => simp [Tbl.find, Ne.symm h, ih]

theorem Tbl.find_put_other {α : Type} (t : Tbl α) (k j : Nat) (v : α) (h : j ≠ k) :
    (Tbl.put t k v).find j = Tbl.find t j := by
  induction t with
  | nil => simp [Tbl.put, Tbl.find, Ne.symm h]
  | cons p r ih =>
    obtain ⟨i, w⟩ := p
    simp only [Tbl.put]
    split
    · simp [Tbl.find, Ne.symm h]
    · split
      · next e => subst e; simp [Tbl.find, Ne.symm h]
      · simp [Tbl.find, ih]

@[simp] theorem Tbl.find_erase_same {α : Type} (t : Tbl α) (k : Nat) : (Tbl.erase t k).find k = none := by
  induction t with
  | nil => rfl
  | cons p r ih =>
    obtain ⟨i, w⟩ := p
    simp only [Tbl.erase, List.filter] at ih ⊢
    split
    · next h => simp only [Tbl.find, bne_iff_ne, ne_eq] at h ⊢; simpa [h] using ih
    · exact ih

theorem Tbl.find_erase_other {α : Type} (t : Tbl α) (k j : Nat) (h : j ≠ k) : (Tbl.erase t k).find j = Tbl.find t j := by
  induction t with
  | nil => rfl
  | cons p r ih =>
    obtain ⟨i, w⟩ := p
    simp only [Tbl.erase, List.filter] at ih ⊢
    split
    · simp only [Tbl.find, ih]
    · next e =>
      have : i = k := by simpa using e
      simp only [Tbl.find, this, Ne.symm h, if_false, ih]

@[simp] theorem Tbl.find_modify_same {α : Type} (t : Tbl α) (k : Nat) (f : α → α) :
    (Tbl.modify t k f).find k = (Tbl.find t k).map f := by
  induction t with
  | nil => rfl
  | cons p r ih =>
    obtain ⟨i, w⟩ := p
    simp only [Tbl.modify, List.map_cons] at ih ⊢
    by_cases h : i = k <;> simp [Tbl.find, h, ih]

theorem Tbl.find_modify_other {α : Type} (t : Tbl α) (k j : Nat) (f : α → α) (h : j ≠ k) :
    (Tbl.modify t k f).find j = Tbl.find t j := by
  induction t with
  | nil => rfl
  | cons p r ih =>
    obtain ⟨i, w⟩ := p
    simp only [Tbl.modify, List.map_cons] at ih ⊢
    by_cases e : i = k
    · subst e; simp [Tbl.find, Ne.symm h, ih]
    · simp [Tbl.find, e, ih]

/-! ### The canonical form -/

@[simp] theorem Tbl.wf_nil {α : Type} : Tbl.wf ([] : Tbl α) := List.Pairwise.nil

theorem Tbl.wf_put {α : Type} {t : Tbl α} (k : Nat) (v : α) (h : Tbl.wf t) : Tbl.wf (Tbl.put t k v) := by
  have mem : ∀ (t : Tbl α) (p : Nat × α), p ∈ Tbl.put t k v → p.1 = k ∨ p ∈ t := by
    intro t
    induction t with
    | nil => intro p hp; simp [Tbl.put] at hp; simp [hp]
    | cons q r ih =>
      obtain ⟨i, w⟩ := q
      intro p hp
      simp only [Tbl.put] at hp
      split at hp
      · rcases List.mem_cons.mp hp with e | e
        · simp [e]
        · exact .inr e
      · split at hp
        · rcases List.mem_cons.mp hp with e | e
          · simp [e]
          · exact .inr (List.mem_cons_of_mem _ e)
        · rcases List.mem_cons.mp hp with e | e
          · simp [e]
          · rcases ih p e with e | e
            · exact .inl e
            · exact .inr (List.mem_cons_of_mem _ e)
  induction t with
  | nil => simp [Tbl.put]
  | cons q r ih =>
    obtain ⟨i, w⟩ := q
    obtain ⟨h1, h2⟩ := List.pairwise_cons.mp h
    simp only [Tbl.put]
    split
    · next lt =>
      refine List.pairwise_cons.mpr ⟨?_, h⟩
      intro p hp
      rcases List.mem_cons.mp hp with e | e
      · simp [e, lt]
      · exact Nat.lt_trans lt (h1 p e)
    · split
      · next e => subst e; exact List.pairwise_cons.mpr ⟨h1, h2⟩
      · next nlt ne =>
        refine List.pairwise_cons.mpr ⟨?_, ih h2⟩
        intro p hp
        rcases mem r p hp with e | e
        · simp only [e]; omega
        · exact h1 p e

theorem Tbl.wf_filter {α : Type} {t : Tbl α} (f : Nat × α → Bool) (h : Tbl.wf t) : Tbl.wf (t.filter f) :=
  List.Pairwise.filter f h

theorem Tbl.wf_erase {α : Type} {t : Tbl α} (k : Nat) (h : Tbl.wf t) : Tbl.wf (Tbl.erase t k) := Tbl.wf_filter _ h

theorem Tbl.wf_set {α : Type} {t : Tbl α} (k : Nat) (v : Option α) (h : Tbl.wf t) : Tbl.wf (Tbl.set t k v) := by
  cases v with
  | none => exact Tbl.wf_erase k h
  | some v => exact Tbl.wf_put k v h

theorem Tbl.wf_modify {α : Type} {t : Tbl α} (k : Nat) (f : α → α) (h : Tbl.wf t) : Tbl.wf (Tbl.modify t k f) := by
  refine List.Pairwise.map _ ?_ h
  intro a b hab
  by_cases ha : a.1 = k <;> by_cases hb : b.1 = k <;> simp [ha, hb] <;> omega

end Sys2Proof
end

