-- ==== Sys2Proof/Laws/Regs.lean ====
section
/-! SUPPORT. The laws of the register table: a register and a field read after a write, what a write leaves alone, and that
every write keeps the table in its canonical form (indices rising, no register listed that holds its reset value). -/

namespace Sys2Proof.Machine

/-! ### Registers -/

theorem reset_lt (a : Nat) : Regs.reset a < 2 ^ 64 := by
  unfold Regs.reset
  split
  · unfold Regs.routeReset
    split
    · omega
    · split
      · next h => simp only [Regs.fixedBolt, Bool.and_eq_true, decide_eq_true_eq] at h; omega
      · omega
  · repeat' split
    all_goals first | omega | skip
    next p hp =>
      have all : ∀ x ∈ Regs.resets, x.2 < 2 ^ 64 := by decide
      exact all p (List.mem_of_find?_eq_some hp)

/-- A register is 64 bits wide at most. -/
theorem Dev.reg_lt (d : Dev) (a : Nat) : d.reg a < 2 ^ 64 := by
  unfold Dev.reg
  split
  · next v _ => exact v.isLt
  · exact reset_lt a

theorem Dev.reg_setReg_same (d : Dev) (a v : Nat) (h : v < 2 ^ 64) : (d.setReg a v).reg a = v := by
  unfold Dev.reg Dev.setReg Tbl.set
  by_cases e : v = Regs.reset a
  · simp [e]
  · simp [e]; omega

theorem Dev.reg_setReg_other (d : Dev) (a b v : Nat) (h : b ≠ a) : (d.setReg a v).reg b = d.reg b := by
  unfold Dev.reg Dev.setReg Tbl.set
  by_cases e : v = Regs.reset a
  · simp [e, Tbl.find_erase_other _ _ _ h]
  · simp [e, Tbl.find_put_other _ _ _ _ h]

/-- The register table's canonical form: indices rise, and no entry equals what an unlisted register reads as. -/
def Dev.regsWf (d : Dev) : Prop := Tbl.wf d.regs ∧ ∀ e ∈ d.regs, e.2.toNat ≠ Regs.reset e.1

theorem Tbl.mem_put {α : Type} {t : Tbl α} {k : Nat} {v : α} {p : Nat × α} (h : p ∈ Tbl.put t k v) : p = (k, v) ∨ p ∈ t := by
  induction t with
  | nil => simpa [Tbl.put] using h
  | cons q r ih =>
    simp only [Tbl.put] at h
    split at h
    · simpa using h
    · split at h
      · rcases List.mem_cons.mp h with e | e
        · exact .inl e
        · exact .inr (List.mem_cons_of_mem _ e)
      · rcases List.mem_cons.mp h with e | e
        · exact .inr (by simp [e])
        · rcases ih e with e | e
          · exact .inl e
          · exact .inr (List.mem_cons_of_mem _ e)

theorem Dev.regsWf_setReg {d : Dev} (a v : Nat) (hv : v < 2 ^ 64) (h : d.regsWf) : (d.setReg a v).regsWf := by
  refine ⟨Tbl.wf_set _ _ h.1, ?_⟩
  intro e he
  unfold Dev.setReg Tbl.set at he
  by_cases c : v = Regs.reset a
  · simp only [c, if_true] at he
    exact h.2 e (List.mem_of_mem_filter he)
  · simp only [c, if_false] at he
    rcases Tbl.mem_put he with x | x
    · subst x
      simp only [BitVec.toNat_ofNat, Nat.mod_eq_of_lt hv]
      exact c
    · exact h.2 e x

/-! ### Fields -/

/-- A word whose field at bit l, w bits wide, is set to y: the bits below it, the field and the bits above it. -/
theorem setField_eq (r l w y : Nat) :
    r - ((r >>> l) % 2 ^ w) <<< l + (y % 2 ^ w) <<< l = r % 2 ^ l + (r / 2 ^ l / 2 ^ w * 2 ^ w + y % 2 ^ w) * 2 ^ l := by
  simp only [Nat.shiftRight_eq_div_pow, Nat.shiftLeft_eq]
  have h1 := Nat.div_add_mod r (2 ^ l)
  have h2 := Nat.div_add_mod (r / 2 ^ l) (2 ^ w)
  generalize r / 2 ^ l / 2 ^ w = k at *
  generalize r / 2 ^ l % 2 ^ w = m at *
  generalize r % 2 ^ l = n at *
  generalize y % 2 ^ w = z at *
  generalize r / 2 ^ l = q at *
  subst h2
  subst h1
  rw [Nat.mul_add, Nat.add_mul]
  have : 2 ^ l * m = m * 2 ^ l := Nat.mul_comm _ _
  have e : 2 ^ l * (2 ^ w * k) = k * 2 ^ w * 2 ^ l := by ring
  omega

theorem setField_lt {r l w : Nat} (y : Nat) (hr : r < 2 ^ 64) (h : l + w ≤ 64) :
    r - ((r >>> l) % 2 ^ w) <<< l + (y % 2 ^ w) <<< l < 2 ^ 64 := by
  rw [setField_eq]
  obtain ⟨k, hk⟩ : ∃ k, 64 = l + w + k := ⟨64 - (l + w), by omega⟩
  have e : (2 : Nat) ^ 64 = 2 ^ k * 2 ^ w * 2 ^ l := by rw [hk, pow_add, pow_add]; ring
  rw [e] at hr ⊢
  have h1 : r / 2 ^ l / 2 ^ w < 2 ^ k := by
    rw [Nat.div_div_eq_div_mul, Nat.div_lt_iff_lt_mul (by positivity)]
    calc r < 2 ^ k * 2 ^ w * 2 ^ l := hr
      _ = 2 ^ k * (2 ^ l * 2 ^ w) := by ring
  have h2 : y % 2 ^ w < 2 ^ w := Nat.mod_lt _ (by positivity)
  have h3 : r % 2 ^ l < 2 ^ l := Nat.mod_lt _ (by positivity)
  have h4 : r / 2 ^ l / 2 ^ w * 2 ^ w + y % 2 ^ w + 1 ≤ 2 ^ k * 2 ^ w := by
    calc r / 2 ^ l / 2 ^ w * 2 ^ w + y % 2 ^ w + 1 ≤ r / 2 ^ l / 2 ^ w * 2 ^ w + 2 ^ w := by omega
      _ = (r / 2 ^ l / 2 ^ w + 1) * 2 ^ w := by ring
      _ ≤ 2 ^ k * 2 ^ w := Nat.mul_le_mul_right _ h1
  calc r % 2 ^ l + (r / 2 ^ l / 2 ^ w * 2 ^ w + y % 2 ^ w) * 2 ^ l
      < 2 ^ l + (r / 2 ^ l / 2 ^ w * 2 ^ w + y % 2 ^ w) * 2 ^ l := by omega
    _ = (r / 2 ^ l / 2 ^ w * 2 ^ w + y % 2 ^ w + 1) * 2 ^ l := by ring
    _ ≤ 2 ^ k * 2 ^ w * 2 ^ l := Nat.mul_le_mul_right _ h4

theorem setField_same (r l w y : Nat) :
    ((r - ((r >>> l) % 2 ^ w) <<< l + (y % 2 ^ w) <<< l) >>> l) % 2 ^ w = y % 2 ^ w := by
  rw [setField_eq, Nat.shiftRight_eq_div_pow, Nat.add_mul_div_right _ _ (by positivity),
    Nat.div_eq_of_lt (Nat.mod_lt _ (by positivity)), Nat.zero_add, Nat.add_comm, Nat.add_mul_mod_self_right, Nat.mod_mod]

theorem setField_above (r l w y m n : Nat) (h : l + w ≤ m) :
    ((r - ((r >>> l) % 2 ^ w) <<< l + (y % 2 ^ w) <<< l) >>> m) % 2 ^ n = (r >>> m) % 2 ^ n := by
  obtain ⟨k, rfl⟩ := Nat.exists_eq_add_of_le h
  rw [setField_eq, Nat.shiftRight_eq_div_pow, Nat.shiftRight_eq_div_pow, pow_add, pow_add, ← Nat.div_div_eq_div_mul,
    ← Nat.div_div_eq_div_mul, Nat.add_mul_div_right _ _ (by positivity), Nat.div_eq_of_lt (Nat.mod_lt _ (by positivity)),
    Nat.zero_add, Nat.add_comm, Nat.add_mul_div_right _ _ (by positivity), Nat.div_eq_of_lt (Nat.mod_lt _ (by positivity)),
    Nat.zero_add, ← Nat.div_div_eq_div_mul, ← Nat.div_div_eq_div_mul]

theorem setField_below (r l w y m n : Nat) (h : m + n ≤ l) :
    ((r - ((r >>> l) % 2 ^ w) <<< l + (y % 2 ^ w) <<< l) >>> m) % 2 ^ n = (r >>> m) % 2 ^ n := by
  obtain ⟨k, rfl⟩ := Nat.exists_eq_add_of_le h
  rw [setField_eq]
  generalize r / 2 ^ (m + n + k) / 2 ^ w * 2 ^ w + y % 2 ^ w = c
  simp only [Nat.shiftRight_eq_div_pow]
  have e : c * 2 ^ (m + n + k) = c * 2 ^ k * 2 ^ n * 2 ^ m := by rw [pow_add, pow_add]; ring
  have f : 2 ^ (m + n + k) = 2 ^ m * (2 ^ n * 2 ^ k) := by rw [pow_add, pow_add]; ring
  rw [e, Nat.add_mul_div_right _ _ (by positivity), Nat.add_mul_mod_self_right, f, Nat.mod_mul_right_div_self,
    Nat.mod_mul_right_mod]

/-- A field set reads as the value, modulo its width. -/
theorem Dev.get_put_same (d : Dev) (f : Fld) (v : Nat) (h : f.lsb + f.width ≤ 64) :
    (d.put f v).get f = v % 2 ^ f.width := by
  unfold Dev.put Dev.get
  rw [Dev.reg_setReg_same _ _ _ (setField_lt v (d.reg_lt _) h)]
  exact setField_same _ _ _ _

/-- A field of another register stays. -/
theorem Dev.get_put_other (d : Dev) (f g : Fld) (v : Nat) (h : g.addr ≠ f.addr) : (d.put f v).get g = d.get g := by
  unfold Dev.put Dev.get
  rw [Dev.reg_setReg_other _ _ _ _ h]

/-- A field of the same register that shares no bit stays. -/
theorem Dev.get_put_apart (d : Dev) (f g : Fld) (v : Nat) (h : f.lsb + f.width ≤ 64)
    (a : f.lsb + f.width ≤ g.lsb ∨ g.lsb + g.width ≤ f.lsb) : (d.put f v).get g = d.get g := by
  by_cases e : g.addr = f.addr
  · unfold Dev.put Dev.get
    rw [e, Dev.reg_setReg_same _ _ _ (setField_lt v (d.reg_lt _) h)]
    rcases a with a | a
    · exact setField_above _ _ _ _ _ _ a
    · exact setField_below _ _ _ _ _ _ a
  · exact Dev.get_put_other _ _ _ _ e

theorem Dev.reg_put_other (d : Dev) (f : Fld) (v b : Nat) (h : b ≠ f.addr) : (d.put f v).reg b = d.reg b :=
  Dev.reg_setReg_other _ _ _ _ h

theorem Dev.get_lt (d : Dev) (f : Fld) : d.get f < 2 ^ f.width := Nat.mod_lt _ (by positivity)

/-- A saturating count never falls. -/
theorem Dev.get_addSat (d : Dev) (f : Fld) (n : Nat) (h : f.lsb + f.width ≤ 64) :
    (d.addSat f n).get f = min (d.get f + n) (2 ^ f.width - 1) := by
  unfold Dev.addSat
  rw [Dev.get_put_same _ _ _ h, Nat.mod_eq_of_lt]
  have : 0 < 2 ^ f.width := by positivity
  omega

theorem Dev.regsWf_put {d : Dev} (f : Fld) (v : Nat) (h : f.lsb + f.width ≤ 64) (w : d.regsWf) : (d.put f v).regsWf :=
  Dev.regsWf_setReg _ _ (setField_lt v (d.reg_lt _) h) w

end Sys2Proof.Machine
end

