-- ==== Sys2Proof/Laws/State.lean ====
section
/-! SUPPORT. One law per field for each of the updates that the meanings are built of: what the field is afterwards. No later
proof unfolds a record update. -/

namespace Sys2Proof.Machine

/-! ### Dev.modPw -/

@[simp] theorem Dev.modPw_regs (d : Dev) (f : Pw → Pw) : (d.modPw f).regs = d.regs := rfl
@[simp] theorem Dev.modPw_pw (d : Dev) (f : Pw → Pw) : (d.modPw f).pw = f d.pw := rfl
@[simp] theorem Dev.modPw_port0 (d : Dev) (f : Pw → Pw) : (d.modPw f).port0 = d.port0 := rfl
@[simp] theorem Dev.modPw_port1 (d : Dev) (f : Pw → Pw) : (d.modPw f).port1 = d.port1 := rfl
@[simp] theorem Dev.modPw_qe (d : Dev) (f : Pw → Pw) : (d.modPw f).qe = d.qe := rfl
@[simp] theorem Dev.modPw_bm (d : Dev) (f : Pw → Pw) : (d.modPw f).bm = d.bm := rfl
@[simp] theorem Dev.modPw_mp (d : Dev) (f : Pw → Pw) : (d.modPw f).mp = d.mp := rfl
@[simp] theorem Dev.modPw_ms (d : Dev) (f : Pw → Pw) : (d.modPw f).ms = d.ms := rfl
@[simp] theorem Dev.modPw_cd (d : Dev) (f : Pw → Pw) : (d.modPw f).cd = d.cd := rfl
@[simp] theorem Dev.modPw_cx (d : Dev) (f : Pw → Pw) : (d.modPw f).cx = d.cx := rfl
@[simp] theorem Dev.modPw_rc (d : Dev) (f : Pw → Pw) : (d.modPw f).rc = d.rc := rfl
@[simp] theorem Dev.modPw_rings (d : Dev) (f : Pw → Pw) : (d.modPw f).rings = d.rings := rfl
@[simp] theorem Dev.modPw_cores (d : Dev) (f : Pw → Pw) : (d.modPw f).cores = d.cores := rfl
@[simp] theorem Dev.modPw_mem (d : Dev) (f : Pw → Pw) : (d.modPw f).mem = d.mem := rfl
@[simp] theorem Dev.modPw_cf (d : Dev) (f : Pw → Pw) : (d.modPw f).cf = d.cf := rfl
@[simp] theorem Dev.modPw_image (d : Dev) (f : Pw → Pw) : (d.modPw f).image = d.image := rfl
@[simp] theorem Dev.modPw_host (d : Dev) (f : Pw → Pw) : (d.modPw f).host = d.host := rfl
@[simp] theorem Dev.modPw_ft (d : Dev) (f : Pw → Pw) : (d.modPw f).ft = d.ft := rfl
@[simp] theorem Dev.modPw_ev (d : Dev) (f : Pw → Pw) : (d.modPw f).ev = d.ev := rfl
@[simp] theorem Dev.modPw_mt (d : Dev) (f : Pw → Pw) : (d.modPw f).mt = d.mt := rfl
@[simp] theorem Dev.modPw_nand (d : Dev) (f : Pw → Pw) : (d.modPw f).nand = d.nand := rfl
@[simp] theorem Dev.modPw_out (d : Dev) (f : Pw → Pw) : (d.modPw f).out = d.out := rfl
@[simp] theorem Dev.modPw_freeCtr (d : Dev) (f : Pw → Pw) : (d.modPw f).freeCtr = d.freeCtr := rfl

/-! ### Dev.modQe -/

@[simp] theorem Dev.modQe_regs (d : Dev) (f : Qe → Qe) : (d.modQe f).regs = d.regs := rfl
@[simp] theorem Dev.modQe_pw (d : Dev) (f : Qe → Qe) : (d.modQe f).pw = d.pw := rfl
@[simp] theorem Dev.modQe_port0 (d : Dev) (f : Qe → Qe) : (d.modQe f).port0 = d.port0 := rfl
@[simp] theorem Dev.modQe_port1 (d : Dev) (f : Qe → Qe) : (d.modQe f).port1 = d.port1 := rfl
@[simp] theorem Dev.modQe_qe (d : Dev) (f : Qe → Qe) : (d.modQe f).qe = f d.qe := rfl
@[simp] theorem Dev.modQe_bm (d : Dev) (f : Qe → Qe) : (d.modQe f).bm = d.bm := rfl
@[simp] theorem Dev.modQe_mp (d : Dev) (f : Qe → Qe) : (d.modQe f).mp = d.mp := rfl
@[simp] theorem Dev.modQe_ms (d : Dev) (f : Qe → Qe) : (d.modQe f).ms = d.ms := rfl
@[simp] theorem Dev.modQe_cd (d : Dev) (f : Qe → Qe) : (d.modQe f).cd = d.cd := rfl
@[simp] theorem Dev.modQe_cx (d : Dev) (f : Qe → Qe) : (d.modQe f).cx = d.cx := rfl
@[simp] theorem Dev.modQe_rc (d : Dev) (f : Qe → Qe) : (d.modQe f).rc = d.rc := rfl
@[simp] theorem Dev.modQe_rings (d : Dev) (f : Qe → Qe) : (d.modQe f).rings = d.rings := rfl
@[simp] theorem Dev.modQe_cores (d : Dev) (f : Qe → Qe) : (d.modQe f).cores = d.cores := rfl
@[simp] theorem Dev.modQe_mem (d : Dev) (f : Qe → Qe) : (d.modQe f).mem = d.mem := rfl
@[simp] theorem Dev.modQe_cf (d : Dev) (f : Qe → Qe) : (d.modQe f).cf = d.cf := rfl
@[simp] theorem Dev.modQe_image (d : Dev) (f : Qe → Qe) : (d.modQe f).image = d.image := rfl
@[simp] theorem Dev.modQe_host (d : Dev) (f : Qe → Qe) : (d.modQe f).host = d.host := rfl
@[simp] theorem Dev.modQe_ft (d : Dev) (f : Qe → Qe) : (d.modQe f).ft = d.ft := rfl
@[simp] theorem Dev.modQe_ev (d : Dev) (f : Qe → Qe) : (d.modQe f).ev = d.ev := rfl
@[simp] theorem Dev.modQe_mt (d : Dev) (f : Qe → Qe) : (d.modQe f).mt = d.mt := rfl
@[simp] theorem Dev.modQe_nand (d : Dev) (f : Qe → Qe) : (d.modQe f).nand = d.nand := rfl
@[simp] theorem Dev.modQe_out (d : Dev) (f : Qe → Qe) : (d.modQe f).out = d.out := rfl
@[simp] theorem Dev.modQe_freeCtr (d : Dev) (f : Qe → Qe) : (d.modQe f).freeCtr = d.freeCtr := rfl

/-! ### Dev.modBm -/

@[simp] theorem Dev.modBm_regs (d : Dev) (f : Bm → Bm) : (d.modBm f).regs = d.regs := rfl
@[simp] theorem Dev.modBm_pw (d : Dev) (f : Bm → Bm) : (d.modBm f).pw = d.pw := rfl
@[simp] theorem Dev.modBm_port0 (d : Dev) (f : Bm → Bm) : (d.modBm f).port0 = d.port0 := rfl
@[simp] theorem Dev.modBm_port1 (d : Dev) (f : Bm → Bm) : (d.modBm f).port1 = d.port1 := rfl
@[simp] theorem Dev.modBm_qe (d : Dev) (f : Bm → Bm) : (d.modBm f).qe = d.qe := rfl
@[simp] theorem Dev.modBm_bm (d : Dev) (f : Bm → Bm) : (d.modBm f).bm = f d.bm := rfl
@[simp] theorem Dev.modBm_mp (d : Dev) (f : Bm → Bm) : (d.modBm f).mp = d.mp := rfl
@[simp] theorem Dev.modBm_ms (d : Dev) (f : Bm → Bm) : (d.modBm f).ms = d.ms := rfl
@[simp] theorem Dev.modBm_cd (d : Dev) (f : Bm → Bm) : (d.modBm f).cd = d.cd := rfl
@[simp] theorem Dev.modBm_cx (d : Dev) (f : Bm → Bm) : (d.modBm f).cx = d.cx := rfl
@[simp] theorem Dev.modBm_rc (d : Dev) (f : Bm → Bm) : (d.modBm f).rc = d.rc := rfl
@[simp] theorem Dev.modBm_rings (d : Dev) (f : Bm → Bm) : (d.modBm f).rings = d.rings := rfl
@[simp] theorem Dev.modBm_cores (d : Dev) (f : Bm → Bm) : (d.modBm f).cores = d.cores := rfl
@[simp] theorem Dev.modBm_mem (d : Dev) (f : Bm → Bm) : (d.modBm f).mem = d.mem := rfl
@[simp] theorem Dev.modBm_cf (d : Dev) (f : Bm → Bm) : (d.modBm f).cf = d.cf := rfl
@[simp] theorem Dev.modBm_image (d : Dev) (f : Bm → Bm) : (d.modBm f).image = d.image := rfl
@[simp] theorem Dev.modBm_host (d : Dev) (f : Bm → Bm) : (d.modBm f).host = d.host := rfl
@[simp] theorem Dev.modBm_ft (d : Dev) (f : Bm → Bm) : (d.modBm f).ft = d.ft := rfl
@[simp] theorem Dev.modBm_ev (d : Dev) (f : Bm → Bm) : (d.modBm f).ev = d.ev := rfl
@[simp] theorem Dev.modBm_mt (d : Dev) (f : Bm → Bm) : (d.modBm f).mt = d.mt := rfl
@[simp] theorem Dev.modBm_nand (d : Dev) (f : Bm → Bm) : (d.modBm f).nand = d.nand := rfl
@[simp] theorem Dev.modBm_out (d : Dev) (f : Bm → Bm) : (d.modBm f).out = d.out := rfl
@[simp] theorem Dev.modBm_freeCtr (d : Dev) (f : Bm → Bm) : (d.modBm f).freeCtr = d.freeCtr := rfl

/-! ### Dev.modMp -/

@[simp] theorem Dev.modMp_regs (d : Dev) (f : Mp → Mp) : (d.modMp f).regs = d.regs := rfl
@[simp] theorem Dev.modMp_pw (d : Dev) (f : Mp → Mp) : (d.modMp f).pw = d.pw := rfl
@[simp] theorem Dev.modMp_port0 (d : Dev) (f : Mp → Mp) : (d.modMp f).port0 = d.port0 := rfl
@[simp] theorem Dev.modMp_port1 (d : Dev) (f : Mp → Mp) : (d.modMp f).port1 = d.port1 := rfl
@[simp] theorem Dev.modMp_qe (d : Dev) (f : Mp → Mp) : (d.modMp f).qe = d.qe := rfl
@[simp] theorem Dev.modMp_bm (d : Dev) (f : Mp → Mp) : (d.modMp f).bm = d.bm := rfl
@[simp] theorem Dev.modMp_mp (d : Dev) (f : Mp → Mp) : (d.modMp f).mp = f d.mp := rfl
@[simp] theorem Dev.modMp_ms (d : Dev) (f : Mp → Mp) : (d.modMp f).ms = d.ms := rfl
@[simp] theorem Dev.modMp_cd (d : Dev) (f : Mp → Mp) : (d.modMp f).cd = d.cd := rfl
@[simp] theorem Dev.modMp_cx (d : Dev) (f : Mp → Mp) : (d.modMp f).cx = d.cx := rfl
@[simp] theorem Dev.modMp_rc (d : Dev) (f : Mp → Mp) : (d.modMp f).rc = d.rc := rfl
@[simp] theorem Dev.modMp_rings (d : Dev) (f : Mp → Mp) : (d.modMp f).rings = d.rings := rfl
@[simp] theorem Dev.modMp_cores (d : Dev) (f : Mp → Mp) : (d.modMp f).cores = d.cores := rfl
@[simp] theorem Dev.modMp_mem (d : Dev) (f : Mp → Mp) : (d.modMp f).mem = d.mem := rfl
@[simp] theorem Dev.modMp_cf (d : Dev) (f : Mp → Mp) : (d.modMp f).cf = d.cf := rfl
@[simp] theorem Dev.modMp_image (d : Dev) (f : Mp → Mp) : (d.modMp f).image = d.image := rfl
@[simp] theorem Dev.modMp_host (d : Dev) (f : Mp → Mp) : (d.modMp f).host = d.host := rfl
@[simp] theorem Dev.modMp_ft (d : Dev) (f : Mp → Mp) : (d.modMp f).ft = d.ft := rfl
@[simp] theorem Dev.modMp_ev (d : Dev) (f : Mp → Mp) : (d.modMp f).ev = d.ev := rfl
@[simp] theorem Dev.modMp_mt (d : Dev) (f : Mp → Mp) : (d.modMp f).mt = d.mt := rfl
@[simp] theorem Dev.modMp_nand (d : Dev) (f : Mp → Mp) : (d.modMp f).nand = d.nand := rfl
@[simp] theorem Dev.modMp_out (d : Dev) (f : Mp → Mp) : (d.modMp f).out = d.out := rfl
@[simp] theorem Dev.modMp_freeCtr (d : Dev) (f : Mp → Mp) : (d.modMp f).freeCtr = d.freeCtr := rfl

/-! ### Dev.modMs -/

@[simp] theorem Dev.modMs_regs (d : Dev) (f : Ms → Ms) : (d.modMs f).regs = d.regs := rfl
@[simp] theorem Dev.modMs_pw (d : Dev) (f : Ms → Ms) : (d.modMs f).pw = d.pw := rfl
@[simp] theorem Dev.modMs_port0 (d : Dev) (f : Ms → Ms) : (d.modMs f).port0 = d.port0 := rfl
@[simp] theorem Dev.modMs_port1 (d : Dev) (f : Ms → Ms) : (d.modMs f).port1 = d.port1 := rfl
@[simp] theorem Dev.modMs_qe (d : Dev) (f : Ms → Ms) : (d.modMs f).qe = d.qe := rfl
@[simp] theorem Dev.modMs_bm (d : Dev) (f : Ms → Ms) : (d.modMs f).bm = d.bm := rfl
@[simp] theorem Dev.modMs_mp (d : Dev) (f : Ms → Ms) : (d.modMs f).mp = d.mp := rfl
@[simp] theorem Dev.modMs_ms (d : Dev) (f : Ms → Ms) : (d.modMs f).ms = f d.ms := rfl
@[simp] theorem Dev.modMs_cd (d : Dev) (f : Ms → Ms) : (d.modMs f).cd = d.cd := rfl
@[simp] theorem Dev.modMs_cx (d : Dev) (f : Ms → Ms) : (d.modMs f).cx = d.cx := rfl
@[simp] theorem Dev.modMs_rc (d : Dev) (f : Ms → Ms) : (d.modMs f).rc = d.rc := rfl
@[simp] theorem Dev.modMs_rings (d : Dev) (f : Ms → Ms) : (d.modMs f).rings = d.rings := rfl
@[simp] theorem Dev.modMs_cores (d : Dev) (f : Ms → Ms) : (d.modMs f).cores = d.cores := rfl
@[simp] theorem Dev.modMs_mem (d : Dev) (f : Ms → Ms) : (d.modMs f).mem = d.mem := rfl
@[simp] theorem Dev.modMs_cf (d : Dev) (f : Ms → Ms) : (d.modMs f).cf = d.cf := rfl
@[simp] theorem Dev.modMs_image (d : Dev) (f : Ms → Ms) : (d.modMs f).image = d.image := rfl
@[simp] theorem Dev.modMs_host (d : Dev) (f : Ms → Ms) : (d.modMs f).host = d.host := rfl
@[simp] theorem Dev.modMs_ft (d : Dev) (f : Ms → Ms) : (d.modMs f).ft = d.ft := rfl
@[simp] theorem Dev.modMs_ev (d : Dev) (f : Ms → Ms) : (d.modMs f).ev = d.ev := rfl
@[simp] theorem Dev.modMs_mt (d : Dev) (f : Ms → Ms) : (d.modMs f).mt = d.mt := rfl
@[simp] theorem Dev.modMs_nand (d : Dev) (f : Ms → Ms) : (d.modMs f).nand = d.nand := rfl
@[simp] theorem Dev.modMs_out (d : Dev) (f : Ms → Ms) : (d.modMs f).out = d.out := rfl
@[simp] theorem Dev.modMs_freeCtr (d : Dev) (f : Ms → Ms) : (d.modMs f).freeCtr = d.freeCtr := rfl

/-! ### Dev.modCd -/

@[simp] theorem Dev.modCd_regs (d : Dev) (f : Cd → Cd) : (d.modCd f).regs = d.regs := rfl
@[simp] theorem Dev.modCd_pw (d : Dev) (f : Cd → Cd) : (d.modCd f).pw = d.pw := rfl
@[simp] theorem Dev.modCd_port0 (d : Dev) (f : Cd → Cd) : (d.modCd f).port0 = d.port0 := rfl
@[simp] theorem Dev.modCd_port1 (d : Dev) (f : Cd → Cd) : (d.modCd f).port1 = d.port1 := rfl
@[simp] theorem Dev.modCd_qe (d : Dev) (f : Cd → Cd) : (d.modCd f).qe = d.qe := rfl
@[simp] theorem Dev.modCd_bm (d : Dev) (f : Cd → Cd) : (d.modCd f).bm = d.bm := rfl
@[simp] theorem Dev.modCd_mp (d : Dev) (f : Cd → Cd) : (d.modCd f).mp = d.mp := rfl
@[simp] theorem Dev.modCd_ms (d : Dev) (f : Cd → Cd) : (d.modCd f).ms = d.ms := rfl
@[simp] theorem Dev.modCd_cd (d : Dev) (f : Cd → Cd) : (d.modCd f).cd = f d.cd := rfl
@[simp] theorem Dev.modCd_cx (d : Dev) (f : Cd → Cd) : (d.modCd f).cx = d.cx := rfl
@[simp] theorem Dev.modCd_rc (d : Dev) (f : Cd → Cd) : (d.modCd f).rc = d.rc := rfl
@[simp] theorem Dev.modCd_rings (d : Dev) (f : Cd → Cd) : (d.modCd f).rings = d.rings := rfl
@[simp] theorem Dev.modCd_cores (d : Dev) (f : Cd → Cd) : (d.modCd f).cores = d.cores := rfl
@[simp] theorem Dev.modCd_mem (d : Dev) (f : Cd → Cd) : (d.modCd f).mem = d.mem := rfl
@[simp] theorem Dev.modCd_cf (d : Dev) (f : Cd → Cd) : (d.modCd f).cf = d.cf := rfl
@[simp] theorem Dev.modCd_image (d : Dev) (f : Cd → Cd) : (d.modCd f).image = d.image := rfl
@[simp] theorem Dev.modCd_host (d : Dev) (f : Cd → Cd) : (d.modCd f).host = d.host := rfl
@[simp] theorem Dev.modCd_ft (d : Dev) (f : Cd → Cd) : (d.modCd f).ft = d.ft := rfl
@[simp] theorem Dev.modCd_ev (d : Dev) (f : Cd → Cd) : (d.modCd f).ev = d.ev := rfl
@[simp] theorem Dev.modCd_mt (d : Dev) (f : Cd → Cd) : (d.modCd f).mt = d.mt := rfl
@[simp] theorem Dev.modCd_nand (d : Dev) (f : Cd → Cd) : (d.modCd f).nand = d.nand := rfl
@[simp] theorem Dev.modCd_out (d : Dev) (f : Cd → Cd) : (d.modCd f).out = d.out := rfl
@[simp] theorem Dev.modCd_freeCtr (d : Dev) (f : Cd → Cd) : (d.modCd f).freeCtr = d.freeCtr := rfl

/-! ### Dev.modRc -/

@[simp] theorem Dev.modRc_regs (d : Dev) (f : Rc → Rc) : (d.modRc f).regs = d.regs := rfl
@[simp] theorem Dev.modRc_pw (d : Dev) (f : Rc → Rc) : (d.modRc f).pw = d.pw := rfl
@[simp] theorem Dev.modRc_port0 (d : Dev) (f : Rc → Rc) : (d.modRc f).port0 = d.port0 := rfl
@[simp] theorem Dev.modRc_port1 (d : Dev) (f : Rc → Rc) : (d.modRc f).port1 = d.port1 := rfl
@[simp] theorem Dev.modRc_qe (d : Dev) (f : Rc → Rc) : (d.modRc f).qe = d.qe := rfl
@[simp] theorem Dev.modRc_bm (d : Dev) (f : Rc → Rc) : (d.modRc f).bm = d.bm := rfl
@[simp] theorem Dev.modRc_mp (d : Dev) (f : Rc → Rc) : (d.modRc f).mp = d.mp := rfl
@[simp] theorem Dev.modRc_ms (d : Dev) (f : Rc → Rc) : (d.modRc f).ms = d.ms := rfl
@[simp] theorem Dev.modRc_cd (d : Dev) (f : Rc → Rc) : (d.modRc f).cd = d.cd := rfl
@[simp] theorem Dev.modRc_cx (d : Dev) (f : Rc → Rc) : (d.modRc f).cx = d.cx := rfl
@[simp] theorem Dev.modRc_rc (d : Dev) (f : Rc → Rc) : (d.modRc f).rc = f d.rc := rfl
@[simp] theorem Dev.modRc_rings (d : Dev) (f : Rc → Rc) : (d.modRc f).rings = d.rings := rfl
@[simp] theorem Dev.modRc_cores (d : Dev) (f : Rc → Rc) : (d.modRc f).cores = d.cores := rfl
@[simp] theorem Dev.modRc_mem (d : Dev) (f : Rc → Rc) : (d.modRc f).mem = d.mem := rfl
@[simp] theorem Dev.modRc_cf (d : Dev) (f : Rc → Rc) : (d.modRc f).cf = d.cf := rfl
@[simp] theorem Dev.modRc_image (d : Dev) (f : Rc → Rc) : (d.modRc f).image = d.image := rfl
@[simp] theorem Dev.modRc_host (d : Dev) (f : Rc → Rc) : (d.modRc f).host = d.host := rfl
@[simp] theorem Dev.modRc_ft (d : Dev) (f : Rc → Rc) : (d.modRc f).ft = d.ft := rfl
@[simp] theorem Dev.modRc_ev (d : Dev) (f : Rc → Rc) : (d.modRc f).ev = d.ev := rfl
@[simp] theorem Dev.modRc_mt (d : Dev) (f : Rc → Rc) : (d.modRc f).mt = d.mt := rfl
@[simp] theorem Dev.modRc_nand (d : Dev) (f : Rc → Rc) : (d.modRc f).nand = d.nand := rfl
@[simp] theorem Dev.modRc_out (d : Dev) (f : Rc → Rc) : (d.modRc f).out = d.out := rfl
@[simp] theorem Dev.modRc_freeCtr (d : Dev) (f : Rc → Rc) : (d.modRc f).freeCtr = d.freeCtr := rfl

/-! ### Dev.modEv -/

@[simp] theorem Dev.modEv_regs (d : Dev) (f : Ev → Ev) : (d.modEv f).regs = d.regs := rfl
@[simp] theorem Dev.modEv_pw (d : Dev) (f : Ev → Ev) : (d.modEv f).pw = d.pw := rfl
@[simp] theorem Dev.modEv_port0 (d : Dev) (f : Ev → Ev) : (d.modEv f).port0 = d.port0 := rfl
@[simp] theorem Dev.modEv_port1 (d : Dev) (f : Ev → Ev) : (d.modEv f).port1 = d.port1 := rfl
@[simp] theorem Dev.modEv_qe (d : Dev) (f : Ev → Ev) : (d.modEv f).qe = d.qe := rfl
@[simp] theorem Dev.modEv_bm (d : Dev) (f : Ev → Ev) : (d.modEv f).bm = d.bm := rfl
@[simp] theorem Dev.modEv_mp (d : Dev) (f : Ev → Ev) : (d.modEv f).mp = d.mp := rfl
@[simp] theorem Dev.modEv_ms (d : Dev) (f : Ev → Ev) : (d.modEv f).ms = d.ms := rfl
@[simp] theorem Dev.modEv_cd (d : Dev) (f : Ev → Ev) : (d.modEv f).cd = d.cd := rfl
@[simp] theorem Dev.modEv_cx (d : Dev) (f : Ev → Ev) : (d.modEv f).cx = d.cx := rfl
@[simp] theorem Dev.modEv_rc (d : Dev) (f : Ev → Ev) : (d.modEv f).rc = d.rc := rfl
@[simp] theorem Dev.modEv_rings (d : Dev) (f : Ev → Ev) : (d.modEv f).rings = d.rings := rfl
@[simp] theorem Dev.modEv_cores (d : Dev) (f : Ev → Ev) : (d.modEv f).cores = d.cores := rfl
@[simp] theorem Dev.modEv_mem (d : Dev) (f : Ev → Ev) : (d.modEv f).mem = d.mem := rfl
@[simp] theorem Dev.modEv_cf (d : Dev) (f : Ev → Ev) : (d.modEv f).cf = d.cf := rfl
@[simp] theorem Dev.modEv_image (d : Dev) (f : Ev → Ev) : (d.modEv f).image = d.image := rfl
@[simp] theorem Dev.modEv_host (d : Dev) (f : Ev → Ev) : (d.modEv f).host = d.host := rfl
@[simp] theorem Dev.modEv_ft (d : Dev) (f : Ev → Ev) : (d.modEv f).ft = d.ft := rfl
@[simp] theorem Dev.modEv_ev (d : Dev) (f : Ev → Ev) : (d.modEv f).ev = f d.ev := rfl
@[simp] theorem Dev.modEv_mt (d : Dev) (f : Ev → Ev) : (d.modEv f).mt = d.mt := rfl
@[simp] theorem Dev.modEv_nand (d : Dev) (f : Ev → Ev) : (d.modEv f).nand = d.nand := rfl
@[simp] theorem Dev.modEv_out (d : Dev) (f : Ev → Ev) : (d.modEv f).out = d.out := rfl
@[simp] theorem Dev.modEv_freeCtr (d : Dev) (f : Ev → Ev) : (d.modEv f).freeCtr = d.freeCtr := rfl

/-! ### Dev.modCf -/

@[simp] theorem Dev.modCf_regs (d : Dev) (f : Cf → Cf) : (d.modCf f).regs = d.regs := rfl
@[simp] theorem Dev.modCf_pw (d : Dev) (f : Cf → Cf) : (d.modCf f).pw = d.pw := rfl
@[simp] theorem Dev.modCf_port0 (d : Dev) (f : Cf → Cf) : (d.modCf f).port0 = d.port0 := rfl
@[simp] theorem Dev.modCf_port1 (d : Dev) (f : Cf → Cf) : (d.modCf f).port1 = d.port1 := rfl
@[simp] theorem Dev.modCf_qe (d : Dev) (f : Cf → Cf) : (d.modCf f).qe = d.qe := rfl
@[simp] theorem Dev.modCf_bm (d : Dev) (f : Cf → Cf) : (d.modCf f).bm = d.bm := rfl
@[simp] theorem Dev.modCf_mp (d : Dev) (f : Cf → Cf) : (d.modCf f).mp = d.mp := rfl
@[simp] theorem Dev.modCf_ms (d : Dev) (f : Cf → Cf) : (d.modCf f).ms = d.ms := rfl
@[simp] theorem Dev.modCf_cd (d : Dev) (f : Cf → Cf) : (d.modCf f).cd = d.cd := rfl
@[simp] theorem Dev.modCf_cx (d : Dev) (f : Cf → Cf) : (d.modCf f).cx = d.cx := rfl
@[simp] theorem Dev.modCf_rc (d : Dev) (f : Cf → Cf) : (d.modCf f).rc = d.rc := rfl
@[simp] theorem Dev.modCf_rings (d : Dev) (f : Cf → Cf) : (d.modCf f).rings = d.rings := rfl
@[simp] theorem Dev.modCf_cores (d : Dev) (f : Cf → Cf) : (d.modCf f).cores = d.cores := rfl
@[simp] theorem Dev.modCf_mem (d : Dev) (f : Cf → Cf) : (d.modCf f).mem = d.mem := rfl
@[simp] theorem Dev.modCf_cf (d : Dev) (f : Cf → Cf) : (d.modCf f).cf = f d.cf := rfl
@[simp] theorem Dev.modCf_image (d : Dev) (f : Cf → Cf) : (d.modCf f).image = d.image := rfl
@[simp] theorem Dev.modCf_host (d : Dev) (f : Cf → Cf) : (d.modCf f).host = d.host := rfl
@[simp] theorem Dev.modCf_ft (d : Dev) (f : Cf → Cf) : (d.modCf f).ft = d.ft := rfl
@[simp] theorem Dev.modCf_ev (d : Dev) (f : Cf → Cf) : (d.modCf f).ev = d.ev := rfl
@[simp] theorem Dev.modCf_mt (d : Dev) (f : Cf → Cf) : (d.modCf f).mt = d.mt := rfl
@[simp] theorem Dev.modCf_nand (d : Dev) (f : Cf → Cf) : (d.modCf f).nand = d.nand := rfl
@[simp] theorem Dev.modCf_out (d : Dev) (f : Cf → Cf) : (d.modCf f).out = d.out := rfl
@[simp] theorem Dev.modCf_freeCtr (d : Dev) (f : Cf → Cf) : (d.modCf f).freeCtr = d.freeCtr := rfl

/-! ### Dev.modCores -/

@[simp] theorem Dev.modCores_regs (d : Dev) (f : Cores → Cores) : (d.modCores f).regs = d.regs := rfl
@[simp] theorem Dev.modCores_pw (d : Dev) (f : Cores → Cores) : (d.modCores f).pw = d.pw := rfl
@[simp] theorem Dev.modCores_port0 (d : Dev) (f : Cores → Cores) : (d.modCores f).port0 = d.port0 := rfl
@[simp] theorem Dev.modCores_port1 (d : Dev) (f : Cores → Cores) : (d.modCores f).port1 = d.port1 := rfl
@[simp] theorem Dev.modCores_qe (d : Dev) (f : Cores → Cores) : (d.modCores f).qe = d.qe := rfl
@[simp] theorem Dev.modCores_bm (d : Dev) (f : Cores → Cores) : (d.modCores f).bm = d.bm := rfl
@[simp] theorem Dev.modCores_mp (d : Dev) (f : Cores → Cores) : (d.modCores f).mp = d.mp := rfl
@[simp] theorem Dev.modCores_ms (d : Dev) (f : Cores → Cores) : (d.modCores f).ms = d.ms := rfl
@[simp] theorem Dev.modCores_cd (d : Dev) (f : Cores → Cores) : (d.modCores f).cd = d.cd := rfl
@[simp] theorem Dev.modCores_cx (d : Dev) (f : Cores → Cores) : (d.modCores f).cx = d.cx := rfl
@[simp] theorem Dev.modCores_rc (d : Dev) (f : Cores → Cores) : (d.modCores f).rc = d.rc := rfl
@[simp] theorem Dev.modCores_rings (d : Dev) (f : Cores → Cores) : (d.modCores f).rings = d.rings := rfl
@[simp] theorem Dev.modCores_cores (d : Dev) (f : Cores → Cores) : (d.modCores f).cores = f d.cores := rfl
@[simp] theorem Dev.modCores_mem (d : Dev) (f : Cores → Cores) : (d.modCores f).mem = d.mem := rfl
@[simp] theorem Dev.modCores_cf (d : Dev) (f : Cores → Cores) : (d.modCores f).cf = d.cf := rfl
@[simp] theorem Dev.modCores_image (d : Dev) (f : Cores → Cores) : (d.modCores f).image = d.image := rfl
@[simp] theorem Dev.modCores_host (d : Dev) (f : Cores → Cores) : (d.modCores f).host = d.host := rfl
@[simp] theorem Dev.modCores_ft (d : Dev) (f : Cores → Cores) : (d.modCores f).ft = d.ft := rfl
@[simp] theorem Dev.modCores_ev (d : Dev) (f : Cores → Cores) : (d.modCores f).ev = d.ev := rfl
@[simp] theorem Dev.modCores_mt (d : Dev) (f : Cores → Cores) : (d.modCores f).mt = d.mt := rfl
@[simp] theorem Dev.modCores_nand (d : Dev) (f : Cores → Cores) : (d.modCores f).nand = d.nand := rfl
@[simp] theorem Dev.modCores_out (d : Dev) (f : Cores → Cores) : (d.modCores f).out = d.out := rfl
@[simp] theorem Dev.modCores_freeCtr (d : Dev) (f : Cores → Cores) : (d.modCores f).freeCtr = d.freeCtr := rfl

/-! ### Dev.modNand -/

@[simp] theorem Dev.modNand_regs (d : Dev) (f : Nand → Nand) : (d.modNand f).regs = d.regs := rfl
@[simp] theorem Dev.modNand_pw (d : Dev) (f : Nand → Nand) : (d.modNand f).pw = d.pw := rfl
@[simp] theorem Dev.modNand_port0 (d : Dev) (f : Nand → Nand) : (d.modNand f).port0 = d.port0 := rfl
@[simp] theorem Dev.modNand_port1 (d : Dev) (f : Nand → Nand) : (d.modNand f).port1 = d.port1 := rfl
@[simp] theorem Dev.modNand_qe (d : Dev) (f : Nand → Nand) : (d.modNand f).qe = d.qe := rfl
@[simp] theorem Dev.modNand_bm (d : Dev) (f : Nand → Nand) : (d.modNand f).bm = d.bm := rfl
@[simp] theorem Dev.modNand_mp (d : Dev) (f : Nand → Nand) : (d.modNand f).mp = d.mp := rfl
@[simp] theorem Dev.modNand_ms (d : Dev) (f : Nand → Nand) : (d.modNand f).ms = d.ms := rfl
@[simp] theorem Dev.modNand_cd (d : Dev) (f : Nand → Nand) : (d.modNand f).cd = d.cd := rfl
@[simp] theorem Dev.modNand_cx (d : Dev) (f : Nand → Nand) : (d.modNand f).cx = d.cx := rfl
@[simp] theorem Dev.modNand_rc (d : Dev) (f : Nand → Nand) : (d.modNand f).rc = d.rc := rfl
@[simp] theorem Dev.modNand_rings (d : Dev) (f : Nand → Nand) : (d.modNand f).rings = d.rings := rfl
@[simp] theorem Dev.modNand_cores (d : Dev) (f : Nand → Nand) : (d.modNand f).cores = d.cores := rfl
@[simp] theorem Dev.modNand_mem (d : Dev) (f : Nand → Nand) : (d.modNand f).mem = d.mem := rfl
@[simp] theorem Dev.modNand_cf (d : Dev) (f : Nand → Nand) : (d.modNand f).cf = d.cf := rfl
@[simp] theorem Dev.modNand_image (d : Dev) (f : Nand → Nand) : (d.modNand f).image = d.image := rfl
@[simp] theorem Dev.modNand_host (d : Dev) (f : Nand → Nand) : (d.modNand f).host = d.host := rfl
@[simp] theorem Dev.modNand_ft (d : Dev) (f : Nand → Nand) : (d.modNand f).ft = d.ft := rfl
@[simp] theorem Dev.modNand_ev (d : Dev) (f : Nand → Nand) : (d.modNand f).ev = d.ev := rfl
@[simp] theorem Dev.modNand_mt (d : Dev) (f : Nand → Nand) : (d.modNand f).mt = d.mt := rfl
@[simp] theorem Dev.modNand_nand (d : Dev) (f : Nand → Nand) : (d.modNand f).nand = f d.nand := rfl
@[simp] theorem Dev.modNand_out (d : Dev) (f : Nand → Nand) : (d.modNand f).out = d.out := rfl
@[simp] theorem Dev.modNand_freeCtr (d : Dev) (f : Nand → Nand) : (d.modNand f).freeCtr = d.freeCtr := rfl

/-! ### Dev.modMem -/

@[simp] theorem Dev.modMem_regs (d : Dev) (f : Mem → Mem) : (d.modMem f).regs = d.regs := rfl
@[simp] theorem Dev.modMem_pw (d : Dev) (f : Mem → Mem) : (d.modMem f).pw = d.pw := rfl
@[simp] theorem Dev.modMem_port0 (d : Dev) (f : Mem → Mem) : (d.modMem f).port0 = d.port0 := rfl
@[simp] theorem Dev.modMem_port1 (d : Dev) (f : Mem → Mem) : (d.modMem f).port1 = d.port1 := rfl
@[simp] theorem Dev.modMem_qe (d : Dev) (f : Mem → Mem) : (d.modMem f).qe = d.qe := rfl
@[simp] theorem Dev.modMem_bm (d : Dev) (f : Mem → Mem) : (d.modMem f).bm = d.bm := rfl
@[simp] theorem Dev.modMem_mp (d : Dev) (f : Mem → Mem) : (d.modMem f).mp = d.mp := rfl
@[simp] theorem Dev.modMem_ms (d : Dev) (f : Mem → Mem) : (d.modMem f).ms = d.ms := rfl
@[simp] theorem Dev.modMem_cd (d : Dev) (f : Mem → Mem) : (d.modMem f).cd = d.cd := rfl
@[simp] theorem Dev.modMem_cx (d : Dev) (f : Mem → Mem) : (d.modMem f).cx = d.cx := rfl
@[simp] theorem Dev.modMem_rc (d : Dev) (f : Mem → Mem) : (d.modMem f).rc = d.rc := rfl
@[simp] theorem Dev.modMem_rings (d : Dev) (f : Mem → Mem) : (d.modMem f).rings = d.rings := rfl
@[simp] theorem Dev.modMem_cores (d : Dev) (f : Mem → Mem) : (d.modMem f).cores = d.cores := rfl
@[simp] theorem Dev.modMem_mem (d : Dev) (f : Mem → Mem) : (d.modMem f).mem = f d.mem := rfl
@[simp] theorem Dev.modMem_cf (d : Dev) (f : Mem → Mem) : (d.modMem f).cf = d.cf := rfl
@[simp] theorem Dev.modMem_image (d : Dev) (f : Mem → Mem) : (d.modMem f).image = d.image := rfl
@[simp] theorem Dev.modMem_host (d : Dev) (f : Mem → Mem) : (d.modMem f).host = d.host := rfl
@[simp] theorem Dev.modMem_ft (d : Dev) (f : Mem → Mem) : (d.modMem f).ft = d.ft := rfl
@[simp] theorem Dev.modMem_ev (d : Dev) (f : Mem → Mem) : (d.modMem f).ev = d.ev := rfl
@[simp] theorem Dev.modMem_mt (d : Dev) (f : Mem → Mem) : (d.modMem f).mt = d.mt := rfl
@[simp] theorem Dev.modMem_nand (d : Dev) (f : Mem → Mem) : (d.modMem f).nand = d.nand := rfl
@[simp] theorem Dev.modMem_out (d : Dev) (f : Mem → Mem) : (d.modMem f).out = d.out := rfl
@[simp] theorem Dev.modMem_freeCtr (d : Dev) (f : Mem → Mem) : (d.modMem f).freeCtr = d.freeCtr := rfl

/-! ### Dev.modHost -/

@[simp] theorem Dev.modHost_regs (d : Dev) (f : Host_ → Host_) : (d.modHost f).regs = d.regs := rfl
@[simp] theorem Dev.modHost_pw (d : Dev) (f : Host_ → Host_) : (d.modHost f).pw = d.pw := rfl
@[simp] theorem Dev.modHost_port0 (d : Dev) (f : Host_ → Host_) : (d.modHost f).port0 = d.port0 := rfl
@[simp] theorem Dev.modHost_port1 (d : Dev) (f : Host_ → Host_) : (d.modHost f).port1 = d.port1 := rfl
@[simp] theorem Dev.modHost_qe (d : Dev) (f : Host_ → Host_) : (d.modHost f).qe = d.qe := rfl
@[simp] theorem Dev.modHost_bm (d : Dev) (f : Host_ → Host_) : (d.modHost f).bm = d.bm := rfl
@[simp] theorem Dev.modHost_mp (d : Dev) (f : Host_ → Host_) : (d.modHost f).mp = d.mp := rfl
@[simp] theorem Dev.modHost_ms (d : Dev) (f : Host_ → Host_) : (d.modHost f).ms = d.ms := rfl
@[simp] theorem Dev.modHost_cd (d : Dev) (f : Host_ → Host_) : (d.modHost f).cd = d.cd := rfl
@[simp] theorem Dev.modHost_cx (d : Dev) (f : Host_ → Host_) : (d.modHost f).cx = d.cx := rfl
@[simp] theorem Dev.modHost_rc (d : Dev) (f : Host_ → Host_) : (d.modHost f).rc = d.rc := rfl
@[simp] theorem Dev.modHost_rings (d : Dev) (f : Host_ → Host_) : (d.modHost f).rings = d.rings := rfl
@[simp] theorem Dev.modHost_cores (d : Dev) (f : Host_ → Host_) : (d.modHost f).cores = d.cores := rfl
@[simp] theorem Dev.modHost_mem (d : Dev) (f : Host_ → Host_) : (d.modHost f).mem = d.mem := rfl
@[simp] theorem Dev.modHost_cf (d : Dev) (f : Host_ → Host_) : (d.modHost f).cf = d.cf := rfl
@[simp] theorem Dev.modHost_image (d : Dev) (f : Host_ → Host_) : (d.modHost f).image = d.image := rfl
@[simp] theorem Dev.modHost_host (d : Dev) (f : Host_ → Host_) : (d.modHost f).host = f d.host := rfl
@[simp] theorem Dev.modHost_ft (d : Dev) (f : Host_ → Host_) : (d.modHost f).ft = d.ft := rfl
@[simp] theorem Dev.modHost_ev (d : Dev) (f : Host_ → Host_) : (d.modHost f).ev = d.ev := rfl
@[simp] theorem Dev.modHost_mt (d : Dev) (f : Host_ → Host_) : (d.modHost f).mt = d.mt := rfl
@[simp] theorem Dev.modHost_nand (d : Dev) (f : Host_ → Host_) : (d.modHost f).nand = d.nand := rfl
@[simp] theorem Dev.modHost_out (d : Dev) (f : Host_ → Host_) : (d.modHost f).out = d.out := rfl
@[simp] theorem Dev.modHost_freeCtr (d : Dev) (f : Host_ → Host_) : (d.modHost f).freeCtr = d.freeCtr := rfl

/-! ### Dev.modMt -/

@[simp] theorem Dev.modMt_regs (d : Dev) (f : Mt → Mt) : (d.modMt f).regs = d.regs := rfl
@[simp] theorem Dev.modMt_pw (d : Dev) (f : Mt → Mt) : (d.modMt f).pw = d.pw := rfl
@[simp] theorem Dev.modMt_port0 (d : Dev) (f : Mt → Mt) : (d.modMt f).port0 = d.port0 := rfl
@[simp] theorem Dev.modMt_port1 (d : Dev) (f : Mt → Mt) : (d.modMt f).port1 = d.port1 := rfl
@[simp] theorem Dev.modMt_qe (d : Dev) (f : Mt → Mt) : (d.modMt f).qe = d.qe := rfl
@[simp] theorem Dev.modMt_bm (d : Dev) (f : Mt → Mt) : (d.modMt f).bm = d.bm := rfl
@[simp] theorem Dev.modMt_mp (d : Dev) (f : Mt → Mt) : (d.modMt f).mp = d.mp := rfl
@[simp] theorem Dev.modMt_ms (d : Dev) (f : Mt → Mt) : (d.modMt f).ms = d.ms := rfl
@[simp] theorem Dev.modMt_cd (d : Dev) (f : Mt → Mt) : (d.modMt f).cd = d.cd := rfl
@[simp] theorem Dev.modMt_cx (d : Dev) (f : Mt → Mt) : (d.modMt f).cx = d.cx := rfl
@[simp] theorem Dev.modMt_rc (d : Dev) (f : Mt → Mt) : (d.modMt f).rc = d.rc := rfl
@[simp] theorem Dev.modMt_rings (d : Dev) (f : Mt → Mt) : (d.modMt f).rings = d.rings := rfl
@[simp] theorem Dev.modMt_cores (d : Dev) (f : Mt → Mt) : (d.modMt f).cores = d.cores := rfl
@[simp] theorem Dev.modMt_mem (d : Dev) (f : Mt → Mt) : (d.modMt f).mem = d.mem := rfl
@[simp] theorem Dev.modMt_cf (d : Dev) (f : Mt → Mt) : (d.modMt f).cf = d.cf := rfl
@[simp] theorem Dev.modMt_image (d : Dev) (f : Mt → Mt) : (d.modMt f).image = d.image := rfl
@[simp] theorem Dev.modMt_host (d : Dev) (f : Mt → Mt) : (d.modMt f).host = d.host := rfl
@[simp] theorem Dev.modMt_ft (d : Dev) (f : Mt → Mt) : (d.modMt f).ft = d.ft := rfl
@[simp] theorem Dev.modMt_ev (d : Dev) (f : Mt → Mt) : (d.modMt f).ev = d.ev := rfl
@[simp] theorem Dev.modMt_mt (d : Dev) (f : Mt → Mt) : (d.modMt f).mt = f d.mt := rfl
@[simp] theorem Dev.modMt_nand (d : Dev) (f : Mt → Mt) : (d.modMt f).nand = d.nand := rfl
@[simp] theorem Dev.modMt_out (d : Dev) (f : Mt → Mt) : (d.modMt f).out = d.out := rfl
@[simp] theorem Dev.modMt_freeCtr (d : Dev) (f : Mt → Mt) : (d.modMt f).freeCtr = d.freeCtr := rfl

/-! ### Dev.setReg -/

@[simp] theorem Dev.setReg_pw (d : Dev) (a v : Nat) : (d.setReg a v).pw = d.pw := rfl
@[simp] theorem Dev.setReg_port0 (d : Dev) (a v : Nat) : (d.setReg a v).port0 = d.port0 := rfl
@[simp] theorem Dev.setReg_port1 (d : Dev) (a v : Nat) : (d.setReg a v).port1 = d.port1 := rfl
@[simp] theorem Dev.setReg_qe (d : Dev) (a v : Nat) : (d.setReg a v).qe = d.qe := rfl
@[simp] theorem Dev.setReg_bm (d : Dev) (a v : Nat) : (d.setReg a v).bm = d.bm := rfl
@[simp] theorem Dev.setReg_mp (d : Dev) (a v : Nat) : (d.setReg a v).mp = d.mp := rfl
@[simp] theorem Dev.setReg_ms (d : Dev) (a v : Nat) : (d.setReg a v).ms = d.ms := rfl
@[simp] theorem Dev.setReg_cd (d : Dev) (a v : Nat) : (d.setReg a v).cd = d.cd := rfl
@[simp] theorem Dev.setReg_cx (d : Dev) (a v : Nat) : (d.setReg a v).cx = d.cx := rfl
@[simp] theorem Dev.setReg_rc (d : Dev) (a v : Nat) : (d.setReg a v).rc = d.rc := rfl
@[simp] theorem Dev.setReg_rings (d : Dev) (a v : Nat) : (d.setReg a v).rings = d.rings := rfl
@[simp] theorem Dev.setReg_cores (d : Dev) (a v : Nat) : (d.setReg a v).cores = d.cores := rfl
@[simp] theorem Dev.setReg_mem (d : Dev) (a v : Nat) : (d.setReg a v).mem = d.mem := rfl
@[simp] theorem Dev.setReg_cf (d : Dev) (a v : Nat) : (d.setReg a v).cf = d.cf := rfl
@[simp] theorem Dev.setReg_image (d : Dev) (a v : Nat) : (d.setReg a v).image = d.image := rfl
@[simp] theorem Dev.setReg_host (d : Dev) (a v : Nat) : (d.setReg a v).host = d.host := rfl
@[simp] theorem Dev.setReg_ft (d : Dev) (a v : Nat) : (d.setReg a v).ft = d.ft := rfl
@[simp] theorem Dev.setReg_ev (d : Dev) (a v : Nat) : (d.setReg a v).ev = d.ev := rfl
@[simp] theorem Dev.setReg_mt (d : Dev) (a v : Nat) : (d.setReg a v).mt = d.mt := rfl
@[simp] theorem Dev.setReg_nand (d : Dev) (a v : Nat) : (d.setReg a v).nand = d.nand := rfl
@[simp] theorem Dev.setReg_out (d : Dev) (a v : Nat) : (d.setReg a v).out = d.out := rfl
@[simp] theorem Dev.setReg_freeCtr (d : Dev) (a v : Nat) : (d.setReg a v).freeCtr = d.freeCtr := rfl

/-! ### Dev.put -/

@[simp] theorem Dev.put_pw (d : Dev) (f : Fld) (v : Nat) : (d.put f v).pw = d.pw := rfl
@[simp] theorem Dev.put_port0 (d : Dev) (f : Fld) (v : Nat) : (d.put f v).port0 = d.port0 := rfl
@[simp] theorem Dev.put_port1 (d : Dev) (f : Fld) (v : Nat) : (d.put f v).port1 = d.port1 := rfl
@[simp] theorem Dev.put_qe (d : Dev) (f : Fld) (v : Nat) : (d.put f v).qe = d.qe := rfl
@[simp] theorem Dev.put_bm (d : Dev) (f : Fld) (v : Nat) : (d.put f v).bm = d.bm := rfl
@[simp] theorem Dev.put_mp (d : Dev) (f : Fld) (v : Nat) : (d.put f v).mp = d.mp := rfl
@[simp] theorem Dev.put_ms (d : Dev) (f : Fld) (v : Nat) : (d.put f v).ms = d.ms := rfl
@[simp] theorem Dev.put_cd (d : Dev) (f : Fld) (v : Nat) : (d.put f v).cd = d.cd := rfl
@[simp] theorem Dev.put_cx (d : Dev) (f : Fld) (v : Nat) : (d.put f v).cx = d.cx := rfl
@[simp] theorem Dev.put_rc (d : Dev) (f : Fld) (v : Nat) : (d.put f v).rc = d.rc := rfl
@[simp] theorem Dev.put_rings (d : Dev) (f : Fld) (v : Nat) : (d.put f v).rings = d.rings := rfl
@[simp] theorem Dev.put_cores (d : Dev) (f : Fld) (v : Nat) : (d.put f v).cores = d.cores := rfl
@[simp] theorem Dev.put_mem (d : Dev) (f : Fld) (v : Nat) : (d.put f v).mem = d.mem := rfl
@[simp] theorem Dev.put_cf (d : Dev) (f : Fld) (v : Nat) : (d.put f v).cf = d.cf := rfl
@[simp] theorem Dev.put_image (d : Dev) (f : Fld) (v : Nat) : (d.put f v).image = d.image := rfl
@[simp] theorem Dev.put_host (d : Dev) (f : Fld) (v : Nat) : (d.put f v).host = d.host := rfl
@[simp] theorem Dev.put_ft (d : Dev) (f : Fld) (v : Nat) : (d.put f v).ft = d.ft := rfl
@[simp] theorem Dev.put_ev (d : Dev) (f : Fld) (v : Nat) : (d.put f v).ev = d.ev := rfl
@[simp] theorem Dev.put_mt (d : Dev) (f : Fld) (v : Nat) : (d.put f v).mt = d.mt := rfl
@[simp] theorem Dev.put_nand (d : Dev) (f : Fld) (v : Nat) : (d.put f v).nand = d.nand := rfl
@[simp] theorem Dev.put_out (d : Dev) (f : Fld) (v : Nat) : (d.put f v).out = d.out := rfl
@[simp] theorem Dev.put_freeCtr (d : Dev) (f : Fld) (v : Nat) : (d.put f v).freeCtr = d.freeCtr := rfl

/-! ### Dev.add -/

@[simp] theorem Dev.add_pw (d : Dev) (f : Fld) (v : Nat) : (d.add f v).pw = d.pw := rfl
@[simp] theorem Dev.add_port0 (d : Dev) (f : Fld) (v : Nat) : (d.add f v).port0 = d.port0 := rfl
@[simp] theorem Dev.add_port1 (d : Dev) (f : Fld) (v : Nat) : (d.add f v).port1 = d.port1 := rfl
@[simp] theorem Dev.add_qe (d : Dev) (f : Fld) (v : Nat) : (d.add f v).qe = d.qe := rfl
@[simp] theorem Dev.add_bm (d : Dev) (f : Fld) (v : Nat) : (d.add f v).bm = d.bm := rfl
@[simp] theorem Dev.add_mp (d : Dev) (f : Fld) (v : Nat) : (d.add f v).mp = d.mp := rfl
@[simp] theorem Dev.add_ms (d : Dev) (f : Fld) (v : Nat) : (d.add f v).ms = d.ms := rfl
@[simp] theorem Dev.add_cd (d : Dev) (f : Fld) (v : Nat) : (d.add f v).cd = d.cd := rfl
@[simp] theorem Dev.add_cx (d : Dev) (f : Fld) (v : Nat) : (d.add f v).cx = d.cx := rfl
@[simp] theorem Dev.add_rc (d : Dev) (f : Fld) (v : Nat) : (d.add f v).rc = d.rc := rfl
@[simp] theorem Dev.add_rings (d : Dev) (f : Fld) (v : Nat) : (d.add f v).rings = d.rings := rfl
@[simp] theorem Dev.add_cores (d : Dev) (f : Fld) (v : Nat) : (d.add f v).cores = d.cores := rfl
@[simp] theorem Dev.add_mem (d : Dev) (f : Fld) (v : Nat) : (d.add f v).mem = d.mem := rfl
@[simp] theorem Dev.add_cf (d : Dev) (f : Fld) (v : Nat) : (d.add f v).cf = d.cf := rfl
@[simp] theorem Dev.add_image (d : Dev) (f : Fld) (v : Nat) : (d.add f v).image = d.image := rfl
@[simp] theorem Dev.add_host (d : Dev) (f : Fld) (v : Nat) : (d.add f v).host = d.host := rfl
@[simp] theorem Dev.add_ft (d : Dev) (f : Fld) (v : Nat) : (d.add f v).ft = d.ft := rfl
@[simp] theorem Dev.add_ev (d : Dev) (f : Fld) (v : Nat) : (d.add f v).ev = d.ev := rfl
@[simp] theorem Dev.add_mt (d : Dev) (f : Fld) (v : Nat) : (d.add f v).mt = d.mt := rfl
@[simp] theorem Dev.add_nand (d : Dev) (f : Fld) (v : Nat) : (d.add f v).nand = d.nand := rfl
@[simp] theorem Dev.add_out (d : Dev) (f : Fld) (v : Nat) : (d.add f v).out = d.out := rfl
@[simp] theorem Dev.add_freeCtr (d : Dev) (f : Fld) (v : Nat) : (d.add f v).freeCtr = d.freeCtr := rfl

/-! ### Dev.addSat -/

@[simp] theorem Dev.addSat_pw (d : Dev) (f : Fld) (v : Nat) : (d.addSat f v).pw = d.pw := rfl
@[simp] theorem Dev.addSat_port0 (d : Dev) (f : Fld) (v : Nat) : (d.addSat f v).port0 = d.port0 := rfl
@[simp] theorem Dev.addSat_port1 (d : Dev) (f : Fld) (v : Nat) : (d.addSat f v).port1 = d.port1 := rfl
@[simp] theorem Dev.addSat_qe (d : Dev) (f : Fld) (v : Nat) : (d.addSat f v).qe = d.qe := rfl
@[simp] theorem Dev.addSat_bm (d : Dev) (f : Fld) (v : Nat) : (d.addSat f v).bm = d.bm := rfl
@[simp] theorem Dev.addSat_mp (d : Dev) (f : Fld) (v : Nat) : (d.addSat f v).mp = d.mp := rfl
@[simp] theorem Dev.addSat_ms (d : Dev) (f : Fld) (v : Nat) : (d.addSat f v).ms = d.ms := rfl
@[simp] theorem Dev.addSat_cd (d : Dev) (f : Fld) (v : Nat) : (d.addSat f v).cd = d.cd := rfl
@[simp] theorem Dev.addSat_cx (d : Dev) (f : Fld) (v : Nat) : (d.addSat f v).cx = d.cx := rfl
@[simp] theorem Dev.addSat_rc (d : Dev) (f : Fld) (v : Nat) : (d.addSat f v).rc = d.rc := rfl
@[simp] theorem Dev.addSat_rings (d : Dev) (f : Fld) (v : Nat) : (d.addSat f v).rings = d.rings := rfl
@[simp] theorem Dev.addSat_cores (d : Dev) (f : Fld) (v : Nat) : (d.addSat f v).cores = d.cores := rfl
@[simp] theorem Dev.addSat_mem (d : Dev) (f : Fld) (v : Nat) : (d.addSat f v).mem = d.mem := rfl
@[simp] theorem Dev.addSat_cf (d : Dev) (f : Fld) (v : Nat) : (d.addSat f v).cf = d.cf := rfl
@[simp] theorem Dev.addSat_image (d : Dev) (f : Fld) (v : Nat) : (d.addSat f v).image = d.image := rfl
@[simp] theorem Dev.addSat_host (d : Dev) (f : Fld) (v : Nat) : (d.addSat f v).host = d.host := rfl
@[simp] theorem Dev.addSat_ft (d : Dev) (f : Fld) (v : Nat) : (d.addSat f v).ft = d.ft := rfl
@[simp] theorem Dev.addSat_ev (d : Dev) (f : Fld) (v : Nat) : (d.addSat f v).ev = d.ev := rfl
@[simp] theorem Dev.addSat_mt (d : Dev) (f : Fld) (v : Nat) : (d.addSat f v).mt = d.mt := rfl
@[simp] theorem Dev.addSat_nand (d : Dev) (f : Fld) (v : Nat) : (d.addSat f v).nand = d.nand := rfl
@[simp] theorem Dev.addSat_out (d : Dev) (f : Fld) (v : Nat) : (d.addSat f v).out = d.out := rfl
@[simp] theorem Dev.addSat_freeCtr (d : Dev) (f : Fld) (v : Nat) : (d.addSat f v).freeCtr = d.freeCtr := rfl

/-! ### Dev.flag -/

@[simp] theorem Dev.flag_pw (d : Dev) (f : Fld) (b : Bool) : (d.flag f b).pw = d.pw := rfl
@[simp] theorem Dev.flag_port0 (d : Dev) (f : Fld) (b : Bool) : (d.flag f b).port0 = d.port0 := rfl
@[simp] theorem Dev.flag_port1 (d : Dev) (f : Fld) (b : Bool) : (d.flag f b).port1 = d.port1 := rfl
@[simp] theorem Dev.flag_qe (d : Dev) (f : Fld) (b : Bool) : (d.flag f b).qe = d.qe := rfl
@[simp] theorem Dev.flag_bm (d : Dev) (f : Fld) (b : Bool) : (d.flag f b).bm = d.bm := rfl
@[simp] theorem Dev.flag_mp (d : Dev) (f : Fld) (b : Bool) : (d.flag f b).mp = d.mp := rfl
@[simp] theorem Dev.flag_ms (d : Dev) (f : Fld) (b : Bool) : (d.flag f b).ms = d.ms := rfl
@[simp] theorem Dev.flag_cd (d : Dev) (f : Fld) (b : Bool) : (d.flag f b).cd = d.cd := rfl
@[simp] theorem Dev.flag_cx (d : Dev) (f : Fld) (b : Bool) : (d.flag f b).cx = d.cx := rfl
@[simp] theorem Dev.flag_rc (d : Dev) (f : Fld) (b : Bool) : (d.flag f b).rc = d.rc := rfl
@[simp] theorem Dev.flag_rings (d : Dev) (f : Fld) (b : Bool) : (d.flag f b).rings = d.rings := rfl
@[simp] theorem Dev.flag_cores (d : Dev) (f : Fld) (b : Bool) : (d.flag f b).cores = d.cores := rfl
@[simp] theorem Dev.flag_mem (d : Dev) (f : Fld) (b : Bool) : (d.flag f b).mem = d.mem := rfl
@[simp] theorem Dev.flag_cf (d : Dev) (f : Fld) (b : Bool) : (d.flag f b).cf = d.cf := rfl
@[simp] theorem Dev.flag_image (d : Dev) (f : Fld) (b : Bool) : (d.flag f b).image = d.image := rfl
@[simp] theorem Dev.flag_host (d : Dev) (f : Fld) (b : Bool) : (d.flag f b).host = d.host := rfl
@[simp] theorem Dev.flag_ft (d : Dev) (f : Fld) (b : Bool) : (d.flag f b).ft = d.ft := rfl
@[simp] theorem Dev.flag_ev (d : Dev) (f : Fld) (b : Bool) : (d.flag f b).ev = d.ev := rfl
@[simp] theorem Dev.flag_mt (d : Dev) (f : Fld) (b : Bool) : (d.flag f b).mt = d.mt := rfl
@[simp] theorem Dev.flag_nand (d : Dev) (f : Fld) (b : Bool) : (d.flag f b).nand = d.nand := rfl
@[simp] theorem Dev.flag_out (d : Dev) (f : Fld) (b : Bool) : (d.flag f b).out = d.out := rfl
@[simp] theorem Dev.flag_freeCtr (d : Dev) (f : Fld) (b : Bool) : (d.flag f b).freeCtr = d.freeCtr := rfl

/-! ### Dev.emit, Dev.draw -/

@[simp] theorem Dev.emit_regs (d : Dev) (e : Emit) : (d.emit e).regs = d.regs := rfl
@[simp] theorem Dev.emit_pw (d : Dev) (e : Emit) : (d.emit e).pw = d.pw := rfl
@[simp] theorem Dev.emit_port0 (d : Dev) (e : Emit) : (d.emit e).port0 = d.port0 := rfl
@[simp] theorem Dev.emit_port1 (d : Dev) (e : Emit) : (d.emit e).port1 = d.port1 := rfl
@[simp] theorem Dev.emit_qe (d : Dev) (e : Emit) : (d.emit e).qe = d.qe := rfl
@[simp] theorem Dev.emit_bm (d : Dev) (e : Emit) : (d.emit e).bm = d.bm := rfl
@[simp] theorem Dev.emit_mp (d : Dev) (e : Emit) : (d.emit e).mp = d.mp := rfl
@[simp] theorem Dev.emit_ms (d : Dev) (e : Emit) : (d.emit e).ms = d.ms := rfl
@[simp] theorem Dev.emit_cd (d : Dev) (e : Emit) : (d.emit e).cd = d.cd := rfl
@[simp] theorem Dev.emit_cx (d : Dev) (e : Emit) : (d.emit e).cx = d.cx := rfl
@[simp] theorem Dev.emit_rc (d : Dev) (e : Emit) : (d.emit e).rc = d.rc := rfl
@[simp] theorem Dev.emit_rings (d : Dev) (e : Emit) : (d.emit e).rings = d.rings := rfl
@[simp] theorem Dev.emit_cores (d : Dev) (e : Emit) : (d.emit e).cores = d.cores := rfl
@[simp] theorem Dev.emit_mem (d : Dev) (e : Emit) : (d.emit e).mem = d.mem := rfl
@[simp] theorem Dev.emit_cf (d : Dev) (e : Emit) : (d.emit e).cf = d.cf := rfl
@[simp] theorem Dev.emit_image (d : Dev) (e : Emit) : (d.emit e).image = d.image := rfl
@[simp] theorem Dev.emit_host (d : Dev) (e : Emit) : (d.emit e).host = d.host := rfl
@[simp] theorem Dev.emit_ft (d : Dev) (e : Emit) : (d.emit e).ft = d.ft := rfl
@[simp] theorem Dev.emit_ev (d : Dev) (e : Emit) : (d.emit e).ev = d.ev := rfl
@[simp] theorem Dev.emit_mt (d : Dev) (e : Emit) : (d.emit e).mt = d.mt := rfl
@[simp] theorem Dev.emit_nand (d : Dev) (e : Emit) : (d.emit e).nand = d.nand := rfl
@[simp] theorem Dev.emit_out (d : Dev) (e : Emit) : (d.emit e).out = d.out ++ [e] := rfl
@[simp] theorem Dev.emit_freeCtr (d : Dev) (e : Emit) : (d.emit e).freeCtr = d.freeCtr := rfl

@[simp] theorem Dev.draw_fst (d : Dev) : d.draw.1 = d.freeCtr := rfl
@[simp] theorem Dev.draw_regs (d : Dev) : d.draw.2.regs = d.regs := rfl
@[simp] theorem Dev.draw_pw (d : Dev) : d.draw.2.pw = d.pw := rfl
@[simp] theorem Dev.draw_port0 (d : Dev) : d.draw.2.port0 = d.port0 := rfl
@[simp] theorem Dev.draw_port1 (d : Dev) : d.draw.2.port1 = d.port1 := rfl
@[simp] theorem Dev.draw_qe (d : Dev) : d.draw.2.qe = d.qe := rfl
@[simp] theorem Dev.draw_bm (d : Dev) : d.draw.2.bm = d.bm := rfl
@[simp] theorem Dev.draw_mp (d : Dev) : d.draw.2.mp = d.mp := rfl
@[simp] theorem Dev.draw_ms (d : Dev) : d.draw.2.ms = d.ms := rfl
@[simp] theorem Dev.draw_cd (d : Dev) : d.draw.2.cd = d.cd := rfl
@[simp] theorem Dev.draw_cx (d : Dev) : d.draw.2.cx = d.cx := rfl
@[simp] theorem Dev.draw_rc (d : Dev) : d.draw.2.rc = d.rc := rfl
@[simp] theorem Dev.draw_rings (d : Dev) : d.draw.2.rings = d.rings := rfl
@[simp] theorem Dev.draw_cores (d : Dev) : d.draw.2.cores = d.cores := rfl
@[simp] theorem Dev.draw_mem (d : Dev) : d.draw.2.mem = d.mem := rfl
@[simp] theorem Dev.draw_cf (d : Dev) : d.draw.2.cf = d.cf := rfl
@[simp] theorem Dev.draw_image (d : Dev) : d.draw.2.image = d.image := rfl
@[simp] theorem Dev.draw_host (d : Dev) : d.draw.2.host = d.host := rfl
@[simp] theorem Dev.draw_ft (d : Dev) : d.draw.2.ft = d.ft := rfl
@[simp] theorem Dev.draw_ev (d : Dev) : d.draw.2.ev = d.ev := rfl
@[simp] theorem Dev.draw_mt (d : Dev) : d.draw.2.mt = d.mt := rfl
@[simp] theorem Dev.draw_nand (d : Dev) : d.draw.2.nand = d.nand := rfl
@[simp] theorem Dev.draw_out (d : Dev) : d.draw.2.out = d.out := rfl
@[simp] theorem Dev.draw_freeCtr (d : Dev) : d.draw.2.freeCtr = d.freeCtr + 1 := rfl

/-! ### Dev.modQueue -/

@[simp] theorem Dev.modQueue_regs (d : Dev) (p q : Nat) (f : Queue → Queue) : (d.modQueue p q f).regs = d.regs := rfl
@[simp] theorem Dev.modQueue_pw (d : Dev) (p q : Nat) (f : Queue → Queue) : (d.modQueue p q f).pw = d.pw := rfl
@[simp] theorem Dev.modQueue_port0 (d : Dev) (p q : Nat) (f : Queue → Queue) : (d.modQueue p q f).port0 = d.port0 := rfl
@[simp] theorem Dev.modQueue_port1 (d : Dev) (p q : Nat) (f : Queue → Queue) : (d.modQueue p q f).port1 = d.port1 := rfl
@[simp] theorem Dev.modQueue_bm (d : Dev) (p q : Nat) (f : Queue → Queue) : (d.modQueue p q f).bm = d.bm := rfl
@[simp] theorem Dev.modQueue_mp (d : Dev) (p q : Nat) (f : Queue → Queue) : (d.modQueue p q f).mp = d.mp := rfl
@[simp] theorem Dev.modQueue_ms (d : Dev) (p q : Nat) (f : Queue → Queue) : (d.modQueue p q f).ms = d.ms := rfl
@[simp] theorem Dev.modQueue_cd (d : Dev) (p q : Nat) (f : Queue → Queue) : (d.modQueue p q f).cd = d.cd := rfl
@[simp] theorem Dev.modQueue_cx (d : Dev) (p q : Nat) (f : Queue → Queue) : (d.modQueue p q f).cx = d.cx := rfl
@[simp] theorem Dev.modQueue_rc (d : Dev) (p q : Nat) (f : Queue → Queue) : (d.modQueue p q f).rc = d.rc := rfl
@[simp] theorem Dev.modQueue_rings (d : Dev) (p q : Nat) (f : Queue → Queue) : (d.modQueue p q f).rings = d.rings := rfl
@[simp] theorem Dev.modQueue_cores (d : Dev) (p q : Nat) (f : Queue → Queue) : (d.modQueue p q f).cores = d.cores := rfl
@[simp] theorem Dev.modQueue_mem (d : Dev) (p q : Nat) (f : Queue → Queue) : (d.modQueue p q f).mem = d.mem := rfl
@[simp] theorem Dev.modQueue_cf (d : Dev) (p q : Nat) (f : Queue → Queue) : (d.modQueue p q f).cf = d.cf := rfl
@[simp] theorem Dev.modQueue_image (d : Dev) (p q : Nat) (f : Queue → Queue) : (d.modQueue p q f).image = d.image := rfl
@[simp] theorem Dev.modQueue_host (d : Dev) (p q : Nat) (f : Queue → Queue) : (d.modQueue p q f).host = d.host := rfl
@[simp] theorem Dev.modQueue_ft (d : Dev) (p q : Nat) (f : Queue → Queue) : (d.modQueue p q f).ft = d.ft := rfl
@[simp] theorem Dev.modQueue_ev (d : Dev) (p q : Nat) (f : Queue → Queue) : (d.modQueue p q f).ev = d.ev := rfl
@[simp] theorem Dev.modQueue_mt (d : Dev) (p q : Nat) (f : Queue → Queue) : (d.modQueue p q f).mt = d.mt := rfl
@[simp] theorem Dev.modQueue_nand (d : Dev) (p q : Nat) (f : Queue → Queue) : (d.modQueue p q f).nand = d.nand := rfl
@[simp] theorem Dev.modQueue_out (d : Dev) (p q : Nat) (f : Queue → Queue) : (d.modQueue p q f).out = d.out := rfl
@[simp] theorem Dev.modQueue_freeCtr (d : Dev) (p q : Nat) (f : Queue → Queue) : (d.modQueue p q f).freeCtr = d.freeCtr := rfl

/-! ### Dev.modCmd -/

@[simp] theorem Dev.modCmd_regs (d : Dev) (a : Nat) (f : Command → Command) : (d.modCmd a f).regs = d.regs := rfl
@[simp] theorem Dev.modCmd_pw (d : Dev) (a : Nat) (f : Command → Command) : (d.modCmd a f).pw = d.pw := rfl
@[simp] theorem Dev.modCmd_port0 (d : Dev) (a : Nat) (f : Command → Command) : (d.modCmd a f).port0 = d.port0 := rfl
@[simp] theorem Dev.modCmd_port1 (d : Dev) (a : Nat) (f : Command → Command) : (d.modCmd a f).port1 = d.port1 := rfl
@[simp] theorem Dev.modCmd_bm (d : Dev) (a : Nat) (f : Command → Command) : (d.modCmd a f).bm = d.bm := rfl
@[simp] theorem Dev.modCmd_mp (d : Dev) (a : Nat) (f : Command → Command) : (d.modCmd a f).mp = d.mp := rfl
@[simp] theorem Dev.modCmd_ms (d : Dev) (a : Nat) (f : Command → Command) : (d.modCmd a f).ms = d.ms := rfl
@[simp] theorem Dev.modCmd_cd (d : Dev) (a : Nat) (f : Command → Command) : (d.modCmd a f).cd = d.cd := rfl
@[simp] theorem Dev.modCmd_cx (d : Dev) (a : Nat) (f : Command → Command) : (d.modCmd a f).cx = d.cx := rfl
@[simp] theorem Dev.modCmd_rc (d : Dev) (a : Nat) (f : Command → Command) : (d.modCmd a f).rc = d.rc := rfl
@[simp] theorem Dev.modCmd_rings (d : Dev) (a : Nat) (f : Command → Command) : (d.modCmd a f).rings = d.rings := rfl
@[simp] theorem Dev.modCmd_cores (d : Dev) (a : Nat) (f : Command → Command) : (d.modCmd a f).cores = d.cores := rfl
@[simp] theorem Dev.modCmd_mem (d : Dev) (a : Nat) (f : Command → Command) : (d.modCmd a f).mem = d.mem := rfl
@[simp] theorem Dev.modCmd_cf (d : Dev) (a : Nat) (f : Command → Command) : (d.modCmd a f).cf = d.cf := rfl
@[simp] theorem Dev.modCmd_image (d : Dev) (a : Nat) (f : Command → Command) : (d.modCmd a f).image = d.image := rfl
@[simp] theorem Dev.modCmd_host (d : Dev) (a : Nat) (f : Command → Command) : (d.modCmd a f).host = d.host := rfl
@[simp] theorem Dev.modCmd_ft (d : Dev) (a : Nat) (f : Command → Command) : (d.modCmd a f).ft = d.ft := rfl
@[simp] theorem Dev.modCmd_ev (d : Dev) (a : Nat) (f : Command → Command) : (d.modCmd a f).ev = d.ev := rfl
@[simp] theorem Dev.modCmd_mt (d : Dev) (a : Nat) (f : Command → Command) : (d.modCmd a f).mt = d.mt := rfl
@[simp] theorem Dev.modCmd_nand (d : Dev) (a : Nat) (f : Command → Command) : (d.modCmd a f).nand = d.nand := rfl
@[simp] theorem Dev.modCmd_out (d : Dev) (a : Nat) (f : Command → Command) : (d.modCmd a f).out = d.out := rfl
@[simp] theorem Dev.modCmd_freeCtr (d : Dev) (a : Nat) (f : Command → Command) : (d.modCmd a f).freeCtr = d.freeCtr := rfl

/-! ### Dev.dropCmd -/

@[simp] theorem Dev.dropCmd_regs (d : Dev) (a : Nat) : (d.dropCmd a).regs = d.regs := rfl
@[simp] theorem Dev.dropCmd_pw (d : Dev) (a : Nat) : (d.dropCmd a).pw = d.pw := rfl
@[simp] theorem Dev.dropCmd_port0 (d : Dev) (a : Nat) : (d.dropCmd a).port0 = d.port0 := rfl
@[simp] theorem Dev.dropCmd_port1 (d : Dev) (a : Nat) : (d.dropCmd a).port1 = d.port1 := rfl
@[simp] theorem Dev.dropCmd_bm (d : Dev) (a : Nat) : (d.dropCmd a).bm = d.bm := rfl
@[simp] theorem Dev.dropCmd_mp (d : Dev) (a : Nat) : (d.dropCmd a).mp = d.mp := rfl
@[simp] theorem Dev.dropCmd_ms (d : Dev) (a : Nat) : (d.dropCmd a).ms = d.ms := rfl
@[simp] theorem Dev.dropCmd_cd (d : Dev) (a : Nat) : (d.dropCmd a).cd = d.cd := rfl
@[simp] theorem Dev.dropCmd_cx (d : Dev) (a : Nat) : (d.dropCmd a).cx = d.cx := rfl
@[simp] theorem Dev.dropCmd_rc (d : Dev) (a : Nat) : (d.dropCmd a).rc = d.rc := rfl
@[simp] theorem Dev.dropCmd_rings (d : Dev) (a : Nat) : (d.dropCmd a).rings = d.rings := rfl
@[simp] theorem Dev.dropCmd_cores (d : Dev) (a : Nat) : (d.dropCmd a).cores = d.cores := rfl
@[simp] theorem Dev.dropCmd_mem (d : Dev) (a : Nat) : (d.dropCmd a).mem = d.mem := rfl
@[simp] theorem Dev.dropCmd_cf (d : Dev) (a : Nat) : (d.dropCmd a).cf = d.cf := rfl
@[simp] theorem Dev.dropCmd_image (d : Dev) (a : Nat) : (d.dropCmd a).image = d.image := rfl
@[simp] theorem Dev.dropCmd_host (d : Dev) (a : Nat) : (d.dropCmd a).host = d.host := rfl
@[simp] theorem Dev.dropCmd_ft (d : Dev) (a : Nat) : (d.dropCmd a).ft = d.ft := rfl
@[simp] theorem Dev.dropCmd_ev (d : Dev) (a : Nat) : (d.dropCmd a).ev = d.ev := rfl
@[simp] theorem Dev.dropCmd_mt (d : Dev) (a : Nat) : (d.dropCmd a).mt = d.mt := rfl
@[simp] theorem Dev.dropCmd_nand (d : Dev) (a : Nat) : (d.dropCmd a).nand = d.nand := rfl
@[simp] theorem Dev.dropCmd_out (d : Dev) (a : Nat) : (d.dropCmd a).out = d.out := rfl
@[simp] theorem Dev.dropCmd_freeCtr (d : Dev) (a : Nat) : (d.dropCmd a).freeCtr = d.freeCtr := rfl

/-! ### Dev.toRing -/

@[simp] theorem Dev.toRing_regs (d : Dev) (p q : Nat) (r : RingPkt) : (d.toRing p q r).regs = d.regs := rfl
@[simp] theorem Dev.toRing_pw (d : Dev) (p q : Nat) (r : RingPkt) : (d.toRing p q r).pw = d.pw := rfl
@[simp] theorem Dev.toRing_port0 (d : Dev) (p q : Nat) (r : RingPkt) : (d.toRing p q r).port0 = d.port0 := rfl
@[simp] theorem Dev.toRing_port1 (d : Dev) (p q : Nat) (r : RingPkt) : (d.toRing p q r).port1 = d.port1 := rfl
@[simp] theorem Dev.toRing_bm (d : Dev) (p q : Nat) (r : RingPkt) : (d.toRing p q r).bm = d.bm := rfl
@[simp] theorem Dev.toRing_mp (d : Dev) (p q : Nat) (r : RingPkt) : (d.toRing p q r).mp = d.mp := rfl
@[simp] theorem Dev.toRing_ms (d : Dev) (p q : Nat) (r : RingPkt) : (d.toRing p q r).ms = d.ms := rfl
@[simp] theorem Dev.toRing_cd (d : Dev) (p q : Nat) (r : RingPkt) : (d.toRing p q r).cd = d.cd := rfl
@[simp] theorem Dev.toRing_cx (d : Dev) (p q : Nat) (r : RingPkt) : (d.toRing p q r).cx = d.cx := rfl
@[simp] theorem Dev.toRing_rc (d : Dev) (p q : Nat) (r : RingPkt) : (d.toRing p q r).rc = d.rc := rfl
@[simp] theorem Dev.toRing_rings (d : Dev) (p q : Nat) (r : RingPkt) : (d.toRing p q r).rings = d.rings := rfl
@[simp] theorem Dev.toRing_cores (d : Dev) (p q : Nat) (r : RingPkt) : (d.toRing p q r).cores = d.cores := rfl
@[simp] theorem Dev.toRing_mem (d : Dev) (p q : Nat) (r : RingPkt) : (d.toRing p q r).mem = d.mem := rfl
@[simp] theorem Dev.toRing_cf (d : Dev) (p q : Nat) (r : RingPkt) : (d.toRing p q r).cf = d.cf := rfl
@[simp] theorem Dev.toRing_image (d : Dev) (p q : Nat) (r : RingPkt) : (d.toRing p q r).image = d.image := rfl
@[simp] theorem Dev.toRing_host (d : Dev) (p q : Nat) (r : RingPkt) : (d.toRing p q r).host = d.host := rfl
@[simp] theorem Dev.toRing_ft (d : Dev) (p q : Nat) (r : RingPkt) : (d.toRing p q r).ft = d.ft := rfl
@[simp] theorem Dev.toRing_ev (d : Dev) (p q : Nat) (r : RingPkt) : (d.toRing p q r).ev = d.ev := rfl
@[simp] theorem Dev.toRing_mt (d : Dev) (p q : Nat) (r : RingPkt) : (d.toRing p q r).mt = d.mt := rfl
@[simp] theorem Dev.toRing_nand (d : Dev) (p q : Nat) (r : RingPkt) : (d.toRing p q r).nand = d.nand := rfl
@[simp] theorem Dev.toRing_out (d : Dev) (p q : Nat) (r : RingPkt) : (d.toRing p q r).out = d.out := rfl
@[simp] theorem Dev.toRing_freeCtr (d : Dev) (p q : Nat) (r : RingPkt) : (d.toRing p q r).freeCtr = d.freeCtr := rfl

@[simp] theorem Dev.modQueue_queues (d : Dev) (p q : Nat) (f : Queue → Queue) :
    (d.modQueue p q f).qe.queues = d.qe.queues.modify (qkey p q) f := rfl
@[simp] theorem Dev.modQueue_cmds (d : Dev) (p q : Nat) (f : Queue → Queue) : (d.modQueue p q f).qe.cmds = d.qe.cmds := rfl
@[simp] theorem Dev.modCmd_cmds (d : Dev) (a : Nat) (f : Command → Command) :
    (d.modCmd a f).qe.cmds = d.qe.cmds.map (fun c => if c.acc = a then f c else c) := rfl
@[simp] theorem Dev.modCmd_queues (d : Dev) (a : Nat) (f : Command → Command) : (d.modCmd a f).qe.queues = d.qe.queues := rfl

/-! ### Dev.modPort -/

@[simp] theorem Dev.modPort_regs (d : Dev) (p : Nat) (f : Port → Port) : (d.modPort p f).regs = d.regs := by
  unfold Dev.modPort; split <;> rfl
@[simp] theorem Dev.modPort_pw (d : Dev) (p : Nat) (f : Port → Port) : (d.modPort p f).pw = d.pw := by
  unfold Dev.modPort; split <;> rfl
@[simp] theorem Dev.modPort_qe (d : Dev) (p : Nat) (f : Port → Port) : (d.modPort p f).qe = d.qe := by
  unfold Dev.modPort; split <;> rfl
@[simp] theorem Dev.modPort_bm (d : Dev) (p : Nat) (f : Port → Port) : (d.modPort p f).bm = d.bm := by
  unfold Dev.modPort; split <;> rfl
@[simp] theorem Dev.modPort_mp (d : Dev) (p : Nat) (f : Port → Port) : (d.modPort p f).mp = d.mp := by
  unfold Dev.modPort; split <;> rfl
@[simp] theorem Dev.modPort_ms (d : Dev) (p : Nat) (f : Port → Port) : (d.modPort p f).ms = d.ms := by
  unfold Dev.modPort; split <;> rfl
@[simp] theorem Dev.modPort_cd (d : Dev) (p : Nat) (f : Port → Port) : (d.modPort p f).cd = d.cd := by
  unfold Dev.modPort; split <;> rfl
@[simp] theorem Dev.modPort_cx (d : Dev) (p : Nat) (f : Port → Port) : (d.modPort p f).cx = d.cx := by
  unfold Dev.modPort; split <;> rfl
@[simp] theorem Dev.modPort_rc (d : Dev) (p : Nat) (f : Port → Port) : (d.modPort p f).rc = d.rc := by
  unfold Dev.modPort; split <;> rfl
@[simp] theorem Dev.modPort_rings (d : Dev) (p : Nat) (f : Port → Port) : (d.modPort p f).rings = d.rings := by
  unfold Dev.modPort; split <;> rfl
@[simp] theorem Dev.modPort_cores (d : Dev) (p : Nat) (f : Port → Port) : (d.modPort p f).cores = d.cores := by
  unfold Dev.modPort; split <;> rfl
@[simp] theorem Dev.modPort_mem (d : Dev) (p : Nat) (f : Port → Port) : (d.modPort p f).mem = d.mem := by
  unfold Dev.modPort; split <;> rfl
@[simp] theorem Dev.modPort_cf (d : Dev) (p : Nat) (f : Port → Port) : (d.modPort p f).cf = d.cf := by
  unfold Dev.modPort; split <;> rfl
@[simp] theorem Dev.modPort_image (d : Dev) (p : Nat) (f : Port → Port) : (d.modPort p f).image = d.image := by
  unfold Dev.modPort; split <;> rfl
@[simp] theorem Dev.modPort_host (d : Dev) (p : Nat) (f : Port → Port) : (d.modPort p f).host = d.host := by
  unfold Dev.modPort; split <;> rfl
@[simp] theorem Dev.modPort_ft (d : Dev) (p : Nat) (f : Port → Port) : (d.modPort p f).ft = d.ft := by
  unfold Dev.modPort; split <;> rfl
@[simp] theorem Dev.modPort_ev (d : Dev) (p : Nat) (f : Port → Port) : (d.modPort p f).ev = d.ev := by
  unfold Dev.modPort; split <;> rfl
@[simp] theorem Dev.modPort_mt (d : Dev) (p : Nat) (f : Port → Port) : (d.modPort p f).mt = d.mt := by
  unfold Dev.modPort; split <;> rfl
@[simp] theorem Dev.modPort_nand (d : Dev) (p : Nat) (f : Port → Port) : (d.modPort p f).nand = d.nand := by
  unfold Dev.modPort; split <;> rfl
@[simp] theorem Dev.modPort_out (d : Dev) (p : Nat) (f : Port → Port) : (d.modPort p f).out = d.out := by
  unfold Dev.modPort; split <;> rfl
@[simp] theorem Dev.modPort_freeCtr (d : Dev) (p : Nat) (f : Port → Port) : (d.modPort p f).freeCtr = d.freeCtr := by
  unfold Dev.modPort; split <;> rfl
@[simp] theorem Dev.modPort_port (d : Dev) (p : Nat) (f : Port → Port) : (d.modPort p f).port p = f (d.port p) := by
  unfold Dev.modPort Dev.port; split <;> rfl
@[simp] theorem Dev.modPort_port0 (d : Dev) (f : Port → Port) : (d.modPort 0 f).port0 = f d.port0 := rfl
@[simp] theorem Dev.modPort_port1 (d : Dev) (f : Port → Port) : (d.modPort 1 f).port1 = f d.port1 := rfl

/-! ### Registers under the other updates -/

@[simp] theorem Dev.modPw_get (d : Dev) (f : Pw → Pw) (x : Fld) : (d.modPw f).get x = d.get x := rfl
@[simp] theorem Dev.modQe_get (d : Dev) (f : Qe → Qe) (x : Fld) : (d.modQe f).get x = d.get x := rfl
@[simp] theorem Dev.modBm_get (d : Dev) (f : Bm → Bm) (x : Fld) : (d.modBm f).get x = d.get x := rfl
@[simp] theorem Dev.modMp_get (d : Dev) (f : Mp → Mp) (x : Fld) : (d.modMp f).get x = d.get x := rfl
@[simp] theorem Dev.modMs_get (d : Dev) (f : Ms → Ms) (x : Fld) : (d.modMs f).get x = d.get x := rfl
@[simp] theorem Dev.modCd_get (d : Dev) (f : Cd → Cd) (x : Fld) : (d.modCd f).get x = d.get x := rfl
@[simp] theorem Dev.modRc_get (d : Dev) (f : Rc → Rc) (x : Fld) : (d.modRc f).get x = d.get x := rfl
@[simp] theorem Dev.modEv_get (d : Dev) (f : Ev → Ev) (x : Fld) : (d.modEv f).get x = d.get x := rfl
@[simp] theorem Dev.modCf_get (d : Dev) (f : Cf → Cf) (x : Fld) : (d.modCf f).get x = d.get x := rfl
@[simp] theorem Dev.modCores_get (d : Dev) (f : Cores → Cores) (x : Fld) : (d.modCores f).get x = d.get x := rfl
@[simp] theorem Dev.modNand_get (d : Dev) (f : Nand → Nand) (x : Fld) : (d.modNand f).get x = d.get x := rfl
@[simp] theorem Dev.modMem_get (d : Dev) (f : Mem → Mem) (x : Fld) : (d.modMem f).get x = d.get x := rfl
@[simp] theorem Dev.modHost_get (d : Dev) (f : Host_ → Host_) (x : Fld) : (d.modHost f).get x = d.get x := rfl
@[simp] theorem Dev.modMt_get (d : Dev) (f : Mt → Mt) (x : Fld) : (d.modMt f).get x = d.get x := rfl
@[simp] theorem Dev.modQueue_get (d : Dev) (p q : Nat) (f : Queue → Queue) (x : Fld) : (d.modQueue p q f).get x = d.get x := rfl
@[simp] theorem Dev.modCmd_get (d : Dev) (a : Nat) (f : Command → Command) (x : Fld) : (d.modCmd a f).get x = d.get x := rfl
@[simp] theorem Dev.dropCmd_get (d : Dev) (a : Nat) (x : Fld) : (d.dropCmd a).get x = d.get x := rfl
@[simp] theorem Dev.toRing_get (d : Dev) (p q : Nat) (r : RingPkt) (x : Fld) : (d.toRing p q r).get x = d.get x := rfl
@[simp] theorem Dev.emit_get (d : Dev) (e : Emit) (x : Fld) : (d.emit e).get x = d.get x := rfl
@[simp] theorem Dev.draw_get (d : Dev) (x : Fld) : d.draw.2.get x = d.get x := rfl
@[simp] theorem Dev.modPort_get (d : Dev) (p : Nat) (f : Port → Port) (x : Fld) : (d.modPort p f).get x = d.get x := by
  unfold Dev.modPort; split <;> rfl

end Sys2Proof.Machine
end

