-- ==== Sys2Proof/Laws/Ops.lean ====
section
/-! SUPPORT. What the shared operations can touch: an interrupt, a message, an event record, a notice, a freeze and a completion
change registers, ports, queues, interrupt controller, recorder, emissions and free values at most, so the rest of the device is as it
was; and what raising and recording leave alone. -/

namespace Sys2Proof.Machine

/-- The parts of the device that reports, notices and completions never touch. -/
def Dev.inner (d : Dev) : Pw × Mp × Ms × Cd × Cx × Rc × Rings × Mem × Cf × Image × Host_ × Ft × Mt × Nand :=
  (d.pw, d.mp, d.ms, d.cd, d.cx, d.rc, d.rings, d.mem, d.cf, d.image, d.host, d.ft, d.mt, d.nand)

theorem Dev.inner_eq {d e : Dev} (h : d.inner = e.inner) :
    d.pw = e.pw ∧ d.mp = e.mp ∧ d.ms = e.ms ∧ d.cd = e.cd ∧ d.cx = e.cx ∧ d.rc = e.rc ∧ d.rings = e.rings ∧ d.mem = e.mem ∧
    d.cf = e.cf ∧ d.image = e.image ∧ d.host = e.host ∧ d.ft = e.ft ∧ d.mt = e.mt ∧ d.nand = e.nand := by
  simpa [Dev.inner] using h

section
variable (d : Dev)

@[simp] theorem Dev.setReg_inner (a v : Nat) : (d.setReg a v).inner = d.inner := rfl
@[simp] theorem Dev.put_inner (f : Fld) (v : Nat) : (d.put f v).inner = d.inner := rfl
@[simp] theorem Dev.flag_inner (f : Fld) (b : Bool) : (d.flag f b).inner = d.inner := rfl
@[simp] theorem Dev.add_inner (f : Fld) (n : Nat) : (d.add f n).inner = d.inner := rfl
@[simp] theorem Dev.addSat_inner (f : Fld) (n : Nat) : (d.addSat f n).inner = d.inner := rfl
@[simp] theorem Dev.emit_inner (e : Emit) : (d.emit e).inner = d.inner := rfl
@[simp] theorem Dev.modPort_inner (p : Nat) (f : Port → Port) : (d.modPort p f).inner = d.inner := by
  unfold Dev.modPort; split <;> rfl
@[simp] theorem Dev.modQe_inner (f : Qe → Qe) : (d.modQe f).inner = d.inner := rfl
@[simp] theorem Dev.modEv_inner (f : Ev → Ev) : (d.modEv f).inner = d.inner := rfl
@[simp] theorem Dev.modCmd_inner (a : Nat) (f : Command → Command) : (d.modCmd a f).inner = d.inner := rfl
@[simp] theorem Dev.modQueue_inner (p q : Nat) (f : Queue → Queue) : (d.modQueue p q f).inner = d.inner := rfl
@[simp] theorem Dev.toRing_inner (p q : Nat) (r : RingPkt) : (d.toRing p q r).inner = d.inner := rfl
@[simp] theorem Dev.modBm_inner (f : Bm → Bm) : (d.modBm f).inner = d.inner := rfl
@[simp] theorem Dev.setIcPending_inner (n : Nat) (b : Bool) : (d.setIcPending n b).inner = d.inner := rfl

theorem Dev.each_inner {α : Type} (f : Dev → α → Dev) (h : ∀ d a, (f d a).inner = d.inner) (l : List α) :
    (d.each l f).inner = d.inner := Dev.each_keeps Dev.inner f h d l

@[simp] theorem Dev.signal_inner (p v : Nat) : (d.signal p v).inner = d.inner := by
  unfold Dev.signal; dsimp only; split
  · rfl
  · split
    · simp
    · simp
@[simp] theorem Dev.resend_inner (p v : Nat) : (d.resend p v).inner = d.inner := by
  unfold Dev.resend; dsimp only; split <;> simp
@[simp] theorem Dev.resendAll_inner (p : Nat) : (d.resendAll p).inner = d.inner := Dev.each_inner _ _ (fun _ _ => by simp) _
@[simp] theorem Dev.deliver_inner (n : Nat) : (d.deliver n).inner = d.inner := by
  unfold Dev.deliver; dsimp only; split <;> simp
@[simp] theorem Dev.raise_inner (n : Nat) : (d.raise n).inner = d.inner := by unfold Dev.raise; simp
@[simp] theorem Dev.letIn_inner (code src cls : Nat) (r : Bool) (p0 p1 p2 : Nat) : (d.letIn code src cls r p0 p1 p2).inner = d.inner := by
  unfold Dev.letIn; split
  · simp
  · split
    · simp
    · dsimp only; split
      · rw [Dev.raise_inner]; rfl
      · rfl
@[simp] theorem Dev.noticeOn_inner (p code p0 p1 p2 : Nat) : (d.noticeOn p code p0 p1 p2).inner = d.inner := by
  unfold Dev.noticeOn; split
  · rfl
  · split
    · simp
    · split <;> simp
@[simp] theorem Dev.notice_inner (code p0 p1 p2 : Nat) : (d.notice code p0 p1 p2).inner = d.inner :=
  Dev.each_inner _ _ (fun _ _ => by simp) _
@[simp] theorem Dev.record_inner (code src cls : Nat) (r : Bool) (p0 p1 p2 : Nat) : (d.record code src cls r p0 p1 p2).inner = d.inner := by
  unfold Dev.record; dsimp only; split
  · rw [Dev.notice_inner, Dev.raise_inner]; exact Dev.letIn_inner ..
  · simp
@[simp] theorem Dev.event_inner (code src p0 p1 p2 : Nat) : (d.event code src p0 p1 p2).inner = d.inner := by unfold Dev.event; simp
@[simp] theorem Dev.zeroDeficits_inner : d.zeroDeficits.inner = d.inner := rfl
@[simp] theorem Dev.freezeWith_inner (p q : Nat) (c : Option Command) (st : BitVec 16) (l : Option Qword) (n : Nat) (src : Option Nat) :
    (d.freezeWith p q c st l n src).inner = d.inner := by
  unfold Dev.freezeWith; split
  · rfl
  · dsimp only; split
    · simp
    · rw [Dev.zeroDeficits_inner]; simp
@[simp] theorem Dev.dropPacket_inner (p q : Nat) (r : BitVec 16) : (d.dropPacket p q r).inner = d.inner := by unfold Dev.dropPacket; simp
@[simp] theorem Dev.endGrants_inner (a : Nat) : (d.endGrants a).inner = d.inner := rfl
@[simp] theorem Dev.notePressure_inner : d.notePressure.inner = d.inner := by
  unfold Dev.notePressure; dsimp only; split
  · simp
  · split <;> simp
@[simp] theorem Dev.releaseBuffer_inner (n : Nat) : (d.releaseBuffer n).inner = d.inner := by unfold Dev.releaseBuffer; simp
@[simp] theorem Dev.releaseParts_inner (c : Command) : (d.releaseParts c).inner = d.inner := by unfold Dev.releaseParts; simp
@[simp] theorem Dev.queueCompletion_inner (c : Command) (r : Done) (a : List Nat) : (d.queueCompletion c r a).inner = d.inner := by
  unfold Dev.queueCompletion; split <;> simp
@[simp] theorem Dev.numberCommit_inner (a : Nat) : (d.numberCommit a).inner = d.inner := rfl
@[simp] theorem Dev.commitWith_inner (a : Nat) (r : Done) (l : List Nat) : (d.commitWith a r l).inner = d.inner := by
  unfold Dev.commitWith; split
  · rfl
  · split <;> simp
@[simp] theorem Dev.succeed_inner (a r q : Nat) : (d.succeed a r q).inner = d.inner := by unfold Dev.succeed; simp
@[simp] theorem Dev.failWith_inner (a : Nat) (r : Done) (n : Nat) : (d.failWith a r n).inner = d.inner := by
  unfold Dev.failWith; split
  · rfl
  · split
    · rfl
    · dsimp only; split <;> simp
@[simp] theorem Dev.fail_inner (a : Nat) (st : BitVec 16) : (d.fail a st).inner = d.inner := by unfold Dev.fail; simp
@[simp] theorem Dev.settleDelete_inner (p q : Nat) : (d.settleDelete p q).inner = d.inner := by
  unfold Dev.settleDelete; split
  · rfl
  · split
    · dsimp only; split <;> simp
    · rfl
end

/-! ### Interrupts and messages leave queues, recorder and registers alone -/

section
variable (d : Dev)


@[simp] theorem Dev.signal_regs (p v : Nat) : (d.signal p v).regs = d.regs := by
  unfold Dev.signal; dsimp only; split
  · rfl
  · split
    · simp
    · rfl
@[simp] theorem Dev.signal_qe (p v : Nat) : (d.signal p v).qe = d.qe := by
  unfold Dev.signal; dsimp only; split
  · rfl
  · split
    · simp
    · rfl
@[simp] theorem Dev.signal_ev (p v : Nat) : (d.signal p v).ev = d.ev := by
  unfold Dev.signal; dsimp only; split
  · rfl
  · split
    · simp
    · rfl
@[simp] theorem Dev.signal_bm (p v : Nat) : (d.signal p v).bm = d.bm := by
  unfold Dev.signal; dsimp only; split
  · rfl
  · split
    · simp
    · rfl
@[simp] theorem Dev.raise_regs (n : Nat) : (d.raise n).regs = d.regs := by
  unfold Dev.raise Dev.deliver; dsimp only; split
  · simp; rfl
  · rfl
@[simp] theorem Dev.raise_qe (n : Nat) : (d.raise n).qe = d.qe := by
  unfold Dev.raise Dev.deliver; dsimp only; split
  · simp; rfl
  · rfl
@[simp] theorem Dev.raise_ev (n : Nat) : (d.raise n).ev = d.ev := by
  unfold Dev.raise Dev.deliver; dsimp only; split
  · simp; rfl
  · rfl
@[simp] theorem Dev.raise_bm (n : Nat) : (d.raise n).bm = d.bm := by
  unfold Dev.raise Dev.deliver; dsimp only; split
  · simp; rfl
  · rfl
end

/-! ### The parts one by one -/

section
variable (d : Dev)

@[simp] theorem Dev.signal_pw (p v : Nat) : (d.signal p v).pw = d.pw := congrArg (·.1) (d.signal_inner p v)
@[simp] theorem Dev.signal_ms (p v : Nat) : (d.signal p v).ms = d.ms := congrArg (·.2.2.1) (d.signal_inner p v)
@[simp] theorem Dev.signal_mp (p v : Nat) : (d.signal p v).mp = d.mp := congrArg (·.2.1) (d.signal_inner p v)
@[simp] theorem Dev.signal_rc (p v : Nat) : (d.signal p v).rc = d.rc := congrArg (·.2.2.2.2.2.1) (d.signal_inner p v)
@[simp] theorem Dev.signal_mem (p v : Nat) : (d.signal p v).mem = d.mem := congrArg (·.2.2.2.2.2.2.2.1) (d.signal_inner p v)
@[simp] theorem Dev.signal_cf (p v : Nat) : (d.signal p v).cf = d.cf := congrArg (·.2.2.2.2.2.2.2.2.1) (d.signal_inner p v)
@[simp] theorem Dev.signal_ft (p v : Nat) : (d.signal p v).ft = d.ft := congrArg (·.2.2.2.2.2.2.2.2.2.2.2.1) (d.signal_inner p v)
@[simp] theorem Dev.signal_mt (p v : Nat) : (d.signal p v).mt = d.mt := congrArg (·.2.2.2.2.2.2.2.2.2.2.2.2.1) (d.signal_inner p v)
@[simp] theorem Dev.signal_nand (p v : Nat) : (d.signal p v).nand = d.nand := congrArg (·.2.2.2.2.2.2.2.2.2.2.2.2.2) (d.signal_inner p v)
@[simp] theorem Dev.raise_pw (n : Nat) : (d.raise n).pw = d.pw := congrArg (·.1) (d.raise_inner n)
@[simp] theorem Dev.raise_ms (n : Nat) : (d.raise n).ms = d.ms := congrArg (·.2.2.1) (d.raise_inner n)
@[simp] theorem Dev.raise_mp (n : Nat) : (d.raise n).mp = d.mp := congrArg (·.2.1) (d.raise_inner n)
@[simp] theorem Dev.raise_rc (n : Nat) : (d.raise n).rc = d.rc := congrArg (·.2.2.2.2.2.1) (d.raise_inner n)
@[simp] theorem Dev.raise_mem (n : Nat) : (d.raise n).mem = d.mem := congrArg (·.2.2.2.2.2.2.2.1) (d.raise_inner n)
@[simp] theorem Dev.raise_cf (n : Nat) : (d.raise n).cf = d.cf := congrArg (·.2.2.2.2.2.2.2.2.1) (d.raise_inner n)
@[simp] theorem Dev.raise_ft (n : Nat) : (d.raise n).ft = d.ft := congrArg (·.2.2.2.2.2.2.2.2.2.2.2.1) (d.raise_inner n)
@[simp] theorem Dev.raise_mt (n : Nat) : (d.raise n).mt = d.mt := congrArg (·.2.2.2.2.2.2.2.2.2.2.2.2.1) (d.raise_inner n)
@[simp] theorem Dev.raise_nand (n : Nat) : (d.raise n).nand = d.nand := congrArg (·.2.2.2.2.2.2.2.2.2.2.2.2.2) (d.raise_inner n)
@[simp] theorem Dev.letIn_pw (c s k : Nat) (r : Bool) (x y z : Nat) : (d.letIn c s k r x y z).pw = d.pw := congrArg (·.1) (d.letIn_inner c s k r x y z)
@[simp] theorem Dev.letIn_ms (c s k : Nat) (r : Bool) (x y z : Nat) : (d.letIn c s k r x y z).ms = d.ms := congrArg (·.2.2.1) (d.letIn_inner c s k r x y z)
@[simp] theorem Dev.letIn_mp (c s k : Nat) (r : Bool) (x y z : Nat) : (d.letIn c s k r x y z).mp = d.mp := congrArg (·.2.1) (d.letIn_inner c s k r x y z)
@[simp] theorem Dev.letIn_rc (c s k : Nat) (r : Bool) (x y z : Nat) : (d.letIn c s k r x y z).rc = d.rc := congrArg (·.2.2.2.2.2.1) (d.letIn_inner c s k r x y z)
@[simp] theorem Dev.letIn_mem (c s k : Nat) (r : Bool) (x y z : Nat) : (d.letIn c s k r x y z).mem = d.mem := congrArg (·.2.2.2.2.2.2.2.1) (d.letIn_inner c s k r x y z)
@[simp] theorem Dev.letIn_cf (c s k : Nat) (r : Bool) (x y z : Nat) : (d.letIn c s k r x y z).cf = d.cf := congrArg (·.2.2.2.2.2.2.2.2.1) (d.letIn_inner c s k r x y z)
@[simp] theorem Dev.letIn_ft (c s k : Nat) (r : Bool) (x y z : Nat) : (d.letIn c s k r x y z).ft = d.ft := congrArg (·.2.2.2.2.2.2.2.2.2.2.2.1) (d.letIn_inner c s k r x y z)
@[simp] theorem Dev.letIn_mt (c s k : Nat) (r : Bool) (x y z : Nat) : (d.letIn c s k r x y z).mt = d.mt := congrArg (·.2.2.2.2.2.2.2.2.2.2.2.2.1) (d.letIn_inner c s k r x y z)
@[simp] theorem Dev.letIn_nand (c s k : Nat) (r : Bool) (x y z : Nat) : (d.letIn c s k r x y z).nand = d.nand := congrArg (·.2.2.2.2.2.2.2.2.2.2.2.2.2) (d.letIn_inner c s k r x y z)
@[simp] theorem Dev.notice_pw (c x y z : Nat) : (d.notice c x y z).pw = d.pw := congrArg (·.1) (d.notice_inner c x y z)
@[simp] theorem Dev.notice_ms (c x y z : Nat) : (d.notice c x y z).ms = d.ms := congrArg (·.2.2.1) (d.notice_inner c x y z)
@[simp] theorem Dev.notice_mp (c x y z : Nat) : (d.notice c x y z).mp = d.mp := congrArg (·.2.1) (d.notice_inner c x y z)
@[simp] theorem Dev.notice_rc (c x y z : Nat) : (d.notice c x y z).rc = d.rc := congrArg (·.2.2.2.2.2.1) (d.notice_inner c x y z)
@[simp] theorem Dev.notice_mem (c x y z : Nat) : (d.notice c x y z).mem = d.mem := congrArg (·.2.2.2.2.2.2.2.1) (d.notice_inner c x y z)
@[simp] theorem Dev.notice_cf (c x y z : Nat) : (d.notice c x y z).cf = d.cf := congrArg (·.2.2.2.2.2.2.2.2.1) (d.notice_inner c x y z)
@[simp] theorem Dev.notice_ft (c x y z : Nat) : (d.notice c x y z).ft = d.ft := congrArg (·.2.2.2.2.2.2.2.2.2.2.2.1) (d.notice_inner c x y z)
@[simp] theorem Dev.notice_mt (c x y z : Nat) : (d.notice c x y z).mt = d.mt := congrArg (·.2.2.2.2.2.2.2.2.2.2.2.2.1) (d.notice_inner c x y z)
@[simp] theorem Dev.notice_nand (c x y z : Nat) : (d.notice c x y z).nand = d.nand := congrArg (·.2.2.2.2.2.2.2.2.2.2.2.2.2) (d.notice_inner c x y z)
@[simp] theorem Dev.record_pw (c s k : Nat) (r : Bool) (x y z : Nat) : (d.record c s k r x y z).pw = d.pw := congrArg (·.1) (d.record_inner c s k r x y z)
@[simp] theorem Dev.record_ms (c s k : Nat) (r : Bool) (x y z : Nat) : (d.record c s k r x y z).ms = d.ms := congrArg (·.2.2.1) (d.record_inner c s k r x y z)
@[simp] theorem Dev.record_mp (c s k : Nat) (r : Bool) (x y z : Nat) : (d.record c s k r x y z).mp = d.mp := congrArg (·.2.1) (d.record_inner c s k r x y z)
@[simp] theorem Dev.record_rc (c s k : Nat) (r : Bool) (x y z : Nat) : (d.record c s k r x y z).rc = d.rc := congrArg (·.2.2.2.2.2.1) (d.record_inner c s k r x y z)
@[simp] theorem Dev.record_mem (c s k : Nat) (r : Bool) (x y z : Nat) : (d.record c s k r x y z).mem = d.mem := congrArg (·.2.2.2.2.2.2.2.1) (d.record_inner c s k r x y z)
@[simp] theorem Dev.record_cf (c s k : Nat) (r : Bool) (x y z : Nat) : (d.record c s k r x y z).cf = d.cf := congrArg (·.2.2.2.2.2.2.2.2.1) (d.record_inner c s k r x y z)
@[simp] theorem Dev.record_ft (c s k : Nat) (r : Bool) (x y z : Nat) : (d.record c s k r x y z).ft = d.ft := congrArg (·.2.2.2.2.2.2.2.2.2.2.2.1) (d.record_inner c s k r x y z)
@[simp] theorem Dev.record_mt (c s k : Nat) (r : Bool) (x y z : Nat) : (d.record c s k r x y z).mt = d.mt := congrArg (·.2.2.2.2.2.2.2.2.2.2.2.2.1) (d.record_inner c s k r x y z)
@[simp] theorem Dev.record_nand (c s k : Nat) (r : Bool) (x y z : Nat) : (d.record c s k r x y z).nand = d.nand := congrArg (·.2.2.2.2.2.2.2.2.2.2.2.2.2) (d.record_inner c s k r x y z)
@[simp] theorem Dev.event_pw (c s x y z : Nat) : (d.event c s x y z).pw = d.pw := congrArg (·.1) (d.event_inner c s x y z)
@[simp] theorem Dev.event_ms (c s x y z : Nat) : (d.event c s x y z).ms = d.ms := congrArg (·.2.2.1) (d.event_inner c s x y z)
@[simp] theorem Dev.event_mp (c s x y z : Nat) : (d.event c s x y z).mp = d.mp := congrArg (·.2.1) (d.event_inner c s x y z)
@[simp] theorem Dev.event_rc (c s x y z : Nat) : (d.event c s x y z).rc = d.rc := congrArg (·.2.2.2.2.2.1) (d.event_inner c s x y z)
@[simp] theorem Dev.event_mem (c s x y z : Nat) : (d.event c s x y z).mem = d.mem := congrArg (·.2.2.2.2.2.2.2.1) (d.event_inner c s x y z)
@[simp] theorem Dev.event_cf (c s x y z : Nat) : (d.event c s x y z).cf = d.cf := congrArg (·.2.2.2.2.2.2.2.2.1) (d.event_inner c s x y z)
@[simp] theorem Dev.event_ft (c s x y z : Nat) : (d.event c s x y z).ft = d.ft := congrArg (·.2.2.2.2.2.2.2.2.2.2.2.1) (d.event_inner c s x y z)
@[simp] theorem Dev.event_mt (c s x y z : Nat) : (d.event c s x y z).mt = d.mt := congrArg (·.2.2.2.2.2.2.2.2.2.2.2.2.1) (d.event_inner c s x y z)
@[simp] theorem Dev.event_nand (c s x y z : Nat) : (d.event c s x y z).nand = d.nand := congrArg (·.2.2.2.2.2.2.2.2.2.2.2.2.2) (d.event_inner c s x y z)
@[simp] theorem Dev.commitWith_pw (a : Nat) (r : Done) (l : List Nat) : (d.commitWith a r l).pw = d.pw := congrArg (·.1) (d.commitWith_inner a r l)
@[simp] theorem Dev.commitWith_ms (a : Nat) (r : Done) (l : List Nat) : (d.commitWith a r l).ms = d.ms := congrArg (·.2.2.1) (d.commitWith_inner a r l)
@[simp] theorem Dev.commitWith_mp (a : Nat) (r : Done) (l : List Nat) : (d.commitWith a r l).mp = d.mp := congrArg (·.2.1) (d.commitWith_inner a r l)
@[simp] theorem Dev.commitWith_rc (a : Nat) (r : Done) (l : List Nat) : (d.commitWith a r l).rc = d.rc := congrArg (·.2.2.2.2.2.1) (d.commitWith_inner a r l)
@[simp] theorem Dev.commitWith_mem (a : Nat) (r : Done) (l : List Nat) : (d.commitWith a r l).mem = d.mem := congrArg (·.2.2.2.2.2.2.2.1) (d.commitWith_inner a r l)
@[simp] theorem Dev.commitWith_cf (a : Nat) (r : Done) (l : List Nat) : (d.commitWith a r l).cf = d.cf := congrArg (·.2.2.2.2.2.2.2.2.1) (d.commitWith_inner a r l)
@[simp] theorem Dev.commitWith_ft (a : Nat) (r : Done) (l : List Nat) : (d.commitWith a r l).ft = d.ft := congrArg (·.2.2.2.2.2.2.2.2.2.2.2.1) (d.commitWith_inner a r l)
@[simp] theorem Dev.commitWith_mt (a : Nat) (r : Done) (l : List Nat) : (d.commitWith a r l).mt = d.mt := congrArg (·.2.2.2.2.2.2.2.2.2.2.2.2.1) (d.commitWith_inner a r l)
@[simp] theorem Dev.commitWith_nand (a : Nat) (r : Done) (l : List Nat) : (d.commitWith a r l).nand = d.nand := congrArg (·.2.2.2.2.2.2.2.2.2.2.2.2.2) (d.commitWith_inner a r l)
@[simp] theorem Dev.succeed_pw (a r q : Nat) : (d.succeed a r q).pw = d.pw := congrArg (·.1) (d.succeed_inner a r q)
@[simp] theorem Dev.succeed_ms (a r q : Nat) : (d.succeed a r q).ms = d.ms := congrArg (·.2.2.1) (d.succeed_inner a r q)
@[simp] theorem Dev.succeed_mp (a r q : Nat) : (d.succeed a r q).mp = d.mp := congrArg (·.2.1) (d.succeed_inner a r q)
@[simp] theorem Dev.succeed_rc (a r q : Nat) : (d.succeed a r q).rc = d.rc := congrArg (·.2.2.2.2.2.1) (d.succeed_inner a r q)
@[simp] theorem Dev.succeed_mem (a r q : Nat) : (d.succeed a r q).mem = d.mem := congrArg (·.2.2.2.2.2.2.2.1) (d.succeed_inner a r q)
@[simp] theorem Dev.succeed_cf (a r q : Nat) : (d.succeed a r q).cf = d.cf := congrArg (·.2.2.2.2.2.2.2.2.1) (d.succeed_inner a r q)
@[simp] theorem Dev.succeed_ft (a r q : Nat) : (d.succeed a r q).ft = d.ft := congrArg (·.2.2.2.2.2.2.2.2.2.2.2.1) (d.succeed_inner a r q)
@[simp] theorem Dev.succeed_mt (a r q : Nat) : (d.succeed a r q).mt = d.mt := congrArg (·.2.2.2.2.2.2.2.2.2.2.2.2.1) (d.succeed_inner a r q)
@[simp] theorem Dev.succeed_nand (a r q : Nat) : (d.succeed a r q).nand = d.nand := congrArg (·.2.2.2.2.2.2.2.2.2.2.2.2.2) (d.succeed_inner a r q)
@[simp] theorem Dev.failWith_pw (a : Nat) (r : Done) (n : Nat) : (d.failWith a r n).pw = d.pw := congrArg (·.1) (d.failWith_inner a r n)
@[simp] theorem Dev.failWith_ms (a : Nat) (r : Done) (n : Nat) : (d.failWith a r n).ms = d.ms := congrArg (·.2.2.1) (d.failWith_inner a r n)
@[simp] theorem Dev.failWith_mp (a : Nat) (r : Done) (n : Nat) : (d.failWith a r n).mp = d.mp := congrArg (·.2.1) (d.failWith_inner a r n)
@[simp] theorem Dev.failWith_rc (a : Nat) (r : Done) (n : Nat) : (d.failWith a r n).rc = d.rc := congrArg (·.2.2.2.2.2.1) (d.failWith_inner a r n)
@[simp] theorem Dev.failWith_mem (a : Nat) (r : Done) (n : Nat) : (d.failWith a r n).mem = d.mem := congrArg (·.2.2.2.2.2.2.2.1) (d.failWith_inner a r n)
@[simp] theorem Dev.failWith_cf (a : Nat) (r : Done) (n : Nat) : (d.failWith a r n).cf = d.cf := congrArg (·.2.2.2.2.2.2.2.2.1) (d.failWith_inner a r n)
@[simp] theorem Dev.failWith_ft (a : Nat) (r : Done) (n : Nat) : (d.failWith a r n).ft = d.ft := congrArg (·.2.2.2.2.2.2.2.2.2.2.2.1) (d.failWith_inner a r n)
@[simp] theorem Dev.failWith_mt (a : Nat) (r : Done) (n : Nat) : (d.failWith a r n).mt = d.mt := congrArg (·.2.2.2.2.2.2.2.2.2.2.2.2.1) (d.failWith_inner a r n)
@[simp] theorem Dev.failWith_nand (a : Nat) (r : Done) (n : Nat) : (d.failWith a r n).nand = d.nand := congrArg (·.2.2.2.2.2.2.2.2.2.2.2.2.2) (d.failWith_inner a r n)
end

end Sys2Proof.Machine
end

