-- ==== Sys2Proof/Laws/Memory.lean ====
section
/-! SUPPORT. The memories keep their canonical form: reset has it, and every operation over on-chip lines and DRAM lines keeps
it. A fault message leaves the memories alone, whatever its class. -/

namespace Sys2Proof.Machine

theorem reset_mem_wf : State.reset.dev.mem.wf := ⟨.nil, .nil, by intro e h; cases h⟩

theorem ite_mem {c : Prop} [Decidable c] {x y : Dev} {m : Mem} (hx : x.mem = m) (hy : y.mem = m) : (if c then x else y).mem = m := by
  split <;> assumption

section
variable (d : Dev)

/-! ### What leaves the memories alone -/

@[simp] theorem Dev.cutLog_mem : d.cutLog.mem = d.mem := by
  unfold Dev.cutLog
  split
  · rfl
  · dsimp only
    split <;> rfl

theorem Dev.keepRecord_mem (r : CkptRec) (place : Nat) : (d.keepRecord r place).mem = d.mem := rfl

theorem Dev.cutRecord_mem (x : WlSet) : (d.cutRecord x).mem = d.mem := by
  unfold Dev.cutRecord
  split <;> rfl

theorem Dev.cutWitness_mem (x : WlSet) : (d.cutWitness x).mem = d.mem := by
  unfold Dev.cutWitness
  split <;> rfl

theorem Dev.forgetBlocks_mem (l : List (Nat × Nat)) : (d.forgetBlocks l).mem = d.mem := rfl

@[simp] theorem Dev.cutFlash_mem : d.cutFlash.mem = d.mem := by
  unfold Dev.cutFlash
  refine (Dev.modMs_mem _ _).trans ?_
  refine (Dev.each_keeps (fun d => d.mem) _ (fun d x => Dev.cutWitness_mem d x) _ _).trans ?_
  refine (Dev.forgetBlocks_mem _ _).trans ?_
  refine (Dev.each_keeps (fun d => d.mem) _ (fun d x => Dev.cutRecord_mem d x) _ _).trans ?_
  exact (Dev.modNand_mem _ _).trans (Dev.cutLog_mem d)

@[simp] theorem Dev.flashOff_mem : d.flashOff.mem = d.mem := by
  unfold Dev.flashOff
  refine (Dev.cutFlash_mem _).trans ((Dev.modMs_mem _ _).trans ?_)
  exact Dev.each_keeps (fun d => d.mem) _ (fun d _ => Dev.flag_mem d _ _) _ _

@[simp] theorem Dev.startMark_mem (l : FlashLine) : (d.startMark l).mem = d.mem := by
  unfold Dev.startMark
  dsimp only
  split <;> rfl

@[simp] theorem Dev.deadboltMark_mem (a k : Nat) : (d.deadboltMark a k).mem = d.mem := by
  unfold Dev.deadboltMark
  split
  · dsimp only
    split
    · rfl
    · simp
    · simp
  · rfl

@[simp] theorem Dev.deadCores_mem : d.deadCores.mem = d.mem := by
  unfold Dev.deadCores
  refine (Dev.modCores_mem _ _).trans ?_
  exact Dev.each_keeps (fun d => d.mem) _ (fun d _ => Dev.put_mem d _ _) _ _

@[simp] theorem Dev.succeed_mem' (a r q : Nat) : (d.succeed a r q).mem = d.mem := congrArg (·.2.2.2.2.2.2.2.1) (d.succeed_inner a r q)

@[simp] theorem Dev.deadStop_mem : d.deadStop.mem = d.mem := by
  unfold Dev.deadStop
  split
  · split
    · split <;> simp
    · rfl
  · rfl

theorem Dev.finishWaiting_mem (a : Nat) : (d.finishWaiting a).mem = d.mem := by
  unfold Dev.finishWaiting
  split
  · split
    · exact congrArg (·.2.2.2.2.2.2.2.1) (Dev.queueCompletion_inner _ _ _ _)
    · rfl
  · rfl

theorem Dev.settleDeadPort_mem (p : Nat) : (d.settleDeadPort p).mem = d.mem := by
  unfold Dev.settleDeadPort
  split <;> simp

theorem Dev.deadCmd_mem (a : Nat) : (d.deadCmd a).mem = d.mem := by
  unfold Dev.deadCmd
  split
  · refine (congrArg (·.2.2.2.2.2.2.2.1) (Dev.commitWith_inner _ _ _ _)).trans ?_
    exact congrArg (·.2.2.2.2.2.2.2.1) ((Dev.releaseParts_inner (d.endGrants a) _).trans (Dev.endGrants_inner d a))
  · rfl

theorem Dev.inCommitOrder_mem : d.inCommitOrder.mem = d.mem := rfl

@[simp] theorem Dev.deadQe_mem : d.deadQe.mem = d.mem := by
  unfold Dev.deadQe
  dsimp only
  rw [Dev.each_keeps (fun d => d.mem) _ (fun d p => Dev.settleDeadPort_mem d p),
    Dev.each_keeps (fun d => d.mem) _ (fun d a => Dev.deadCmd_mem d a),
    Dev.inCommitOrder_mem, Dev.each_keeps (fun d => d.mem) _ (fun d a => Dev.finishWaiting_mem d a),
    Dev.each_keeps (fun d => d.mem) _ (fun d p => Dev.modPort_mem d p _)]
  rfl

@[simp] theorem Dev.deadDram_mem : d.deadDram.mem = d.mem := by
  unfold Dev.deadDram
  split <;> simp

@[simp] theorem Dev.deadPorts_mem : d.deadPorts.mem = d.mem := by
  unfold Dev.deadPorts
  exact Dev.each_keeps (fun d => d.mem) _ (fun d p => by simp) _ _

@[simp] theorem Dev.deadWarden_mem (k : Nat) : (d.deadWarden k).mem = d.mem := by simp [Dev.deadWarden, Dev.lockMt]

@[simp] theorem Dev.deadUnits_mem (a k : Nat) : (d.deadUnits a k).mem = d.mem := by simp [Dev.deadUnits]

@[simp] theorem Dev.noteDeadOpt_mem : d.noteDeadOpt.mem = d.mem := rfl

@[simp] theorem Dev.latchDead_mem (a k : Nat) (b : Bool) : (d.latchDead a k b).mem = d.mem := by
  rw [Dev.latchDead, Dev.noteDeadOpt_mem, Dev.flag_mem, Dev.put_mem, Dev.put_mem, Dev.flag_mem, Dev.put_mem]

@[simp] theorem Dev.enterDeadbolt_mem (a k : Nat) (b : Bool) : (d.enterDeadbolt a k b).mem = d.mem := by
  have units : ∀ e : Dev, (if e.logicOn = true then e.deadUnits a k else e).mem = e.mem := fun e => ite_mem (by simp) rfl
  by_cases h : d.isDead = true
  · rw [Dev.enterDeadbolt, if_pos h]
  · rw [Dev.enterDeadbolt, if_neg h]
    exact (Dev.modPw_mem _ _).trans ((units _).trans (Dev.latchDead_mem d a k b))

@[simp] theorem Dev.setCapture_mem (n : Nat) (c : Capture) : (d.setCapture n c).mem = d.mem := by simp [Dev.setCapture]
@[simp] theorem Dev.follow_mem (n : Nat) : (d.follow n).mem = d.mem := by simp [Dev.follow]
@[simp] theorem Dev.countFault_mem (n : Nat) : (d.countFault n).mem = d.mem := by simp [Dev.countFault]
@[simp] theorem Dev.recordFault_mem (m : FaultMsg) (n : Nat) (b : Bool) : (d.recordFault m n b).mem = d.mem := by simp [Dev.recordFault]
@[simp] theorem Dev.captureMsg_mem (m : FaultMsg) (n : Nat) (b p : Bool) : (d.captureMsg m n b p).mem = d.mem := by
  unfold Dev.captureMsg
  split
  · simp
  · dsimp only
    split
    · simp
    · split <;> simp

/-- A fault message changes no memory, whether or not it starts Deadbolt. -/
@[simp] theorem Dev.faultMsg_mem (m : FaultMsg) : (d.faultMsg m).mem = d.mem := by
  have up : ∀ (b : Bool) (n : Nat) (e : Dev), (if b = true then (e.follow n).raise Irq.escalation else e).mem = e.mem := by
    intro b n e
    split <;> simp
  have fin : ∀ (n : Nat) (e : Dev), (if n = 2 then e.enterDeadbolt m.source m.kind false else e).mem = e.mem := by
    intro n e
    split <;> simp
  unfold Dev.faultMsg
  dsimp only
  generalize (if (decide (m.cls < 2) && decide (m.kind < 32) && decide (d.get Reg.FT_KIND_RAISE.raise / 2 ^ m.kind % 2 = 1)) = true
    then m.cls + 1 else m.cls) = raised
  by_cases h : d.isDead = true
  · rw [if_pos h]
    split <;> simp
  · rw [if_neg h]
    refine (fin _ _).trans ?_
    rw [Dev.captureMsg_mem, Dev.recordFault_mem, Dev.countFault_mem]
    exact up _ _ _

@[simp] theorem Dev.memFault_mem (src kind cls a master access : Nat) (i : Bool) :
    (d.memFault src kind cls a master access i).mem = d.mem := by simp [Dev.memFault]
@[simp] theorem Dev.lineFault_mem (src a master access : Nat) (i : Bool) : (d.lineFault src a master access i).mem = d.mem := by
  simp [Dev.lineFault]
@[simp] theorem Dev.injectAt_mem (src : Nat) : (d.injectAt src).2.mem = d.mem := by
  unfold Dev.injectAt
  split <;> simp [Dev.disarm]
@[simp] theorem Dev.dramCorrected_mem (a m x : Nat) (i : Bool) : (d.dramCorrected a m x i).mem = d.mem := by
  rw [Dev.dramCorrected, Dev.memFault_mem, Dev.raise_mem, Dev.addSat_mem]

/-! Queueing flash reads and codeword requests. -/

theorem Dev.claim_mem (id : Nat) : (d.claim id).mem = d.mem := by
  unfold Dev.claim
  split
  · rfl
  · simp

theorem Dev.claimMasters_mem : d.claimMasters.mem = d.mem := Dev.each_keeps (fun d => d.mem) _ (fun d (o : FlashOp) => Dev.claim_mem d o.id) _ _

theorem Dev.issueAt_mem (place level planes : Nat) (refs : Tbl Int) (r : CwReq) : (d.issueAt place level planes refs r).mem = d.mem := by
  unfold Dev.issueAt
  split
  · exact Dev.claimMasters_mem _
  · rfl

theorem Dev.memberReq_mem (r : CwReq) (a : Nat) : (d.memberReq r a).mem = d.mem := Dev.issueAt_mem _ _ _ _ _ _

theorem Dev.startRebuild_mem (id : Nat) : (d.startRebuild id).mem = d.mem := by
  unfold Dev.startRebuild
  split
  · rfl
  · dsimp only
    split
    · rfl
    · exact Dev.each_keeps (fun d => d.mem) _ (fun d m => Dev.memberReq_mem d _ _) _ _

theorem Dev.oneReq_mem (a : Nat) (w : Requester) (acc n : Nat) : (d.oneReq a w acc n).mem = d.mem := by
  unfold Dev.oneReq
  exact ite_mem (Dev.startRebuild_mem _ _) (Dev.issueAt_mem _ _ _ _ _ _)

theorem Dev.raceReplica_mem (w : Requester) (acc n : Nat) : (d.raceReplica w acc n).mem = d.mem := by
  unfold Dev.raceReplica
  split
  · split
    · exact ite_mem rfl (Dev.oneReq_mem _ _ _ _ _)
    · rfl
  · rfl

theorem Dev.newReq_mem (a : Nat) (w : Requester) (acc n : Nat) : (d.newReq a w acc n).mem = d.mem := by
  unfold Dev.newReq
  exact ite_mem ((Dev.raceReplica_mem _ _ _ _).trans (Dev.oneReq_mem _ _ _ _ _)) (Dev.oneReq_mem _ _ _ _ _)

theorem Dev.loadPage_mem (pg acc n : Nat) : (d.loadPage pg acc n).mem = d.mem := by
  unfold Dev.loadPage
  split
  · rfl
  · split
    · exact Dev.newReq_mem _ _ _ _ _
    · rfl

theorem Dev.reloadPage_mem (pg : Nat) : (d.reloadPage pg).mem = d.mem := Dev.loadPage_mem _ _ _ _

theorem Dev.loseXor_mem (a : Nat) : (d.loseXor a).mem = d.mem := by
  unfold Dev.loseXor
  split
  · rfl
  · refine ite_mem rfl (ite_mem rfl ?_)
    exact Dev.each_keeps (fun d => d.mem) _ (fun d m => Dev.each_keeps (fun d => d.mem) _ (fun d k => Dev.oneReq_mem d _ _ _ _) _ _) _ _

theorem Dev.loseBuffer_mem (a : Nat) : (d.loseBuffer a).mem = d.mem := by
  unfold Dev.loseBuffer Dev.poisonBlock
  refine ite_mem rfl ?_
  split <;> rfl

@[simp] theorem Dev.dramUncorrectable_mem (a m x : Nat) (i : Bool) : (d.dramUncorrectable a m x i).mem = d.mem := by
  have said : ∀ (e : Dev) (n k c : Nat), e.mem = d.mem → (e.memFault n k c a m x i).mem = d.mem :=
    fun e n k c h => (Dev.memFault_mem _ _ _ _ _ _ _ _).trans h
  have noted : ∀ e : Dev, (if e.bit Reg.DC_POISON_ADDR.valid = true then e
      else (e.put Reg.DC_POISON_ADDR.valid 1).put Reg.DC_POISON_ADDR.line (a / 64)).mem = e.mem := by
    intro e
    split
    · rfl
    · rw [Dev.put_mem, Dev.put_mem]
  have counted : ∀ (f : Fld) (n : Nat), ((d.addSat f 1).raise n).mem = d.mem := by
    intro f n
    rw [Dev.raise_mem, Dev.addSat_mem]
  rw [Dev.dramUncorrectable]
  generalize hs : (if ((d.addSat ((Reg.DC_ERR.uncorrectable).at (8 * dramChannel a)) 1).raise (Irq.dramUncorrectable (dramChannel a))).bit
      Reg.DC_POISON_ADDR.valid = true then (d.addSat ((Reg.DC_ERR.uncorrectable).at (8 * dramChannel a)) 1).raise (Irq.dramUncorrectable (dramChannel a))
    else (((d.addSat ((Reg.DC_ERR.uncorrectable).at (8 * dramChannel a)) 1).raise (Irq.dramUncorrectable (dramChannel a))).put
      Reg.DC_POISON_ADDR.valid 1).put Reg.DC_POISON_ADDR.line (a / 64)) = e
  have start : e.mem = d.mem := by rw [← hs]; exact (noted _).trans (counted _ _)
  dsimp only
  split
  · exact (Dev.loseBuffer_mem _ _).trans (said _ _ _ _ start)
  · exact said _ _ _ _ start
  · exact said _ _ _ _ start
  · exact (Dev.loseXor_mem _ _).trans (said _ _ _ _ start)
  · exact said _ _ _ _ start
  · exact said _ _ _ _ start
  · split
    · exact ite_mem (said _ _ _ _ start) ((Dev.reloadPage_mem _ _).trans (said _ _ _ _ start))
    · exact said _ _ _ _ start

/-! ### Reads -/

/-- A read of an on-chip line changes no memory. -/
@[simp] theorem Dev.readChip_mem (r : Region) (a m x : Nat) : (d.readChip r a m x).2.mem = d.mem := by
  unfold Dev.readChip
  split
  · rfl
  · split
    · simp
    · dsimp only
      split <;> simp

/-- A read of a DRAM line changes no memory. -/
@[simp] theorem Dev.readDram_mem (a m x : Nat) : (d.readDram a m x).2.mem = d.mem := by
  unfold Dev.readDram
  dsimp only
  split
  · simp
  · split <;> simp

/-! ### Writes keep the form -/

variable {d}

theorem Dev.putChip_wf (a : Nat) (l : Option MemLine) (h : d.mem.wf) : (d.putChip a l).mem.wf :=
  ⟨Tbl.wf_set _ _ h.1, h.2.1, h.2.2⟩

theorem Dev.writeLine_wf (a : Nat) (l : Line) (h : d.mem.wf) : (d.writeLine a l).mem.wf := Dev.putChip_wf _ _ h

theorem Dev.putDram_wf (a : Nat) (l : DramLine) (h : d.mem.wf) : (d.putDram a l).mem.wf := by
  refine ⟨h.1, Tbl.wf_set _ _ h.2.1, ?_⟩
  intro e he
  simp only [Dev.putDram, Dev.modMem] at he
  by_cases c : l = {}
  · rw [if_pos c] at he
    exact h.2.2 e (List.mem_of_mem_filter he)
  · rw [if_neg c] at he
    rcases Tbl.mem_put he with rfl | he
    · exact c
    · exact h.2.2 e he

/-- A partial write of an on-chip line keeps the form, whether it is served or refused. -/
theorem Dev.writeChip_wf (r : Region) (a n : Nat) (v : Line) (m x : Nat) (h : d.mem.wf) : (d.writeChip r a n v m x).2.mem.wf := by
  unfold Dev.writeChip
  split
  · exact Dev.writeLine_wf _ _ h
  · split
    · simpa using h
    · dsimp only
      split
      · simp only [Dev.lineFault_mem, Dev.addSat_mem]
        exact Dev.putChip_wf _ _ (by simpa using h)
      · exact Dev.writeLine_wf _ _ (by simpa using h)

theorem Dev.writeDram_wf (a : Nat) (l : Line) (h : d.mem.wf) : (d.writeDram a l).mem.wf := by
  unfold Dev.writeDram
  exact Dev.putDram_wf _ _ (by simpa using h)

/-- A write narrower than a DRAM line keeps the form. -/
theorem Dev.mergeDram_wf (a n : Nat) (v : Line) (m x : Nat) (h : d.mem.wf) : (d.mergeDram a n v m x).2.mem.wf := by
  unfold Dev.mergeDram
  dsimp only
  split
  · exact Dev.writeDram_wf _ _ (by simpa using h)
  · dsimp only
    split
    · simpa using h
    · exact Dev.putDram_wf _ _ (by simpa using h)

theorem Dev.writePart_wf (a : Nat) (bs : List Nat) (m : Nat) (h : d.mem.wf) : (d.writePart a bs m).mem.wf := by
  unfold Dev.writePart
  split
  · exact Dev.mergeDram_wf _ _ _ _ _ h
  · exact Dev.writeChip_wf _ _ _ _ _ _ h

theorem Dev.each_mem_wf {α : Type} {f : Dev → α → Dev} (hf : ∀ d a, d.mem.wf → (f d a).mem.wf) (l : List α) :
    ∀ d : Dev, d.mem.wf → (d.each l f).mem.wf := by
  induction l with
  | nil => exact fun d h => h
  | cons a l ih => exact fun d h => ih _ (hf d a h)

theorem Dev.writeBuffer_wf (a : Nat) (bs : List Nat) (m : Nat) (h : d.mem.wf) : (d.writeBuffer a bs m).mem.wf :=
  Dev.each_mem_wf (fun _ _ h => Dev.writePart_wf _ _ _ h) _ _ (Dev.writePart_wf _ _ _ h)

/-- A clear keeps the form. -/
theorem Dev.clearSpLines_wf (first n : Nat) (h : d.mem.wf) : (d.clearSpLines first n).mem.wf :=
  ⟨Tbl.wf_filter _ h.1, h.2.1, h.2.2⟩

/-- A march keeps the form. -/
theorem Dev.marched_wf (r : Nat) (p : Bool) (h : d.mem.wf) : (d.marched r p).mem.wf := by
  unfold Dev.marched
  dsimp only
  split
  · refine ⟨?_, h.2.1, h.2.2⟩
    simp only [Dev.modMem, Tbl.wf, List.pairwise_map]
    exact h.1.imp (by intro a b hab; split <;> split <;> exact hab)
  · exact ⟨Tbl.wf_filter _ h.1, h.2.1, h.2.2⟩

end

end Sys2Proof.Machine
end

