-- ==== Sys2Proof/Tests/Slice0.lean ====
section
/-! SUPPORT. Tests on small states: ill-formed commands, one step of some commands against the spec's numbers, and for every
statement with hypotheses a state and operands that meet them, clause by clause. -/

namespace Sys2Proof.Tests
open Sys2Proof Sys2Proof.Machine

set_option Elab.async false

/-! ### Small states -/

/-- A device in Run with port 0 up. -/
def base : Dev := { State.reset.dev with
  pw := { phase := .running, wakeStep := 4, bootStep := 10, perstLow := false, fphy := true }
  port0 := { state := .running, mse := true, bme := true, msixEnable := true }
  image := { loaded := true, bar4 := true }
  cores := { wardenRunning := true } }

/-- The device at tick t. -/
def at_ (t : Nat) (d : Dev) : Dev := d.put Reg.PW_TIMEBASE.ticks t

/-- The device in another phase. -/
def inPhase (p : PwPhase) (d : Dev) : Dev := { d with pw := { d.pw with phase := p } }

/-- 128 LUNs in four groups of 32 with 48 block groups each. -/
def geo (d : Dev) : Dev :=
  ((((((((d.put Reg.FC_CFG.luns_per_ce 1).put Reg.CD_GEOMETRY.stripe_width 32).put Reg.MS_GEOMETRY.block_groups 48).put
    Reg.MS_GEOMETRY.wl_per_block 4).put Reg.CD_GEOMETRY.bits_per_cell 4).put Reg.MP_GEOMETRY.codewords 16).put Reg.MP_GEOMETRY.slots 1).put
    Reg.CD_GEOMETRY.codeword_bytes 4608).modBm (fun b => { b with gib := 1 })

/-- A packet of fields (lowest bit, value). -/
def word (l : List (Nat × Nat)) : Packet := BitVec.ofNat 512 ((l.map (fun f => f.2 * 2 ^ f.1)).sum)

def someQueue : Queue :=
  { depth := 64, ring := 64, base := 0x1000, cls := .w0, relaxed := false, pcheck := false, vector := 0, irqCount := 1, irqTime := 0 }

/-- Command 1 of queue q of port 0. -/
def cmd1 (q : Nat) (ph : Phase) (pkt : Packet) : Command := { acc := 1, port := 0, queue := q, pkt := pkt, phase := ph, origin := 0, order := 1 }

/-- The device with queues 0 and 5 and one outstanding command. -/
def having (c : Command) (d : Dev) : Dev := d.modQe (fun e => { e with
  queues := [(0, someQueue), (5, someQueue)]
  cmds := [c]
  nextAcc := 2
  nextOrder := 2 })

/-- The device with a started command of opcode op on queue q. -/
def started (q op : Nat) (l : List (Nat × Nat)) : Dev := having (cmd1 q .started (word ((0, op) :: l))) base

/-- The device with a command at work. -/
def working (c : Command) (d : Dev) : Dev := having { c with phase := .running } d

/-- A namespace 1 of 1,000 blocks. -/
def withNs (d : Dev) : Dev := { d with mp := { d.mp with ns := [(1, ⟨1000, 0, 0, 0, 0, []⟩)] } }

/-! ### What the hypotheses need: the machine, packets, starts -/

theorem witness_EveryCommandGoesOn : (0x0f : BitVec 8).toNat / 16 = 0 ∧ (0x10 : BitVec 8).toNat / 16 ≠ 0 := by decide +kernel

theorem witness_DeadboltIsLeftOnlyByPowerLoss :
    LockedDown {} ⟨{ base with pw := { base.pw with phase := .deadbolt, faultN := true } }, [.timebaseTick]⟩ ∧
    ∃ t, Machine.step ⟨{ base with pw := { base.pw with phase := .deadbolt, faultN := true } }, [.timebaseTick]⟩ = .next t := by
  exact ⟨by unfold LockedDown; decide +kernel, _, rfl⟩

theorem witness_WaitingCommandsStayWellFormed :
    QueueWf ⟨base, [.timebaseTick, .flr 1]⟩ ∧ ∃ t, Machine.step ⟨base, [.timebaseTick, .flr 1]⟩ = .next t :=
  ⟨by unfold QueueWf; decide +kernel, _, rfl⟩

theorem witness_MapFormats : (4095 < 4096 ∧ 32767 < 32768 ∧ 511 < 512 ∧ 15 < 16) ∧ 2 ^ 40 - 1 < 2 ^ 40 ∧ 2 ^ 16 - 1 < 2 ^ 16 ∧
    stampNewer 0 0xffff = true := by decide +kernel

theorem witness_RingPacketLayouts : 2 ^ 16 - 1 < 2 ^ 16 ∧ 2 ^ 20 - 1 < 2 ^ 20 ∧ 2 ^ 32 - 1 < 2 ^ 32 ∧
    ({ status := 0x0201, lba := some 7 } : Done).lba = some 7 ∧ (⟨8, 1, 2, 3, 4⟩ : Notice).code < 2 ^ 16 := by decide +kernel

theorem witness_TimeAdvances :
    (let d := inPhase .waking { base with pw := { base.pw with wakeStep := 3 } }
     d.ticks = true ∧ d.pw.optSub < 1000 ∧ d.optRuns = false) ∧
    (base.ticks = true ∧ base.pw.optSub < 1000 ∧ base.optRuns = true) ∧
    (let d := { inPhase .booting base with pw := { (inPhase .booting base).pw with optSub := 1000, bootStep := 8 } }
     d.optRuns = true ∧ d.pw.perstLow = false ∧ d.auditDone = false) ∧
    (let d := { base with pw := { base.pw with optSub := 1000 } }
     d.optRuns = true ∧ d.pw.perstLow = false ∧ d.auditDone = true) ∧
    ((at_ 11 base).expired 5 5 = true ∧ (at_ 10 base).expired 5 5 = false) ∧
    ((base.put Reg.PW_OPT.opt 1).optExpired 499 500 = true ∧ (base.put Reg.PW_OPT.opt 1).optExpired 500 500 = false) := by decide +kernel

/-- A held command's device before it arrives. -/
def quiet : Dev := base.modQe (fun e => { e with queues := [(0, someQueue), (5, someQueue)] })

theorem witness_IngressPacketIsAccepted :
    quiet.takesMemory 0 = true ∧ 5 < 512 ∧ quiet.queue 0 5 = some someQueue ∧ someQueue.state ≠ .deleting ∧
    Pkt.opcode (word [(0, 2), (16, 9), (128, 1)]) ≠ 0 ∧ (quiet.port 0).state ≠ .booting ∧ (quiet.port 0).state ≠ .deadbolt ∧
    quiet.qe.haspDrop = false ∧ quiet.qe.dead = false ∧ quiet.armedFor Src.qeTags = false ∧ packetFault 4032 64 true false false (word [(0, 2), (16, 9), (128, 1)]) = none ∧
    (quiet.cmdsOf 0 5).length < someQueue.depth ∧ ∀ c ∈ quiet.cmdsOf 0 5, Pkt.tag c.pkt ≠ Pkt.tag (word [(0, 2), (16, 9), (128, 1)]) := by
  decide +kernel

theorem witness_StrayPacketsAreCounted :
    quiet.takesMemory 0 = true ∧ quiet.queue 0 511 = none ∧
    ({ quiet with port0 := { quiet.port0 with state := .booting } }.takesMemory 0 = true ∧
      ({ quiet with port0 := { quiet.port0 with state := .booting } }.port 0).state = .booting) ∧
    ({ quiet with port0 := { quiet.port0 with state := .deadbolt } }.takesMemory 0 = true ∧
      ({ quiet with port0 := { quiet.port0 with state := .deadbolt } }.port 0).state = .deadbolt) := by decide +kernel

theorem witness_RingReleaseCompletes :
    (quiet.takesMemory 0 = true ∧ Pkt.opcode (word [(448, 3)]) = 0 ∧ quiet.queue 0 5 = some someQueue ∧ (quiet.port 0).state ≠ .booting ∧
      (quiet.port 0).state ≠ .deadbolt ∧ quiet.qe.haspDrop = false ∧ someQueue.pcheck = false ∧ releaseClean false (word [(448, 3)]) = true) ∧
    ((65535 + 65536 - 65534 % 65536) % 65536 ≤ (1 + 65536 - 65534 % 65536) % 65536 ∧
      ¬(2 + 65536 - 65534 % 65536) % 65536 ≤ (1 + 65536 - 65534 % 65536) % 65536) := by decide +kernel

/-- One held Read of one block on queue 5, of an age of 10,001 ms. -/
def heldRead : Dev := at_ 10001001 (withNs (having (cmd1 5 .held (word [(0, 2), (32, 1), (128, 1)])) base))

theorem witness_StartsAndAgesComplete :
    base.armedFor Src.qeDeficits = false ∧ base.zeroDeficits.arbitrate = none ∧ heldRead.armedFor Src.qeDeficits = false ∧
    heldRead.armedFor Src.qeFifo = false ∧
    (match heldRead.zeroDeficits.arbitrate with
      | some (.cmd c, _, a) => ((heldRead.zeroDeficits.modQe (fun e => { e with arb := a })).startStatus c).isNone
      | _ => false) = true ∧
    ((heldRead.cmd 1).any (fun c => c.rank == .normal && heldRead.aged c (heldRead.get (qeReg c.port Reg.QE_AGE_CFG.promotion_ms)) &&
      heldRead.aged c (heldRead.get (qeReg c.port Reg.QE_AGE_CFG.hard_age_ms)))) = true := by decide +kernel

/-- The same Read as a master-key candidate. -/
def masterRead : Dev := heldRead.modCmd 1 (fun c => { c with rank := .master })

theorem witness_OldestMasterKeyGoesFirst :
    masterRead.entriesUsed < 8128 ∧ (masterRead.cmd 1).any (fun m => m.rank == .master &&
      masterRead.candidates.any (fun x => x.2.2.2 = m) && masterRead.candidates.all (fun x => x.2.2.2 = m)) = true := by decide +kernel

theorem witness_CandidatesAreHeldBack :
    { someQueue with state := .frozen }.state ≠ .active ∧ (heldRead.candidate 0 5 someQueue).isSome = true ∧
    ((heldRead.modQe (fun e => { e with cmds := { cmd1 5 .running 0 with acc := 0 } :: e.cmds })).candidate 0 5 someQueue).isSome = true := by
  decide +kernel

theorem witness_CommandCost :
    let c := cmd1 5 .held (word [(0, 2), (64, 15), (128, 2)])
    c.op ∈ [0x01, 0x02, 0x05, 0x06, 0x08] ∧ c.lo < c.hi ∧ (cmd1 5 .held (word [(0, 4)])).op ∉ [0x01, 0x02, 0x05, 0x06, 0x08] := by
  decide +kernel

/-! ### I/O commands, write data, rings -/

theorem witness_IoCommandsBegin :
    ((started 5 1 []).startedOp 1 0x01).isSome = true ∧ ((started 5 2 []).startedOp 1 0x02).isSome = true ∧
    ((started 5 5 []).startedOp 1 0x05).isSome = true ∧ ((started 5 3 []).startedOp 1 0x03).isSome = true ∧
    (((geo (started 5 4 [])).startedOp 1 0x04).isSome = true ∧ 0 < (geo (started 5 4 [])).spareLeft) ∧
    ((geo (started 5 6 [])).startedOp 1 0x06).isSome = true ∧ ((geo (started 5 9 [])).startedOp 1 0x09).isSome = true ∧
    ((started 5 4 []).spareLeft ≤ 0) ∧ ((started 5 4 []).startedOp 1 0x04).isSome = true ∧ ((started 5 6 []).startedOp 1 0x06).isSome = true ∧
    (((started 5 8 [(64, 16), (128, 1), (48, 2)]).modHost (fun h => { h with domain := some (7, 1) })).startedOp 1 0x08).any (fun c =>
      !((started 5 8 [(64, 16), (128, 1), (48, 2)]).modHost (fun h => { h with domain := some (7, 1) })).peerInvalid c) = true ∧
    (15 ≤ 16 ∧ 16 < 15 + 2) := by decide +kernel

/-- A Write of block 17 whose one part is complete. -/
def fullWrite : Command := { cmd1 5 .running (word [(0, 1), (32, 1), (64, 17), (128, 1)]) with
  parts := [{ granule := 1, first := 1, count := 1, st := .ready, reserved := true }] }

/-- A command at work on queue 5 whose parts are all ready. -/
def readyCmd (op : Nat) : Command := { cmd1 5 .running (word [(0, op), (32, 1), (64, 16), (128, 1)]) with
  parts := [{ granule := 1, first := 0, count := 1, st := .ready, reserved := true }] }

theorem witness_CommitPointCompletes :
    (((working fullWrite base).cmd 1).any (fun c => c.phase != .committed && c.peer.isNone)) = true ∧
    (((having { fullWrite with phase := .committed } base).cmd 1).any (fun c => c.phase == .committed)) = true ∧
    ((working fullWrite base).runningCmd 1).any (fun c => c.queue != 0 && c.op = 0x01 && c.parts.all (fun p => p.st == .ready) &&
      !c.parts.any (fun p => (working fullWrite base).writeWaits c p.granule) && !(working fullWrite base).isSealed &&
      (c.parts.find? (fun p => (working fullWrite base).partLost c p)).isNone) = true ∧ (working fullWrite base).qe.dead = false ∧
    ((working { readyCmd 2 with fetch := some { need := 4096, issued := 4096 } } base).runningCmd 1).any (fun c => c.op = 0x02 &&
      c.failure.isNone && c.parts.all (fun p => p.st == .ready) && c.fetch.any (fun f => f.issued = f.need)) = true ∧
    ((working (readyCmd 5) base).runningCmd 1).any (fun c => c.op = 0x05 && c.parts.all (fun p => p.st == .ready) && c.failure.isNone) = true ∧
    ((working (readyCmd 3) base).runningCmd 1).any (fun c => c.op = 0x03 && (working (readyCmd 3) base).covered c) = true ∧
    ((working (readyCmd 4) base).runningCmd 1).any (fun c => c.op = 0x04 && !c.parts.any (fun p => c.isPartial p && !p.reserved) &&
      !c.parts.any (fun p => (working (readyCmd 4) base).writeWaits c p.granule) && !(working (readyCmd 4) base).isSealed) = true ∧
    ((working (readyCmd 6) base).runningCmd 1).any (fun c => c.op = 0x06 && !c.parts.any (fun p => c.isPartial p && !p.reserved)) = true := by
  decide +kernel

theorem witness_FreezeOnFailure :
    quiet.queue 0 5 = some someQueue ∧ 1 ≤ 5 ∧ 5 < 512 ∧ someQueue.state = .active ∧ (quiet.port 0).errLog.length ≤ 256 ∧
    quiet.queue 0 0 = some someQueue := by decide +kernel

/-- A Write whose part waits for its reservation. -/
def waitingWrite (op : Nat) : Dev := geo (working { cmd1 5 .running (word [(0, op), (32, 1), (64, 17), (128, 1)]) with
  parts := [{ granule := 1, first := 1, count := 1 }] } base)

def liveGrant : Grant := { gid := 7, port := 0, bar := 2, slot := 3, acc := 1, granule := 1, first := 1, count := 2, pos := 0, timer := some 0, limitMs := 100 }

/-- A device with a live grant of two blocks in slot 3. -/
def granted : Dev := (working fullWrite base).modQe (fun e => { e with
  grants := [liveGrant]
  slotQ := [⟨0, 2, 9, 0⟩]
  tagQ := [⟨0, 5, 0, 1000, false⟩] })

theorem witness_WriteDataCompletes :
    (((waitingWrite 1).runningCmd 1).any (fun c => c.op = 0x01 && c.nextPart.any (fun p => !(waitingWrite 1).writeWaits c p.granule) &&
      (waitingWrite 1).grantFree c)) = true ∧ (waitingWrite 1).spaceFree = true ∧ 0 < (waitingWrite 1).spareLeft ∧
    (((waitingWrite 4).runningCmd 1).any (fun c => c.op = 0x04 && c.nextPart.any (fun p => !(waitingWrite 4).writeWaits c p.granule))) = true ∧
    (waitingWrite 4).spaceFree = true ∧
    (granted.takesMemory 0 = true ∧ granted.grantAt 0 2 200704 8192 = some liveGrant ∧ 200704 % 64 = 0 ∧ 8192 % 64 = 0) ∧
    ((at_ 100001 granted).isDead = false ∧
      (at_ 100001 granted).qe.grants.find? (fun g => g.port == 0 && g.gid == 7 && !g.complete) = some liveGrant ∧
      liveGrant.timer = some 0 ∧ (at_ 100001 granted).expired 0 (msTicks liveGrant.limitMs) = true) := by decide +kernel

theorem witness_DroppedSlotWritesAreCounted :
    granted.takesMemory 0 = true ∧ granted.grantAt 0 2 208896 64 = none ∧ granted.grantAt 0 2 200640 64 = none ∧
    (granted.grantAt 0 2 200736 64 = some liveGrant ∧ 200736 % 64 ≠ 0) := by decide +kernel

def oneRequest : Request := { port := 0, tag := 5, acc := 1, grant := none, pos := 0, addr := 0x1fc0, len := 64, start := 0 }

def pulling : Dev := working { fullWrite with fetch := some { need := 8192, extents := [(0x1fc0, 8192)], listed := 8192 } } base

theorem witness_ReadRequestsComplete :
    (let d := pulling.modQe (fun e => { e with reissue := [oneRequest] })
     (d.runningCmd 1).any (fun c => d.mayIssue c.port) = true ∧ d.reissueOne 1 = some oneRequest ∧ (d.freeTags 0).isEmpty = false) ∧
    ((pulling.runningCmd 1).any (fun c => pulling.mayIssue c.port && c.fetch.isSome) = true ∧ pulling.reissueOne 1 = none) ∧
    (0 < requestLen 0x1fc0 8192 512) ∧
    (let d := pulling.modQe (fun e => { e with reqs := [oneRequest] })
     d.qe.reqs.find? (fun r => r.port == 0 && r.tag == 5) = some oneRequest ∧ (d.port 0).ctoDisable = false ∧
      (at_ 200000000 d).expired oneRequest.start (ctoMicros (d.port 0).ctoValue) = true) ∧
    (granted.qe.reqs.find? (fun r => r.port == 0 && r.tag == 5) = none ∧
      granted.qe.tagQ.find? (fun q => q.port == 0 && q.tag == 5) = some ⟨0, 5, 0, 1000, false⟩) ∧
    (granted.qe.reqs.find? (fun r => r.port == 0 && r.tag == 6) = none ∧ granted.qe.tagQ.find? (fun q => q.port == 0 && q.tag == 6) = none) := by
  decide +kernel

def onePacket : RingPkt := { bits := completionPkt 9 5 { status := 0 }, cmd := some 1 }

theorem witness_RingPostsComplete :
    (let u := { someQueue with waiting := [onePacket] }
     quiet.mayIssue 0 = true ∧ (quiet.modQueue 0 5 (fun v => { v with waiting := [onePacket] })).queue 0 5 = some u ∧
      quiet.nextPacket u = some onePacket ∧ onePacket.dest = none ∧ u.room = true ∧ { u with posted := 64 }.room = false ∧
      quiet.nextPacket { u with posted := 64 } = some onePacket) ∧
    (let r := { onePacket with dest := some 0x8000 }
     quiet.nextPacket { someQueue with waiting := [r] } = some r ∧ r.dest = some 0x8000) ∧
    (0 < someQueue.ring ∧ fld onePacket.bits 255 1 = 0 ∧ ringType (freezePkt none 1 5 0 0 1) = 4 ∧ fld (freezePkt none 1 5 0 0 1) 255 1 = 0) ∧
    (quiet.queue 0 5 = some someQueue ∧ someQueue.unsignalled = 0 ∧
      (let u := { someQueue with unsignalled := 1 }
       0 < u.unsignalled ∧ (at_ 100000 quiet).expired u.oldest ((at_ 100000 quiet).irqTime 0 5 u) = true ∧
        quiet.expired u.oldest (quiet.irqTime 0 5 u) = false)) := by decide +kernel

/-- Vector 512 unmasked. -/
def unmasked : Dev := { base with port0 := { base.port0 with msixTable := [(512, ⟨0, 0, false⟩)], msixPending := BitVec.ofNat 513 (2 ^ 512) } }

theorem witness_MsixHeldAndSent :
    ((unmasked.port 0).msixEnable = true ∧ (unmasked.port 0).msixFnMask = false ∧ ((unmasked.port 0).vector 512).masked = false ∧
      unmasked.mayIssue 0 = true ∧ (unmasked.port 0).msixPending.getLsbD 512 = true) ∧
    ((base.port 0).msixEnable = true ∧ ((base.port 0).vector 512).masked = true) ∧ (base.takesMemory 0 = true ∧ 512 < 513) := by decide +kernel

/-! ### Peer copy, admin commands, namespaces, firmware -/

/-- A Peer Copy Out that waits for node 3's Transfer-Ready of request 7. -/
def peerOut : Command := { cmd1 5 .running (word [(0, 8), (32, 1), (64, 16), (128, 1), (160, 3)]) with
  parts := [{ granule := 1, first := 0, count := 1, st := .ready }]
  peerStep := .waitReady 7 0 }

/-- A peer write request of node 3 for one block of namespace 1, with its check. -/
def peerRequest : Packet :=
  let p := word [(0, 1), (16, 7), (32, 1), (48, 3), (64, 16), (128, 1)]
  BitVec.ofNat 512 (p.toNat + (crc32c (bytesOf p.toNat 60)) <<< 480)

def withPeerQueue : Dev := base.modQe (fun e => { e with queues := [(512, someQueue)] })

theorem witness_PeerCommandsComplete :
    (withPeerQueue.takesMemory 0 = true ∧ withPeerQueue.image.bar4 = true ∧ 3 < 512 ∧ 4032 % 64 = 0 ∧ (withPeerQueue.queue 0 peerQ).isSome = true ∧
      (withPeerQueue.port 0).state ≠ .booting ∧ (withPeerQueue.port 0).state ≠ .deadbolt ∧ withPeerQueue.qe.dead = false ∧
      withPeerQueue.qe.haspDrop = false ∧ peerBad peerRequest 3 = false ∧ withPeerQueue.peerHeld 0 3 < 64) ∧
    (let d := working peerOut base
     let r := readyPkt 7 1 0xffff 5 0 4096 0 100
     d.takesMemory 0 = true ∧ d.image.bar4 = true ∧ ringType r = 2 ∧ d.requestOwner 0 3 (fld r 16 16) = some peerOut ∧
      peerOut.peerStep = .waitReady 7 0) ∧
    (let d := working peerOut base
     let r := completionPkt 7 0xffff { status := 0 }
     ringType r = 1 ∧ d.requestOwner 0 3 (fld r 16 16) = some peerOut ∧ fld r 32 16 = 0 ∧ peerOut.parts.length ≤ peerOut.peerCount + 1) ∧
    (let d := at_ 1000000001 (working peerOut base)
     d.runningCmd 1 = some peerOut ∧ peerOut.op = 0x08 ∧ peerOut.peerWait = some 0 ∧
      d.expired 0 (msTicks (d.get (qeReg peerOut.port Reg.QE_DATA_TIMEOUT.timeout_ms))) = true) := by decide +kernel

theorem witness_PagesAndFeaturesComplete :
    ((started 0 0x80 []).startedOp 1 0x80).isSome = true ∧
    (let d := started 0 0x81 [(160, 4), (352, 64)]
     (d.startedOp 1 0x81).any (fun c => (d.logPage c.port (Pkt.cdwA c.pkt % 256)).any (fun x => Pkt.cdwB c.pkt 36 64 + Pkt.cdwB c.pkt 44 32 ≤ x.2) &&
      Pkt.cdwB c.pkt 36 64 % 4 = 0 && Pkt.cdwB c.pkt 44 32 % 4 = 0 && 4 ≤ Pkt.cdwB c.pkt 44 32 && Pkt.cdwB c.pkt 44 32 ≤ 4194304) = true) ∧
    ((started 0 0x88 [(128, 1)]).startedOp 1 0x88).any (fun c => Pkt.cdwA c.pkt % 2 = 0) = true ∧
    ((started 0 0x82 [(160, 3), (288, 60000)]).startedOp 1 0x82).any (fun c => c.feature != 6 && featureOk c.feature (Pkt.cdwB c.pkt 36 32) == some true) = true ∧
    ((started 0 0x83 [(160, 4)]).startedOp 1 0x83).any (fun c => ((started 0 0x83 [(160, 4)]).readFeature c.port c.feature).isSome) = true ∧
    (featureOk 1 0x01010101 = some true ∧ featureOk 2 (10 + 60000 * 65536) = some true ∧ featureOk 3 1 = some true ∧
      featureOk 4 255 = some true ∧ featureOk 5 65535 = some true) := by decide +kernel

theorem witness_AgeLimitsAreGuarded :
    [10 + 10 * 65536, 9 + 1000 * 65536, 10001 + 60000 * 65536, 10 + 999 * 65536, 10 + 60001 * 65536].all (fun v =>
      ((started 0 0x82 [(160, 2), (288, v)]).startedOp 1 0x82).any (fun c => c.feature = 2 &&
        decide (bitsOf (Pkt.cdwB c.pkt 36 32) 16 16 ≤ bitsOf (Pkt.cdwB c.pkt 36 32) 0 16 ∨ bitsOf (Pkt.cdwB c.pkt 36 32) 0 16 < 10 ∨
          10000 < bitsOf (Pkt.cdwB c.pkt 36 32) 0 16 ∨ bitsOf (Pkt.cdwB c.pkt 36 32) 16 16 < 1000 ∨
          60000 < bitsOf (Pkt.cdwB c.pkt 36 32) 16 16))) = true := by decide +kernel

/-- Queue 5 frozen by error 1. -/
def frozen5 (d : Dev) : Dev := d.modQueue 0 5 (fun u => { u with state := .frozen, newestErr := some 1 })

/-- An Abort of command 9 of queue 5, which is of opcode op and in phase ph. -/
def aborting (ph : Phase) (op : Nat) : Dev := (started 0 0x87 [(160, 5 + 9 * 65536)]).modQe (fun e => { e with
  cmds := e.cmds ++ [{ cmd1 5 ph (word [(0, op), (16, 9), (128, 1)]) with acc := 2 }] })

theorem witness_QueueCommandsComplete :
    (let d := started 0 0x84 [(160, 6 + 65536), (304, 1)]
     (d.startedOp 1 0x84).any (fun c => c.named != 0 && (d.queue c.port c.named).isNone && (queueOf c.pkt).isSome) = true) ∧
    (let d := started 0 0x85 [(160, 5)]
     (d.startedOp 1 0x85).any (fun c => (d.targetQueue c).isSome) = true) ∧
    (let d := frozen5 (started 0 0x86 [(160, 5), (288, 1)])
     (d.startedOp 1 0x86).any (fun c => !(Pkt.cdwA c.pkt).testBit 16 && (d.restartStatus c).isNone) = true) ∧
    (let d := frozen5 (started 0 0x86 [(160, 5 + 65536), (288, 1)])
     (d.startedOp 1 0x86).any (fun c => (Pkt.cdwA c.pkt).testBit 16 && (d.restartStatus c).isNone) = true) ∧
    (let d := (started 0 0x87 [(160, 5 + 9 * 65536)]).modQe (fun e => { e with
      cmds := e.cmds ++ [{ cmd1 5 .held (word [(0, 2), (16, 9), (128, 1)]) with acc := 2 }] })
     (d.startedOp 1 0x87).any (fun c => (d.abortTarget c.port c.named (Pkt.cdwA c.pkt / 65536)).any (fun t => !t.settled && t.op != 0x09)) = true) ∧
    (let d := frozen5 (aborting .held 0x01)
     (d.startedOp 1 0x87).isSome = true ∧ (d.fifo 0 5).any (fun x => x.acc = 2 && decide (x.acc < 3)) = true) ∧
    (((aborting .committed 0x01).startedOp 1 0x87).any (fun c => ((aborting .committed 0x01).abortTarget c.port c.named (Pkt.cdwA c.pkt / 65536)).any
      (fun t => t.settled)) = true) ∧
    (((aborting .running 0x09).startedOp 1 0x87).any (fun c => ((aborting .running 0x09).abortTarget c.port c.named (Pkt.cdwA c.pkt / 65536)).any
      (fun t => !t.settled && t.op = 0x09 && t.phase == .running && t.done.isNone)) = true) := by
  decide +kernel

theorem witness_ControlCommandsComplete :
    ((started 0 0x8a []).mayPrepare = true ∧ ((started 0 0x8a []).startedOp 1 0x8a).isSome = true) ∧
    ((started 0 0x8b []).startedOp 1 0x8b).isSome = true ∧
    ((started 0 0x8e [(288, 1)]).startedOp 1 0x8e).any (fun c => Pkt.cdwB c.pkt 36 64 != 0) = true ∧
    (((started 0 0x8f [(160, 0x5ea1)]).startedOp 1 0x8f).any (fun c => Pkt.cdwA c.pkt = 0x5ea1) = true ∧ (started 0 0x8f []).isSealed = false) ∧
    (((started 0 0x90 []).startedOp 1 0x90).any (fun c => Pkt.cdwA c.pkt % 2 = 0) = true ∧ (started 0 0x90 []).peerWork = false) ∧
    (((started 0 0x90 [(160, 1)]).startedOp 1 0x90).any (fun c => Pkt.cdwA c.pkt % 2 = 1) = true ∧ (started 0 0x90 [(160, 1)]).peerWork = false) := by
  decide +kernel

theorem witness_NamespaceAndKeyCommandsComplete :
    (let d := started 0 0x8c []
     (d.serialCmd 1 0x8c (fun a => a % 4 = 0)).any (fun c => Pkt.cdwB c.pkt 36 64 = 0 && !(Pkt.cdwA c.pkt).testBit 8) = true ∧
      ((List.range 16).map (fun i => i + 1)).find? (fun n => !d.mp.ns.has n) = some 1 ∧ 0 ≤ d.freeBlocks ∧ d.nsBusy 1 1 = false) ∧
    ((started 0 0x8c [(160, 256)]).serialCmd 1 0x8c (fun a => a % 4 = 0)).any (fun c => (Pkt.cdwA c.pkt).testBit 8) = true ∧
    (let d := withNs (started 0 0x8c [(160, 1), (32, 1)])
     (d.serialCmd 1 0x8c (fun a => a % 4 = 1)).any (fun c => !d.nsBusy 1 (Pkt.nsid c.pkt) && !d.cxBusy (Pkt.nsid c.pkt)) = true) ∧
    (let d := withNs (started 0 0x8d [(32, 1)])
     (d.serialCmd 1 0x8d (fun a => a % 16 = 0)).any (fun c => !d.nsNamed 1 (Pkt.nsid c.pkt)) = true) ∧
    (let d := withNs (started 0 0x8d [(160, 1), (32, 1)])
     (d.serialCmd 1 0x8d (fun a => a % 16 = 1)).any (fun c => !d.nsNamed 1 (Pkt.nsid c.pkt)) = true) ∧
    ((started 0 0x8d [(160, 2)]).serialCmd 1 0x8d (fun a => a % 16 = 2)).isSome = true ∧
    ((started 0 0x8d [(160, 3)]).serialCmd 1 0x8d (fun a => a % 16 = 3)).isSome = true ∧
    ((started 0 0x8d [(160, 4)]).serialCmd 1 0x8d (fun a => a % 16 = 4)).isSome = true ∧
    (base.cxOpen = true ∧ 15 < 16 ∧ base.cxBusy (15 + 1) = false) ∧
    ((let d := { base with cx := { base.cx with waiting := [(false, 0), (true, 15)] } }
      d.cxOpen = true ∧ d.cxBusy (15 + 1) = false ∧ d.cx.waiting.find? (fun x => x.2 = 15) = some (true, 15))) ∧ halvesEqual 0 = true := by decide +kernel

/-- Four authenticated slots of revision 5. -/
def withSlots (d : Dev) : Dev := d.writeSlots 0 0 [1, 1, 1, 1] [0, 0, 0, 0] [5, 5, 5, 5]

theorem witness_FirmwareCommandsComplete :
    ((started 0 0x88 [(160, 1)]).serialCmd 1 0x88 (fun a => a % 2 = 1)).isSome = true ∧
    (let d := withSlots (started 0 0x89 [(160, 257)])
     (d.serialCmd 1 0x89 (fun a => a % 2 = 1)).any (fun c => slotState d.slots (slotNo 0 c.fwSlot) = 1) = true) ∧
    (let d := withSlots (started 0 0x89 [(160, 256)])
     (d.serialCmd 1 0x89 (fun a => a % 2 = 0)).any (fun c => slotState d.slots (slotNo 1 c.fwSlot) = 1) = true ∧ d.pw.hasp = none ∧ d.cores.act = none) := by
  decide +kernel

/-- Bolt core 3 runs and an activation of command 1 stands at the given step. -/
def activating (st : ActStep) (d : Dev) : Dev := d.modCores (fun k => { k with
  bolt := [(3, { run := true })]
  act := some ⟨some 1, st, 0, 1, 0⟩
  toSend := [(1, 2), (2, 0), (4, 0)] })

/-- A Bolt image of revision 9 in slot 0. -/
def bolted (d : Dev) : Dev := d.modCf (fun c => { c with
  map := [(64, 7)]
  sectors := [(7, { lines := [(0, BitVec.ofNat 2048 (pack [(0, 32, ascii "ZIMG"), (32, 8, 1), (40, 8, 1), (64, 64, 9), (128, 32, 512), (192, 32, 256)])),
    (1, BitVec.ofNat 2048 (pack [(0, 32, ascii "ZSGN"), (40, 8, 1)]))] })] })

theorem witness_ActivationStepsComplete :
    (let d := activating .waitAnswer base
     d.owes 1 2 = true ∧ d.owes 2 0 = true ∧ d.coreRuns 3 = true ∧ d.wardenRuns = true ∧
      (d.mailUp 3 3 [(64, 8, 0)]).cores.act = some ⟨some 1, .waitAnswer, 0, 1, 0⟩) ∧
    ((at_ 250001 (activating .waitAnswer base)).expired 0 (msTicks 250) = true ∧ (at_ 250001 (activating .waitAnswer base)).wardenRuns = true) ∧
    ((activating .sendHalt base).owes 4 0 = true) ∧
    ((at_ 1001 (activating (.haltWait 0) base)).expired 0 (msTicks 1) = true) ∧
    (let e := (bolted (activating .waitReady base)).mailUp 3 5 [(64, 64, 9)]
     (e.slotImage 1 e.boltSlot).map (fun i => i.revision) = some 9 ∧ e.bit Reg.BC_CTRL.ready = false ∧
      (((e.flag Reg.BC_CTRL.ready true).raise Irq.imageReady).cores.act).any (fun a => a.step == .waitReady) = true) ∧
    (let e := ((bolted (activating .waitReady base)).modCores (fun k => { k with act := none })).mailUp 3 5 [(64, 64, 9)]
     (e.slotImage 1 e.boltSlot).map (fun i => i.revision) = some 9 ∧ ((e.flag Reg.BC_CTRL.ready true).raise Irq.imageReady).cores.act = none) ∧
    ((at_ 1500001 (activating .waitReady base)).expired 0 (msTicks 1500) = true) ∧
    (let d := at_ 2000001 (base.modQe (fun e => { e with hold := some 0 }))
     d.qe.hold = some 0 ∧ d.expired 0 (msTicks 2000) = true) := by decide +kernel

/-! ### The endpoint, power and boot -/

theorem witness_RegisterWritesComplete :
    (base.takesMemory 0 = true ∧ (0x80000000 : Dword).getLsbD 31 = true ∧ base.bit (qeReg 0 Reg.QE_AQ_CFG.enable) = false) ∧
    (let d := base.put Reg.QE_AQ_CFG.ring_code 1
     (d.port 0).state = .running ∧ depthOk (d.adminQueue 0).depth (d.adminQueue 0).ring = true) ∧
    (let d := base.put Reg.QE_AQ_CFG.enable 1
     (0 : Dword).getLsbD 31 = false ∧ d.bit (qeReg 0 Reg.QE_AQ_CFG.enable) = true ∧ d.cmdsOf 0 0 = []) ∧
    ((started 0 0x83 []).cmdsOf 0 0 ≠ []) ∧
    (base.region 0x200000000 = .registers ∧ base.region 0x214fffffc = .registers ∧ 0x214fffffc % 4 = 0 ∧ base.wardenWrites = true) ∧
    (base.ports = 1 ∧ 0x206000000 / 0x1000000 = 0x206 ∧ 0x206fffffc / 0x1000000 = 0x206) := by decide +kernel

theorem witness_FieldWrites :
    (let f : FieldDef := { lsb := 31, width := 1, kind := .rw, lo := 0, hi := 1 }
     0 < f.width ∧ f.lsb + f.width ≤ 32 ∧ f.lo ≤ bitsOf 0x80000000 f.lsb f.width ∧ bitsOf 0x80000000 f.lsb f.width ≤ f.hi) ∧
    (let f : FieldDef := { lsb := 0, width := 16, kind := .rw, lo := 1, hi := 60000 }
     0 < f.width ∧ f.lsb + f.width ≤ 32 ∧ bitsOf 0 f.lsb f.width < f.lo ∧ f.hi < bitsOf 60001 f.lsb f.width) ∧
    (let f : FieldDef := { lsb := 31, width := 1, kind := .w1c, lo := 0, hi := 1 }
     f.lsb + f.width ≤ 32 ∧ bitsOf 0x80000000 f.lsb f.width = 1 ∧ bitsOf 0x7fffffff f.lsb f.width = 0) := by decide +kernel

theorem witness_EndpointCommandsComplete :
    (let d := { base with image := {} }
     d.endpointOn 0 = true ∧ d.cfgRetry 0 = true) ∧
    (base.endpointOn 0 = true ∧ base.cfgRetry 0 = false ∧ (base.port 0).bme = true) ∧
    (let d := { base with port0 := { base.port0 with bme := false } }
     d.endpointOn 0 = true ∧ d.cfgRetry 0 = false ∧ (d.port 0).bme = false) ∧
    (let d := { base with port0 := { base.port0 with flrStart := some 0 } }
     0 < d.ports ∧ (d.port 0).flrStart.isSome = true ∧ d.cfgRetry 0 = true) ∧
    (let d := base.put Reg.PW_STRAPS.two_port 1
     d.endpointOn 1 = true ∧ 4 ≤ 4 ∧ 6 ≤ 6 ∧ 31 < 32) ∧
    (base.takesMemory 0 = true ∧ base.writeDropped 0 0 0 4 = true) ∧
    (base.writeDropped 0 0 0x410000 4 = false ∧ base.poisonDropped 0 0 0x410000 4 = true) := by decide +kernel

theorem witness_IngressWindowsReadZero :
    base.takesMemory 0 = true ∧ 0 < 1 ∧ 4096 ≤ 4096 ∧ base.barWin 0 0 0x200000 = .ingress 0 ∧ base.barWin 0 0 0x3fffff = .ingress 511 ∧
    base.barWin 0 2 0 = .slots := by decide +kernel

/-- Right after reset, with every domain's flags as the argument says. -/
def waking (step : Nat) (x : Domain) : Dev := { State.reset.dev with pw := { wakeStep := step, domains := (List.range 25).map (fun k => (k, x)) } }

theorem witness_WakeCommandsComplete :
    ((0x0f : BitVec 8).toNat / 16 = 0 ∧ (inPhase .unpowered base).mayPowerOn = true ∧ State.reset.dev.mayPowerOn = true) ∧
    ((inPhase .stopped base).pw.phase = .stopped ∧ 10 ≤ 10) ∧
    (State.reset.dev.wakeAt 1 = true ∧ State.reset.dev.nextSwitch.isSome = true ∧ State.reset.dev.awaits = true) ∧
    ((waking 2 ⟨true, false, false, false⟩).wakeAt 2 = true) ∧
    (let d := waking 3 ⟨true, true, false, false⟩
     d.wakeAt 3 = true ∧ d.arraysReady = false ∧ d.pw.perstLow = true) ∧
    (let d := waking 3 ⟨true, true, true, false⟩
     d.wakeAt 3 = true ∧ d.arraysReady = true ∧ d.pw.perstLow = true ∧ d.pw.pwrFailLow = false) := by decide +kernel

theorem witness_PowerPinsComplete :
    (base.pw.perstLow = false ∧ base.awake = true ∧ 100 ≤ 100 ∧ 99 < 100) ∧ (base.pw.phase ≠ .unpowered) ∧
    (base.pwrFailActs = true ∧ base.pw.pwrFailLow = false ∧ 1000 ≤ 1000 ∧ 999 < 1000) ∧
    ((inPhase .waking base).pwrFailActs = false ∧ (inPhase .waking base).pw.phase ≠ .unpowered ∧ (inPhase .waking base).pw.pwrFailLow = false) ∧
    ((base.put Reg.PW_STATE.prog_hold 1).bit Reg.PW_STATE.prog_hold = true ∧ (OpKind.program 0).isProgram = true ∧ (OpKind.erase 0).isErase = true) ∧
    ({ base with pw := { base.pw with pwrFailLow := true } }.pwrFailActs = true) ∧
    ({ inPhase .waking base with pw := { (inPhase .waking base).pw with pwrFailLow := true } }.pwrFailActs = false) ∧
    (let d := { base with pw := { base.pw with highSince := some 0 } }.put Reg.PW_STATE.prog_hold 1
     d.pwrFailActs = true ∧ d.pw.pwrFailLow = false ∧ d.bit Reg.PW_STATE.prog_hold = true ∧ d.pw.highSince = some 0 ∧
      (at_ 10001 d).expired 0 (msTicks 10) = true ∧ (at_ 10000 d).expired 0 (msTicks 10) = false) := by decide +kernel

/-- The ramp is over: the ceiling has room for every operation. -/
def lit (d : Dev) : Dev := d.put Reg.MS_LEDGER.ceiling_ma 60000

/-- Booting, at a step. -/
def boots (k : Nat) (d : Dev) : Dev := { d with pw := { d.pw with phase := .booting, bootStep := k, fphy := false } }

theorem witness_BootStepsOneToFiveComplete :
    ((boots 1 base).pw.phase = .booting ∧ (boots 1 base).bit Reg.CF_STATUS.scan_done = false) ∧
    ((boots 2 base).pw.bootStep = 2 ∧ (match (boots 2 base).judgeImage ⟨false, 0, [], false, false⟩ [] with
      | .inl x => x == (1, 0)
      | .inr _ => false) = true) ∧
    (boots 3 base).bootAt 3 = true ∧ ((boots 4 base).bootAt 4 = true ∧ 5 < 6) ∧
    ((boots 5 base).bootAt 5 = true ∧ (boots 5 base).pw.fphy = false ∧ (boots 5 base).wardenRuns = true) ∧
    (let d := lit ({ (boots 5 base).put (fcReg 127 Reg.FC_STATUS.state) 1 with pw := { (boots 5 base).pw with fphy := true } })
     d.bootAt 5 = true ∧ d.pw.fphy = true ∧ 127 < 128 ∧ d.get (fcReg 127 Reg.FC_STATUS.state) = 1 ∧ ∀ c ∈ d.bringUpCosts, d.fits c = true) ∧
    (let d := lit (((boots 5 base).put Reg.MS_STATUS.state 2).put Reg.CD_STATUS.state 1)
     d.bootAt 5 = true ∧ d.get Reg.MS_STATUS.state = 2 ∧ d.get Reg.CD_STATUS.state = 1 ∧ ∀ c ∈ d.readCosts, d.fits c = true) := by decide +kernel

/-- A data set on flash. -/
def onFlash0 : OnFlash := { kind := .data, stream := 0, seq := 9, stripe := 0, successor := 0, ckptSeq := 0, opt := 0, slots := [] }

/-- A checkpoint record of sequence n at a place of a ring. -/
def record (n : Nat) : CkptRec :=
  { seq := n, stop := false, bits := 4, wall := none, cutSeq := 0, opt := 0, pcc := 1, roots := [], ns := [], epochs := [], replay := []
    sealed := false, failed := [], rebuilt := [], tableExtent := (0, 0), q := 0, spareFormat := 0, sealedOpt := 0, moved := 0
    witnessFailed := [], prepareMs := 0, places := [n] }

/-- Boot step 6 over a NAND. -/
def loading (n : Nand) : Dev := { lit ((geo (boots 6 base)).put Reg.MP_STATUS.state 1) with nand := n }

theorem witness_BootStepsSixToTenComplete :
    (let d := loading { recs := [record 1, record 2], bits := 4, slots := 1 }
     d.bootAt 6 = true ∧ d.get Reg.MP_STATUS.state = 1 ∧ d.bit Reg.PW_STATE.format = false ∧ (∀ c ∈ d.readCosts, d.fits c = true) ∧
      (let e := d.dropUnreadable ⟨[], [], []⟩
       e.highestRec = some (record 2) ∧ e.nand.bits = e.bitsPerCell ∧ e.nand.slots = e.slotCount) ∧
      (d.dropUnreadable ⟨[], [2], [7]⟩).highestRec.any (fun r => r.seq = 1) = true) ∧
    (let e := (loading { recs := [record 1], bits := 3, slots := 1 }).dropUnreadable ⟨[], [], []⟩
     e.highestRec = some (record 1) ∧ e.nand.bits ≠ e.bitsPerCell) ∧
    (let d := { loading {} with image := { base.image with permit := some 3 } }
     let e := d.dropUnreadable ⟨[], [], []⟩
     e.highestRec = none ∧ e.image.permit.isSome = true ∧ e.nand.formatted = false) ∧
    (let e := (loading {}).dropUnreadable ⟨[], [], []⟩
     e.highestRec = none ∧ e.image.permit = none) ∧
    (let d := lit ({ (boots 7 base).put Reg.MP_STATUS.state 2 with nand := { recs := [record 1] } })
     d.bootAt 7 = true ∧ d.get Reg.MP_STATUS.state = 2 ∧ (∀ c ∈ d.readCosts, d.fits c = true) ∧ d.newestRec = some (record 1)) ∧
    ((boots 8 base).bootAt 8 = true ∧ ∀ c ∈ (lit (boots 8 base)).readCosts, (lit (boots 8 base)).fits c = true) ∧
    (let d := lit { geo (boots 9 base) with
        cd := { toSample := [255] }
        rc := { table := [(blockKey 4064 2, { state := .closed, valid := 1 })] }
        nand := { sets := [(Pga.mk 4064 2 3 0, onFlash0)] } }
     d.bootAt 9 = true ∧ d.cd.toSample.contains 255 = true ∧ (∀ c ∈ d.readCosts, d.fits c = true) ∧
      (∀ a ∈ ([] : List Nat), Pga.set (a / 16) ∉ d.sampledSets 255)) ∧
    (let d := lit { (geo (boots 6 base)).put Reg.PW_STATE.format 1 with image := { base.image with permit := some 3 } }
     d.bootAt 6 = true ∧ d.bit Reg.PW_STATE.format = true ∧ d.pw.formatted = false ∧ d.bit Reg.PW_STATE.prog_hold = false ∧
      (∀ c ∈ d.get Reg.MS_COST_PROG.prog_ma :: d.bringUpCosts, d.fits c = true) ∧ d.image.permit = some 3) ∧
    (boots 10 base).bootAt 10 = true := by decide +kernel

/-- The codeword of a bank's sample that fails lies in a set that is sampled. -/
theorem witness_BootStepsSixToTenComplete_sample :
    let d := { geo (boots 9 base) with
      cd := { toSample := [254] }
      rc := { table := [(blockKey 4064 2, { state := .closed, valid := 1 })] }
      nand := { sets := [(Pga.mk 4064 2 3 0, onFlash0)] } }
    d.cd.toSample.contains 254 = true ∧ ∃ a ∈ [Pga.mk 4064 2 3 0 * 16 + 5], Pga.set (a / 16) ∈ d.sampledSets 254 := by decide +kernel

/-- Hasp in Prepare, or with its Commit begun. -/
def hasping (p : PwPhase) (h : Hasp) : Dev := { base with pw := { base.pw with phase := p, hasp := some h } }

theorem witness_HaspCommandsComplete :
    (base.mayPrepare = true ∧ base.wardenRuns = true) ∧ ((inPhase .preparing base).pw.phase ≠ .running) ∧
    (base.modQe (fun e => { e with hold := some 0 })).qe.hold.isSome = true ∧
    ((hasping .preparing { acc := none, start := 0 }).wardenRuns = true) ∧
    (let d := at_ 1000000001 (hasping .preparing { acc := none, start := 0 })
     d.pw.phase = .preparing ∧ d.expired 0 (msTicks (d.get Reg.PW_HASP_CFG.prepare_ms)) = true) ∧
    (let h : Hasp := { acc := none, start := 0, resetSeen := true, boltAnswer := some true }
     let d := hasping .preparing h
     (d.get Reg.PW_HASP_STATUS.ready).testBit 3 = false ∧ d.haspAnswer h 3 = .no ∧ d.haspAnswer h 2 = .notYet ∧ d.haspAnswer h 255 = .notYet ∧
      d.haspAnswer h 7 = .yes ∧ (d.unitReady 7).get Reg.PW_HASP_STATUS.ready ≠ 255 ∧
      ((d.put Reg.PW_HASP_STATUS.ready 128).get Reg.PW_HASP_STATUS.ready).testBit 7 = true ∧
      ((d.put Reg.PW_HASP_STATUS.ready 127).unitReady 7).get Reg.PW_HASP_STATUS.ready = 255 ∧
      ((d.put Reg.PW_HASP_STATUS.ready 127).get Reg.PW_HASP_STATUS.ready).testBit 7 = false) ∧
    (let h : Hasp := { acc := none, start := 0, commitStart := some 0, commitStep := 6 }
     let d := hasping .committing h
     d.pw.hasp = some h ∧ d.stopPosted h = true ∧ d.pw.wakeUntil ≤ d.now ∧
      (let e := { d with pw := { d.pw with wakeUntil := 10 } }
       e.stopPosted h = true ∧ e.now + 10 ≤ e.pw.wakeUntil) ∧
      (at_ 1000000001 d).expired 0 (msTicks ((at_ 1000000001 d).get Reg.PW_HASP_CFG.commit_ms)) = true) ∧
    (let h : Hasp := { acc := some 1, start := 0, commitStart := some 0, commitStep := 6 }
     (having (cmd1 0 .committed 0) (hasping .committing h)).stopPosted h = false ∧ { h with commitStep := 4 }.commitStep ≠ 6) := by
  decide +kernel

/-! ### Media, codec, the descriptors, reclaim -/

/-- MS, CD, MP and RC run. -/
def units (d : Dev) : Dev := (((d.put Reg.MS_STATUS.state 3).put Reg.CD_STATUS.state 4).put Reg.MP_STATUS.state 4).put Reg.RC_STATUS.state 2

/-- One operation on LUN 1 of channel 127. -/
def anOp (k : OpKind) (st : OpState) : FlashOp := { id := 3, lun := 4065, kind := k, st := st }

def withOps (l : List FlashOp) (d : Dev) : Dev := d.modMs (fun m => { m with ops := l })

theorem witness_TokensAndTimersComplete :
    (let o := { anOp (.erase 2) (.waiting 0) with }
     let d := at_ 1000001 (withOps [o] base)
     d.isDead = false ∧ d.ms.ops.find? (fun o => o.id = 3) = some o ∧ o.tokenWait = some 0 ∧
      d.expired 0 (d.get Reg.MS_PROG_CFG.token_wait_us) = true) ∧
    (let d := at_ 1000001 (base.modMs (fun m => { m with tails := [0, 1], fphyAt := some 0 }))
     d.ms.tails = [0, 1] ∧ d.expired 0 (d.get Reg.MS_COST_TAIL.tail_us) = true ∧ d.ms.fphyAt = some 0 ∧ d.ms.rampAt = none ∧
      (at_ 1000000001 d).expired 0 (msTicks ((at_ 1000000001 d).get Reg.MS_RAMP_CFG.delay_ms)) = true) ∧
    (let d := (base.modMs (fun m => { m with rampAt := some 0 })).put Reg.MS_STATUS.ramp 1
     d.ms.rampAt = some 0 ∧ d.bit Reg.MS_STATUS.ramp = true) ∧
    (let d := at_ 1000000000001 (((units (base.modMs (fun m => { m with zq := [(127, 0)] }))).put (fcReg 127 Reg.FC_STATUS.state) 4).put Reg.MS_LEDGER.ceiling_ma 60000)
     d.ms.zq.find 127 = some 0 ∧ d.get (fcReg 127 Reg.FC_STATUS.state) = 4 ∧ d.msWorks = true ∧ d.expired 0 (msTicks (d.get (fcReg 127 Reg.FC_ZQ_CFG.zq_interval_ms))) = true) := by
  decide +kernel

def aSet : WlSet := { seq := 9, kind := .data, stream := 0, place := 0, stripe := 0, slots := [], padded := false, sealedAt := 0 }

theorem witness_MediaOperationsComplete :
    (let d := withOps [anOp (.read 0 0 1 []) .array] (units base)
     d.msWorks = true ∧ 127 < 128 ∧ 31 < 32 ∧ d.lunFailed 4065 = false ∧ d.activeOp 4065 = some (anOp (.read 0 0 1 []) .array)) ∧
    (let d := withOps [anOp (.erase 2) .queued] (units base)
     d.activeOp 4065 = none ∧ d.chooseOp 4065 = some (anOp (.erase 2) .queued)) ∧
    (let d := withOps [anOp (.erase 2) .array] base
     d.ms.ops.find? (fun o => o.lun = 4065 && (o.st == .array || o.st == .setting)) = some (anOp (.erase 2) .array)) ∧
    (let o := anOp (.read 0 0 1 []) .setting
     (withOps [o] base).ms.ops.find? (fun o => o.lun = 4065 && (o.st == .array || o.st == .setting)) = some o) ∧
    (let o := { anOp (.read 0 0 1 []) .unloading with moving := true, kib := 1 }
     (withOps [o] base).ms.ops.find? (fun o => o.lun = 4065 && o.moving) = some o) ∧
    (let o := anOp (.erase 2) .array
     let d := at_ 1000000001 (withOps [o] base)
     d.ms.ops.find? (fun o => o.id = 3 && o.lun = 4065 && o.st == .array && (match d.opLimit o with
        | some l => d.expired o.start l
        | none => false)) = some o) ∧
    (let o := anOp (.erase 2) .array
     let r := { anOp (.read 0 0 1 []) .queued with id := 4 }
     let d := at_ 1000001 (withOps [o, r] (units base))
     d.ms.ops.find? (fun o => o.lun = 4065 && o.kind.isErase && !o.resetting && o.st == .array) = some o ∧ d.waitingReads 4065 ≠ [] ∧
      d.expired o.start (d.get Reg.MS_SUSPEND_CFG.resume_min_us) = true ∧ o.suspends < d.get Reg.MS_SUSPEND_CFG.max_suspends) ∧
    (let o := anOp (.erase 2) .suspended
     let d := (withOps [o] base).put Reg.MS_LEDGER.ceiling_ma 60000
     d.suspendedOp 4065 = some o ∧ d.mayResume o = true) ∧
    (let d := at_ 1000000001 (base.modMs (fun m => { m with sets := [aSet] }))
     d.setOf 9 = some aSet ∧ d.expired 0 (msTicks (d.get Reg.MS_PROG_CFG.prog_age_ms)) = true) ∧
    (let o : OpenSet := { stream := 2, vids := [1], last := 0 }
     let d := at_ 1000000000001 (base.modMs (fun m => { m with openSets := [o] }))
     d.openSet 2 = some o ∧ d.expired 0 (secTicks (d.get Reg.MP_CKPT_CFG.idle_pad_s)) = true) := by decide +kernel

/-- A codeword request of a host Read. -/
def aReq (st : ReqState) : CwReq := { id := 2, addr := 0, who := .host 1 0 0, st := st }

/-- A LUN whose newest line stands at word line 1 of block group 2. -/
def lined (d : Dev) : Dev := { d with nand := { witness := [(4064, [⟨1, 1, 0, 0, 1, 0, 1, 2, true, []⟩])] } }

theorem witness_DecodesAndWitnessesComplete :
    (let d := { base with cd := { reqs := [aReq .decoding] }, nand := { sets := [(0, onFlash0)] } }
     let q := (aReq .decoding).noteUnsat (7 % 2 ^ 32)
     d.req 2 = some (aReq .decoding) ∧ (aReq .decoding).awaits = true ∧ d.isDead = false ∧ q.dead = false ∧ q.addr = 0 ∧
      (d.modReq 2 (fun _ => q)).onFlash q.addr = true ∧ (d.modReq 2 (fun _ => q)).isParity q.addr = false ∧
      ({ aReq .decoding with dead := true }.noteUnsat 7).dead = true ∧ { aReq .decoding with dead := true }.awaits = true) ∧
    (let d := { base with cd := { reqs := [aReq .decoding] }, nand := { sets := [(0, { onFlash0 with kind := .parity })] } }
     d.isParity 0 = true ∧ d.onFlash 0 = true) ∧
    (base.onFlash 0 = false) ∧
    (let d := at_ 1000000001 { base with cd := { reqs := [aReq .waitingStep] } }
     d.req 2 = some (aReq .waitingStep) ∧ d.qe.hold = none ∧ d.expired 0 (msTicks (d.get Reg.CD_LADDER_CFG.policy_ms) + 0) = true) ∧
    (let d := lined ((geo base).put Reg.PW_OPT.opt (2 ^ 40))
     4064 = 127 * 32 + 0 ∧ 4064 ∈ d.goodLuns ∧ d.inRun = true ∧ d.pw.phase ≠ .committing ∧ 15 < 16 ∧ d.isDead = false ∧ d.lineUnderway 4064 = false ∧
      d.optExpired (d.drift 4064).lastWitness (hourTicks (d.get Reg.CD_WITNESS_CFG.interval_h)) = true ∧
      (d.modDrift 4064 (fun x => { x with lastWitness := d.optTicks })).witnessPlace 4064 = some (Pga.mk 4064 2 1 0) ∧
      (d.modDrift 0 (fun x => { x with lastWitness := d.optTicks })).witnessPlace 0 = none ∧ 0 ∈ d.goodLuns ∧
      d.optExpired (d.drift 0).lastWitness (hourTicks (d.get Reg.CD_WITNESS_CFG.interval_h)) = true) := by decide +kernel

/-- A descriptor at index 0 of a unit's ring: body fields by byte. -/
def posted (u : Unit4) (op : Nat) (body : List (Nat × Nat)) (d : Dev) : Dev :=
  d.writeLine (entryAt u 0) (BitVec.ofNat 512 (1 + op * 256 + (body.map (fun f => f.2 * 2 ^ (64 + 8 * f.1))).sum))

theorem witness_CodecDescriptorsComplete :
    (let d := posted .cd 1 [(0, 2), (4, 3)] (units { base with cd := { reqs := [{ aReq .waitingStep with tier := 2 }] } })
     (d.entryReady .cd 1).any (fun e => (d.takeDesc .cd e.1 e.2).cdDone && ((d.takeDesc .cd e.1 e.2).req (bodyAt e.2 0 32)).any (fun r =>
      r.st == .waitingStep && r.tier + 1 = bodyAt e.2 4 8)) = true) ∧
    (let d := posted .cd 2 [(0, 127), (2, 3), (16, 0x100000000)] (lined (geo (units base)))
     (List.replicate 240 (0 : Dword)).length = 16 * d.thresholds ∧ (d.entryReady .cd 2).any (fun e => (d.takeDesc .cd e.1 e.2).cdDone &&
      populated (d.takeDesc .cd e.1 e.2) (bodyAt e.2 0 7 * 32 + bodyAt e.2 1 5) && bodyAt e.2 2 8 < (d.takeDesc .cd e.1 e.2).bitsPerCell &&
      !(d.takeDesc .cd e.1 e.2).lunFailed (bodyAt e.2 0 7 * 32 + bodyAt e.2 1 5) && (d.takeDesc .cd e.1 e.2).bufferOk (bodyAt e.2 16 64) 2048 &&
      (d.takeDesc .cd e.1 e.2).witnessPlace (bodyAt e.2 0 7 * 32 + bodyAt e.2 1 5) == some (Pga.mk 4064 2 1 0)) = true) ∧
    (let d := posted .cd 3 [(16, 0x100000000)] (geo (units base))
     (d.entryReady .cd 3).any (fun e => (d.takeDesc .cd e.1 e.2).cdDone && populated (d.takeDesc .cd e.1 e.2) (Pga.dieLun (bodyAt e.2 0 44 / 16)) &&
      Pga.block (bodyAt e.2 0 44 / 16) < d.blockGroups && Pga.wl (bodyAt e.2 0 44 / 16) < d.wordLines && cwIndex (bodyAt e.2 0 44) < d.codewords &&
      !(d.takeDesc .cd e.1 e.2).lunFailed (Pga.dieLun (bodyAt e.2 0 44 / 16)) && (d.takeDesc .cd e.1 e.2).bufferOk (bodyAt e.2 16 64) d.thresholds) = true) ∧
    (let d := posted .cd 4 [(5, 4)] (geo (units base))
     (d.entryReady .cd 4).any (fun e => (d.takeDesc .cd e.1 e.2).cdDone && populated (d.takeDesc .cd e.1 e.2) (Pga.dieLun (bodyAt e.2 0 40)) &&
      Pga.block (bodyAt e.2 0 40) < d.blockGroups && Pga.wl (bodyAt e.2 0 40) < d.wordLines && bodyAt e.2 5 8 ≤ 4 &&
      !(d.takeDesc .cd e.1 e.2).lunFailed (Pga.dieLun (bodyAt e.2 0 40))) = true) := by decide +kernel

theorem witness_MapDescriptorsComplete :
    (let d := posted .mp 1 [(0, 1), (9, 1), (16, 0x100000000)] (units (withNs base))
     (d.entryReady .mp 1).any (fun e => (d.takeDesc .mp e.1 e.2).mpRuns && ((d.takeDesc .mp e.1 e.2).named e.2 64).any (fun ks =>
      ks.all (fun k => !(d.takeDesc .mp e.1 e.2).pageLost (pageOf k)) && (d.takeDesc .mp e.1 e.2).bufferOk (bodyAt e.2 16 64) (8 * ks.length))) = true) ∧
    (let d := posted .mp 2 [] (units { base with nand := { sets := [(0, onFlash0)] } })
     (d.entryReady .mp 2).any (fun e => Pga.slot (bodyAt e.2 4 40) = 0 && (d.takeDesc .mp e.1 e.2).mpRuns &&
      (d.takeDesc .mp e.1 e.2).nand.sets.find (bodyAt e.2 4 40) = some onFlash0) = true) ∧
    ([3, 4].all (fun op => let d := posted .mp op [(0, 1), (4, 61), (9, 1)] (units (withNs base))
      (d.entryReady .mp op).any (fun e => (d.takeDesc .mp e.1 e.2).mpRuns && ((d.takeDesc .mp e.1 e.2).named e.2 512).any (fun ks =>
        ks.all (fun k => !(d.takeDesc .mp e.1 e.2).pageLost (pageOf k))))) = true) ∧
    (let d := posted .mp 5 [(0, 1), (9, 4096)] (units (withNs base))
     (d.entryReady .mp 5).any (fun e => (d.takeDesc .mp e.1 e.2).mpRuns && (d.takeDesc .mp e.1 e.2).mp.ns.has (bodyAt e.2 0 5) && 1 ≤ bodyAt e.2 9 16 &&
      bodyAt e.2 9 16 ≤ 4096 && bodyAt e.2 4 40 + bodyAt e.2 9 16 ≤ 2 ^ 27 && (d.takeDesc .mp e.1 e.2).mp.dir.all (fun x => !x.2.lost)) = true) ∧
    (let d := posted .mp 6 [] (units base)
     (d.entryReady .mp 6).any (fun e => (d.takeDesc .mp e.1 e.2).mpRuns) = true) := by decide +kernel

theorem witness_MediaDescriptorsComplete :
    (let d := posted .ms 1 [(0, 127)] (geo (units base))
     (d.entryReady .ms 1).any (fun e => (d.takeDesc .ms e.1 e.2).msRuns && populated (d.takeDesc .ms e.1 e.2) (bodyAt e.2 0 7 * 32 + bodyAt e.2 1 5) &&
      d.ms.ops.isEmpty && (d.takeDesc .ms e.1 e.2).lunState 4064 = 0 && (d.takeDesc .ms e.1 e.2).activeOp 4064 == none &&
      (d.takeDesc .ms e.1 e.2).suspendedOp 4064 == none && !(d.takeDesc .ms e.1 e.2).lunFailed (bodyAt e.2 0 7 * 32 + bodyAt e.2 1 5)) = true) ∧
    (let d := posted .ms 2 [(16, 0x100000000)] (geo (units base))
     (d.entryReady .ms 2).any (fun e =>
      (d.takeDesc .ms e.1 e.2).msRuns && populated (d.takeDesc .ms e.1 e.2) (Pga.dieLun (bodyAt e.2 0 44 / 16)) &&
      Pga.block (bodyAt e.2 0 44 / 16) < d.blockGroups && Pga.wl (bodyAt e.2 0 44 / 16) < d.wordLines && cwIndex (bodyAt e.2 0 44) < d.codewords &&
      !(d.takeDesc .ms e.1 e.2).lunFailed (Pga.dieLun (bodyAt e.2 0 44 / 16)) && (d.takeDesc .ms e.1 e.2).bufferOk (bodyAt e.2 16 64) 8192) = true) ∧
    ([(Unit4.ms, 3), (Unit4.rc, 4)].all (fun u => let d := posted u.1 u.2 [] (geo (units base))
      (d.entryReady u.1 u.2).any (fun e => (d.takeDesc u.1 e.1 e.2).msRuns && (d.takeDesc u.1 e.1 e.2).rcRuns &&
        populated (d.takeDesc u.1 e.1 e.2) (Pga.dieLun (bodyAt e.2 0 40)) && Pga.block (bodyAt e.2 0 40) < d.blockGroups &&
        (d.entry 0 0).state.present && !d.lunFailed 0)) = true) ∧
    (let d := posted .rc 1 [] (geo (units base))
     (d.entryReady .rc 1).any (fun e => (d.takeDesc .rc e.1 e.2).rcRuns && (d.takeDesc .rc e.1 e.2).allStripes.contains (bodyAt e.2 0 40) &&
      !(d.takeDesc .rc e.1 e.2).stripeRetired (bodyAt e.2 0 40)) = true) ∧
    (let d := posted .rc 2 [] { geo (units base) with rc := { table := (List.range 32).map (fun c => (blockKey (32 * c) 0, { state := .closed })) } }
     (d.entryReady .rc 2).any (fun e => (d.takeDesc .rc e.1 e.2).rcRuns && (d.takeDesc .rc e.1 e.2).allStripes.contains (bodyAt e.2 0 40) &&
      !(d.takeDesc .rc e.1 e.2).stripeRetired (bodyAt e.2 0 40) && (d.stripeEntries (bodyAt e.2 0 40)).all (fun x => x.state == .closed)) = true) ∧
    (let d := posted .rc 3 [(0, 127)] (geo (units base))
     (d.entryReady .rc 3).any (fun e => populated (d.takeDesc .rc e.1 e.2) (bodyAt e.2 0 7 * 32 + bodyAt e.2 1 5) &&
      !(d.takeDesc .rc e.1 e.2).lunFailed (bodyAt e.2 0 7 * 32 + bodyAt e.2 1 5)) = true) ∧
    (let x : Desc := { unit := .rc, index := 255, entry := 0, result := some (0, 0, 0) }
     unitOf 3 = some .rc ∧ ({ base with rings := { desc := [x] } }.inProgress .rc).find? (fun x => x.index = 255) = some x) := by decide +kernel

def aPass : Pass := { why := .refreshLun 0, left := [5], urgent := true }

def aUnit : Unit_ := { id := 4, why := .refreshLun 0, stripe := 0, copies := [], urgent := false, started := true }

def aRun : CkptRun := { seq := 3, cutSeq := 0, replay := [], writing := true }

theorem witness_ReclaimAndCheckpointsComplete :
    (let d := (units base).modRc (fun r => { r with passes := [aPass] })
     d.rcRuns = true ∧ d.pw.phase = .running ∧ d.isSealed = false ∧ d.rc.passes.find? (fun p => p.urgent && !p.left.isEmpty) = some aPass) ∧
    (let d := (units base).modRc (fun r => { r with passes := [{ aPass with urgent := false }] })
     d.rc.passes.find? (fun p => p.urgent && !p.left.isEmpty) = none ∧ (d.rc.passes.find? (fun p => !p.left.isEmpty)).isSome = true) ∧
    (let d := base.modRc (fun r => { r with units := [aUnit] })
     d.rc.units.find? (fun u => u.id = 4 && u.started && u.copies.all (fun c => c.settled)) = some aUnit) ∧
    (let d := ({ geo (units base) with rc := { table := (List.range 32).map (fun c => (blockKey (32 * c) 0, { state := .victim })), emptied := [(0, 1)] } }).put
        Reg.MP_CKPT_SEQ.seq 3
     d.rcRuns = true ∧ d.rc.emptied.find? (fun p => p.1 = 0) = some (0, 1) ∧
      (∀ e ∈ d.stripeEntries 0, (e.state = .closed ∨ e.state = .victim) ∧ e.valid = 0 ∧ e.pinned = 0) ∧ d.isSealed = false ∧
      1 + 2 ≤ d.get Reg.MP_CKPT_SEQ.seq ∧ d.copiesSafe 0 = true ∧ d.superseded 0 = true ∧ d.inUse 0 = false) ∧
    (let d := at_ 1000000001 { geo (units base) with rc := {
        table := (List.range 32).map (fun c => (blockKey (32 * c) 0, { state := .closed }))
        belowSince := some 0 } }
     d.rcRuns = true ∧ d.qe.hold = none ∧ d.reclaimWaits = false ∧ d.rc.belowSince = some 0 ∧
      d.expired 0 (msTicks (10 * d.get Reg.RC_VICTIM_CFG.fallback_ms)) = true ∧
      (d.modRc (fun r => { r with belowSince := some d.now })).fallbackChoice.isSome = true) ∧
    (let d := at_ 1000000000001 (units base)
     d.mpRuns = true ∧ d.ckptDue = true ∧ d.haspCkptDue = false) ∧
    (let d := { base with mp := { base.mp with ckpt := some aRun }, nand := { recs := [record 2, record 3] } }
     d.mp.ckpt = some aRun ∧ aRun.writing = true ∧ d.copyAt aRun.seq 3 = true ∧ d.isDead = false) := by decide +kernel

/-! ### Faults, cores, memories, code flash, events, maintenance -/

/-- A fault message of the shared scratchpad's CRC checker, contained. -/
def aMsg : FaultMsg := { source := Src.shared, kind := Kind.lineCrc, cls := 1 }

theorem witness_FaultCommandsComplete :
    (let m : BitVec 78 := BitVec.ofNat 78 (Src.shared + Kind.lineCrc * 2 ^ 10 + 2 * 2 ^ 16)
     base.logicOn = true ∧ Src.listed (fld m 0 10) = true ∧ Kind.known (fld m 10 6) = true ∧ Kind.privileged (fld m 10 6) = false ∧
      classOk (fld m 10 6) (fld m 16 2) = true) ∧
    (base.pw.phase ≠ .unpowered ∧ base.pw.phase ≠ .stopped ∧ Src.listed Src.pw = true ∧ Kind.privileged 0x20 = true ∧ Kind.privileged 0x23 = true ∧
      base.isDead = false) ∧
    (base.wardenWrites = true ∧ isCore .warden = true ∧ isCore (.bolt 15) = true ∧ (1 : Dword).getLsbD 0 = true ∧ (2 : Dword).getLsbD 1 = true ∧
      (2 : Dword).getLsbD 0 = false ∧ (1 : Dword).getLsbD 1 = false) ∧
    (base.bit Reg.FT_INJECT.arm = false ∧ Src.listed (fld (0x80000391 : Dword) 0 10) = true ∧ Src.listed (fld (0x800003c0 : Dword) 0 10) = false) := by decide +kernel

/-- The contained record is held. -/
def holding1 : Dev := base.setCapture 1 { valid := true, source := 5 }

theorem witness_FaultClasses :
    (base.isDead = false ∧ aMsg.cls ≤ 2 ∧ (base.capture 1).valid = false ∧
      ¬(aMsg.cls < 2 ∧ aMsg.kind < 32 ∧ (base.get Reg.FT_KIND_RAISE.raise).testBit aMsg.kind = true)) ∧
    (let d := base.put Reg.FT_KIND_RAISE.raise 2
     aMsg.kind < 32 ∧ (d.get Reg.FT_KIND_RAISE.raise).testBit aMsg.kind = true) ∧
    (holding1.isDead = false ∧ (holding1.capture 1).valid = true) ∧
    (let m := { aMsg with cls := 0 }
     let d := holding1.setCapture 0 { valid := true }
     m.cls ≤ 2 ∧ (d.capture 0).valid = true ∧ (d.capture 0).followers < 0xffffffff ∧ (base.setCapture 0 { valid := true }).isDead = false) := by
  decide +kernel

/-- The inject control of a unit is armed. -/
def armed (src : Nat) (d : Dev) : Dev := (d.put Reg.FT_INJECT.arm 1).put Reg.FT_INJECT.source src

theorem witness_InjectedFatalErrors :
    (let d := armed Src.qeTags quiet
     d.armedFor Src.qeTags = true ∧ d.takesMemory 0 = true ∧ d.queue 0 5 = some someQueue ∧ (d.port 0).state ≠ .booting ∧
      (d.port 0).state ≠ .deadbolt ∧ d.qe.haspDrop = false ∧ d.qe.dead = false ∧ (d.cmdsOf 0 5).length < someQueue.depth) ∧
    ((armed Src.wdog base).armedFor Src.wdog = true ∧ (armed Src.wdog base).awake = true) ∧
    (let d := armed (Src.sensor 23) base
     d.armedFor (Src.sensor 23) = true ∧ d.sensorsRun = true ∧ d.pw.thermTrip = false) := by decide +kernel

/-- Bolt core 15 runs with its watchdog enabled and its timer's compare value reached. -/
def coreUp : Dev := (at_ 100000001 (base.modCores (fun c => { c with bolt := [(15, { run := true })] }))).put (Reg.BC_WDOG.enable.at 120) 1

/-- Source 319 is pending, routed to Warden at priority 7, with source 5. -/
def pended : Dev := [319, 5].foldl (fun d n => (d.put (routeReg Reg.IC_ROUTE.priority n) 7).put (routeReg Reg.IC_ROUTE.target n) 1)
  (base.modCores (fun c => { c with icPending := BitVec.ofNat 320 (2 ^ 319 + 2 ^ 5) }))

theorem witness_WatchdogsAndInterruptsComplete :
    base.awake = true ∧ base.armedFor Src.wdog = false ∧ ((at_ 100000001 base).expired 0 (msTicks (at_ 100000001 base).cores.wdogLimit) = true) ∧ 15 < 16 ∧
    (coreUp.dogRuns 15 = true ∧ coreUp.get (Reg.BC_WDOG.limit_ms.at (8 * 15)) * 1000 + 1 ≤ coreUp.dogTicks 15 ∧
      ((((coreUp.settleDogs.modCore 15 (fun c => { c with halted := true })).put (Reg.BC_CORE.state.at (4 * 15)) 3).raise (Irq.boltWdog 15)).contained
        (Src.boltCore 15) Kind.boltWatchdog 15 0x3f 11).isDead = false ∧ coreUp.cores.act = none) ∧
    (coreUp.coreRuns 15 = true ∧ (coreUp.put (Reg.BC_MTIMECMP.cmp.at (8 * 15)) 100000001).get (Reg.BC_MTIMECMP.cmp.at (8 * 15)) ≤ coreUp.now) ∧
    (isCore (.bolt 15) = true ∧ 16 < 17 ∧ icOwner (.bolt 15) 16 = true ∧ base.claimable 16 = none ∧ (pended.claimable 0).isSome = true) ∧
    (mayRaise .warden 144 = true ∧ mayRaise (.bolt 15) 128 = true ∧ 319 < 320 ∧ 16 ≠ 14 + 1 ∧ base.boltRouteOk 10 0x40000000 = true) := by decide +kernel

theorem witness_ClaimTakesTheHighestPriority :
    pended.claimable 0 = some 5 ∧ pended.icIsPending 319 = true ∧ pended.inService 319 = false ∧ pended.routedTo 319 0 = true ∧
    pended.get (routeReg Reg.IC_ROUTE.priority 319) = pended.get (routeReg Reg.IC_ROUTE.priority 5) := by decide +kernel

/-- A good line in the shared scratchpad. -/
def oneLine : Dev := coreUp.writeLine 0x100000000 7

theorem witness_InternalAccessCompletes :
    (base.accessComes .warden .read 0x20000000 4 = true ∧ (base.wardenMap 0x20000000).isSome = true ∧ 0x20000000 % 4 = 0 ∧
      (base.wardenMap 0x2007fffc).isSome = true) ∧
    (coreUp.accessComes (.bolt 15) .read 0x100fffff8 8 = true ∧ coreUp.boltMay 15 .read 0x100fffff8 = true ∧ (coreUp.region 0x100fffff8).onChip = true) ∧
    (coreUp.accessComes (.bolt 15) .write 0x101800000 4 = true ∧ coreUp.boltMay 15 .write 0x101800000 = false ∧ coreUp.region 0x101800000 ≠ .nothing ∧
      coreUp.region 0x101800000 ≠ .registers) ∧
    ((oneLine.region 0x10000003c).onChip = true ∧ (oneLine.chip 0x10000003c).any (fun l => !l.poisoned && Dev.crcOk l 0x10000003c) = true ∧
      oneLine.armedFor (oneLine.region 0x10000003c).source = false) ∧ (oneLine.core 15).lr ≠ some 0x100000000 := by decide +kernel

theorem witness_OnChipCommandsComplete :
    (let v : Dword := BitVec.ofNat 32 (2 ^ 31 + 262144)
     let d := base.put Reg.SP_CLEAR_BASE.line (0x100000000 / 64)
     d.wardenWrites = true ∧ v.getLsbD 31 = true ∧ 1 ≤ fld v 0 19 ∧ fld v 0 19 ≤ 262144 ∧ (d.region (d.get Reg.SP_CLEAR_BASE.line * 64)).onChip = true) ∧
    (let v : Dword := BitVec.ofNat 32 (2 ^ 31 + 256 + 81)
     v.getLsbD 31 = true ∧ base.mem.march = none ∧ fld v 0 8 ≤ 81 ∧ v.getLsbD 8 = true) ∧
    ((base.modMem (fun m => { m with march := some (81, true) })).mem.march = some (81, true) ∧ 8191 < (marchRegion 81).2) ∧
    (let d := (base.writeLine 0x100000000 7).put Reg.SP_TEST_ADDR.line (0x100000000 / 64)
     d.testLine = some 0x100000000 ∧ (d.chip 0x100000000).isSome = true) ∧
    (base.put Reg.WD_TRNG_STATUS.seeded 1).bit Reg.WD_TRNG_STATUS.seeded = true := by decide +kernel

theorem witness_DramAndTemperatureComplete :
    (let d := (base.put Reg.DC_STATUS.state 2).put Reg.PW_OPT.opt (2 ^ 40)
     d.wardenWrites = true ∧ d.get Reg.DC_STATUS.state = 2 ∧ 5 < 6 ∧
      d.optExpired d.mem.scrubOpt (hourTicks (d.get Reg.DC_SCRUB_CFG.scrub_h)) = true) ∧
    (base.sensorsRun = true ∧ 23 < 24) ∧
    (let d := (base.put (Reg.TS_TEMP.valid.at 92) 1).put (Reg.TS_TEMP.temp.at 92) 2000
     d.bit (Reg.TS_TEMP.valid.at (4 * 23)) = true ∧ 2000 ≤ d.reading 23 ∧ d.pw.thermTrip = false) ∧
    (let d := (base.put (Reg.TS_TEMP.valid.at 0) 1).put Reg.PW_OPT.opt 1000
     d.awake = true ∧ d.isDead = false ∧ d.ev.binSecond < d.opt.toNat / 1000 ∧ d.hottest = some 0) ∧ base.optRuns = true ∧ base.pw.perstLow = false := by decide +kernel

/-- The code flash is open. -/
def cfUp : Dev := base.put Reg.CF_STATUS.scan_done 1

theorem witness_CodeFlashCommandsComplete :
    (cfUp.cfOpen = true ∧ cfUp.cf.op = .none ∧ cfUp.cf.seq = [] ∧ (List.replicate 64 (0 : Dword)).length = 64 ∧ 0xff00 % 256 = 0 ∧
      cfUp.isMapped (cfUp.get Reg.CF_SECTOR_SEL.sector) = false ∧ 0xfe00 / 256 % 256 ≠ 255 ∧
      (cfUp.sector (cfUp.get Reg.CF_SECTOR_SEL.sector)).erases < 20000 ∧ cfUp.cf.seq.take 3 ≠ programStart) ∧
    (let d := cfUp.modCf (fun c => { c with op := .erase 511 3 })
     d.cfOpen = true ∧ d.cf.op = .erase 511 3 ∧ d.cf.suspended = false ∧ d.cf.resumedAt = none ∧ d.cf.stalled = [] ∧ 200000 ≤ 200000 ∧
      (d.modCf (fun c => { c with suspended := true })).cf.suspended = true) ∧
    (let d := at_ 101 (cfUp.modCf (fun c => { c with seq := [(0x5550, 0xaa)] }))
     d.cf.seq ≠ [] ∧ d.expired d.cf.seqTick 100 = true) ∧
    (let d := cfUp.modCf (fun c => { c with op := .program 511 254 0 })
     d.cf.op = .program 511 254 0 ∧ d.cf.suspended = false ∧ 600 ≤ 600 ∧ 254 < 255 ∧ d.cf.markWaits = none ∧ d.cf.stalled = []) := by decide +kernel

def anEvent : Event := ⟨0x0102, 1, 0, false, 4, 1, 0, 0, 0, 0⟩

/-- EV works. -/
def evUp : Dev := ((units base).put Reg.EV_STATUS.located 1).put Reg.MS_GEOMETRY.wl_per_block 4

theorem witness_EventCommandsComplete :
    (base.awake = true ∧ eventListed 0x0102 Src.wardenFw 0 = true ∧ eventListed 0x0bff Src.wardenFw 0 = eventListed 0x0b00 Src.wardenFw 0) ∧
    (let d := at_ 1000000000001 (evUp.modEv (fun e => { e with ring := [anEvent] }))
     d.evWorks = true ∧ d.evBusy .log = false ∧ d.ev.clears = [] ∧ d.ringDue = true ∧ d.logFull = false) ∧
    (let d := evUp.modEv (fun e => { e with ring := [anEvent], clears := [⟨0, none, 1, anEvent⟩] })
     d.evWorks = true ∧ d.evBusy .log = false ∧ d.ev.clears ≠ [] ∧ d.otherHalfBusy = false) ∧
    (let d := evUp.put Reg.PW_OPT.opt (2 ^ 40)
     d.evWorks = true ∧ d.evBusy .health = false ∧ 
      d.optExpired d.ev.lastSnapshot (secTicks (d.get Reg.EV_CFG.health_s)) = true) ∧
    (let d := evUp.modEv (fun e => { e with asked := [(2, none)] })
     d.isDead = false ∧ d.ev.asked.find? (fun a => a.1 = 2) = some (2, none)) ∧
    (evUp.logFull = false ∧ evUp.ev.ring.length < 4096) ∧ (evUp.put Reg.MS_GEOMETRY.wl_per_block 0).logFull = true := by decide +kernel

/-- Challenge and password unlocks are enabled. -/
def mtUp : Dev := (base.put Reg.MT_AUTH_CFG.challenge 1).put Reg.MT_AUTH_CFG.password 1

theorem witness_UartCommandsComplete :
    (base.uartPlace = .run ∧ (inPhase .loadFailed base).uartPlace = .rom) ∧
    (mtUp.uartPlace = .run ∧ mtUp.bit Reg.MT_AUTH_CFG.challenge = true ∧ mtUp.bit Reg.MT_AUTH_CFG.password = true) ∧
    (∀ x ∈ mtUp.servedWords, textBytes x ≠ (textBytes "IDX").takeWhile (fun b => b != 32)) ∧ (base.wardenWrites = true ∧ (1 : Dword).getLsbD 0 = true) ∧
    (let d := at_ 64000001 { base with mt := { nonce := some (5, 0), delay := some (0, 64) } }
     d.mt.nonce = some (5, 0) ∧ d.expired 0 (secTicks 60) = true ∧ d.mt.delay = some (0, 64) ∧ d.expired 0 (secTicks 64) = true) := by decide +kernel

theorem witness_UnlockAttempts :
    base.mt.delay = none ∧ { base with mt := { delay := some (0, 1) } }.mt.delay ≠ none := by decide +kernel

theorem witness_TapCommandsComplete :
    base.tapOn = true ∧ (inPhase .waking base).tapOn = true ∧ base.mt.unlocked = false ∧
    { base with mt := { unlocked := true } }.mt.unlocked = true ∧ base.isDead = false := by decide +kernel

/-! ### Ill-formed commands, one for each check -/

theorem test_wf_ports :
    (Instr.ringRelease 2 0 0).wf = false ∧ (Instr.dataTimeout 2 0).wf = false ∧ (Instr.ringPacketPost 2 0).wf = false ∧
    (Instr.flr 2).wf = false ∧ (Instr.configurationRequest 2 false .vendorId 0).wf = false ∧ (Instr.msixUnmask 2 0).wf = false ∧
    (Instr.ingressPacket 2 0 0 64 true false 0).wf = false ∧ (Instr.barRead 2 0 0 4 true).wf = false ∧ (Instr.unmappedBarWrite 2 0 0 ⟨4, false⟩).wf = false ∧
    (Instr.slotWrite 2 2 0 64 true false []).wf = false ∧ (Instr.slotQuarantineExpiry 2 2 0).wf = false ∧
    (Instr.peerWriteRequest 2 0 0 64 true 0).wf = false ∧ (Instr.peerTransferReady 2 0 0).wf = false := by decide

theorem test_wf_queues_and_vectors :
    (Instr.ringRelease 0 512 0).wf = false ∧ (Instr.ingressPacket 0 512 0 64 true false 0).wf = false ∧ (Instr.ringPacketPost 0 513).wf = false ∧
    (Instr.msixUnmask 0 513).wf = false ∧ (Instr.peerTransferReady 0 512 0).wf = false ∧ (Instr.peerWriteRequest 0 512 0 64 true 0).wf = false := by
  decide

theorem test_wf_windows :
    (Instr.ingressPacket 0 0 4096 64 true false 0).wf = false ∧ (Instr.ingressPacket 0 0 0 0 true false 0).wf = false ∧
    (Instr.slotWrite 0 0 0 64 true false []).wf = false ∧ (Instr.slotWrite 0 2 0 0 true false []).wf = false ∧
    (Instr.slotQuarantineExpiry 0 3 0).wf = false ∧ (Instr.barRead 0 1 0 4 true).wf = false ∧ (Instr.barRead 0 0 0 0 true).wf = false ∧
    (Instr.unmappedBarWrite 0 3 0 ⟨4, false⟩).wf = false ∧ (Instr.unmappedBarWrite 0 0 0 ⟨0, false⟩).wf = false ∧
    (Instr.peerWriteRequest 0 0 4096 64 true 0).wf = false ∧ (Instr.peerWriteRequest 0 0 0 0 true 0).wf = false ∧
    (Instr.registerWrite .warden 2 false 0).wf = false ∧ (Instr.registerWrite (.bolt 16) 0 false 0).wf = false := by decide

theorem test_wf_units :
    (Instr.flashBringUp 128 0 true 0 0).wf = false ∧ (Instr.bankSampling 256 []).wf = false ∧ (Instr.prepare 3).wf = false ∧
    (Instr.prepareAnswer 16 true).wf = false ∧ (Instr.witnessInterval 127 32 0).wf = false ∧ (Instr.idlePad 10).wf = false ∧
    (Instr.nextOperation 128 0).wf = false ∧ (Instr.nextOperation 0 32).wf = false ∧ (Instr.zqShortCalibration 128).wf = false ∧
    (Instr.dramTemperaturePoll 6 true).wf = false ∧ (Instr.temperatureUpdate 24 0).wf = false ∧ (Instr.cxKeyLoad 16).wf = false := by decide

theorem test_wf_cores :
    (Instr.ftAck (.bolt 16) 0).wf = false ∧ (Instr.boltWatchdogKick .warden 16 0).wf = false ∧ (Instr.boltWatchdogExpiry 16).wf = false ∧
    (Instr.icClaim .warden 17).wf = false ∧ (Instr.icClaim (.host 2) 0).wf = false ∧ (Instr.icComplete .warden 17 0).wf = false ∧
    (Instr.icComplete .warden 0 1024).wf = false ∧ (Instr.icRaise .warden 512).wf = false ∧ (Instr.icRoute .warden 320 0).wf = false ∧
    (Instr.internalAccess .warden .read (2 ^ 48) 4 0 none).wf = false ∧ (Instr.internalAccess .warden .read 0 0 0 none).wf = false ∧
    (Instr.internalAccess .warden .read 0 65 0 none).wf = false ∧ (Instr.programLine 0x1c00000 (List.replicate 64 0)).wf = false ∧
    (Instr.programLine 0 []).wf = false ∧ (Instr.sectorErase 0x1c00000).wf = false := by decide

/-! ### One step, against the spec's numbers -/

/-- The device after one command. -/
def after (c : Instr) (d : Dev) : Dev :=
  match Machine.exec c ⟨d, []⟩ with
  | .next t => t.dev
  | _ => d

/-- CRC-32C of the ASCII digits 1 to 9 is 0xE3069283 (the Castagnoli polynomial's check value; R51). -/
theorem test_crc32c : crc32c [0x31, 0x32, 0x33, 0x34, 0x35, 0x36, 0x37, 0x38, 0x39] = 0xe3069283 := by decide +kernel

/-- Straps above STRAP3 are outside specification (R490). -/
theorem test_power_on_straps : Machine.exec (.powerOn 0x80) State.reset = .fault .outsideSpecification := rfl

/-- A duplicate tag freezes the queue, and the packet makes no command (R51, R111). -/
theorem test_duplicate_tag :
    let e := after (.ingressPacket 0 5 0 64 true false (word [(0, 2), (16, 9), (128, 1)]))
      (having (cmd1 5 .held (word [(0, 2), (16, 9), (128, 1)])) base)
    (e.queue 0 5).map (fun u => u.state) = some .frozen ∧ e.qe.cmds.length = 1 := by decide +kernel

/-- A packet that is no 64 bytes long is an invalid packet (R51): the queue freezes with status 0x0306. -/
theorem test_short_packet :
    (((after (.ingressPacket 0 5 0 32 true false 2) quiet).port 0).errLog.map (fun e => e.status)) = [0x0306] := by decide +kernel

/-- A stray packet counts one (R52). -/
theorem test_stray : ((after (.ingressPacket 0 9 0 64 true false 2) quiet).port 0).stray = 1 := by decide +kernel

/-- A Ring Release of a count beyond the posted one is ignored (R57). -/
theorem test_ring_release : ((after (.ringRelease 0 5 (word [(448, 3)])) quiet).queue 0 5).map (fun u => u.released) = some 0 := by decide +kernel

/-- A Read of namespace 2, which does not exist, ends with Invalid Namespace at its start (R56). -/
theorem test_start_invalid_namespace :
    (after .commandStart (withNs (having (cmd1 5 .held (word [(0, 2), (32, 2), (128, 1)])) base))).qe.cmds.map (fun c => c.done.map (fun d => d.status)) =
      [some 0x0103] := by decide +kernel

/-- The last block of the namespace is in range and the next is not (R56). -/
theorem test_start_range :
    (after .commandStart (withNs (having (cmd1 5 .held (word [(0, 2), (32, 1), (64, 999), (128, 1)])) base))).qe.cmds.map (fun c => c.phase) = [.started] ∧
    (after .commandStart (withNs (having (cmd1 5 .held (word [(0, 2), (32, 1), (64, 999), (128, 2)])) base))).qe.cmds.map
      (fun c => c.done.map (fun d => d.status)) = [some 0x0104] := by decide +kernel

/-- A Verify of blocks 15 and 16 works on granules 0 and 1 (R64). -/
theorem test_write_parts : partsOf 15 2 = [{ granule := 0, first := 15, count := 1 }, { granule := 1, first := 0, count := 1 }] := by decide +kernel

/-- Get Feature of the age limits at reset: 10 ms and 1,000 ms are the ranges' lower ends, and a change of both is taken (R144, R100). -/
theorem test_set_feature_ages :
    ((after (.setFeature 1) (started 0 0x82 [(160, 2), (288, 11 + 1001 * 65536)])).get Reg.QE_AGE_CFG.promotion_ms,
     (after (.setFeature 1) (started 0 0x82 [(160, 2), (288, 11 + 1001 * 65536)])).get Reg.QE_AGE_CFG.hard_age_ms) = (11, 1001) := by decide +kernel

/-- Queue Create of a queue that exists ends with Invalid Queue (R145). -/
theorem test_queue_create_exists :
    (after (.queueCreate 1) (started 0 0x84 [(160, 5 + 65536), (304, 1)])).qe.cmds.map (fun c => c.done.map (fun d => d.status)) = [some 0x0106] := by
  decide +kernel

/-- The first Completion packet of a ring goes to its base with phase 1 (R58, R59, R62). -/
theorem test_ring_post :
    (match (after (.ringPacketPost 0 5) (quiet.modQueue 0 5 (fun u => { u with waiting := [{ bits := completionPkt 9 5 { status := 0x0201 } }] }))).out with
    | .memWrite 0 0x1000 32 data _ _ (.ring 5) :: _ => fld data 0 8 = 1 && fld data 16 16 = 9 && fld data 32 16 = 0x0201 && fld data 255 1 = 1
    | _ => false) = true := by decide +kernel

/-- A BAR2 write outside every grant counts in HP_BAR_DROPS.slot (R68). -/
theorem test_slot_write_dropped : (after (.slotWrite 0 2 64 64 true false [0]) base).get Reg.HP_BAR_DROPS.slot = 1 := by decide +kernel

/-- A read of the ingress windows returns zeros (R53). -/
theorem test_ingress_reads_zero : (after (.barRead 0 0 0x200000 4 true) base).out = [.readReply 0 .successful [0, 0, 0, 0]] := by decide +kernel

/-- A configuration request before the endpoint is configured is answered with Request Retry Status (R312). -/
theorem test_configuration_retry :
    (after (.configurationRequest 0 false .vendorId 0) { base with image := {} }).out = [.cfgReply 0 .retry 0] := by decide +kernel

/-- Only the key 0x4B1C kicks a core's watchdog (R359). -/
theorem test_watchdog_key :
    ((after (.boltWatchdogKick .warden 15 0x4b1d) coreUp).core 15).dogSince = 0 ∧
    ((after (.boltWatchdogKick .warden 15 0x4b1c) coreUp).core 15).dogSince = 100000001 := by decide +kernel

/-- Of two sources of one priority the lower number is claimed (R356). -/
theorem test_claim : (after (.icClaim .warden 0) pended).out.getLast? = some (.busReply .warden true 5) := by decide +kernel

/-- A claim with nothing pending returns 0x3FF (R356). -/
theorem test_claim_none : (after (.icClaim .warden 0) base).out.getLast? = some (.busReply .warden true 0x3ff) := by decide +kernel

/-- Warden's watchdog expiry is fatal: Deadbolt, with FAULT_N low (R358, R427). -/
theorem test_warden_watchdog :
    (after .wardenWatchdogExpiry (at_ 2000001 { base with cores := { base.cores with wdogLimit := 2000 } })).pw.phase = .deadbolt ∧
    (after .wardenWatchdogExpiry (at_ 2000000 { base with cores := { base.cores with wdogLimit := 2000 } })).pw.phase = .running := by decide +kernel

/-- A second contained fault finds the record held and is fatal (R420). -/
theorem test_escalation :
    (holding1.faultMsg aMsg).pw.phase = .deadbolt ∧ (base.faultMsg aMsg).pw.phase = .running := by decide +kernel

/-- At 125 °C the trip is fatal (R426). -/
theorem test_thermal_trip :
    (after (.thermalTrip 23) ((base.put (Reg.TS_TEMP.valid.at 92) 1).put (Reg.TS_TEMP.temp.at 92) 2000)).pw.phase = .deadbolt := by decide +kernel

/-- −40 °C is of bin 0, −35 °C of bin 1, 130 °C of bin 33 (R447). -/
theorem test_temperature_bins : tempBin (-640) = 0 ∧ tempBin (-560) = 1 ∧ tempBin 2080 = 33 ∧ tempBin (-2000) = 0 := by decide +kernel

/-- A stamp of 0 is newer than one of 0xFFFF, and one 0x8000 away is not (R171). -/
theorem test_stamps : stampNewer 0 0xffff = true ∧ stampNewer 0x8000 0 = false := by decide +kernel

/-- A request at 0x1FC0 ends at the 4 KiB boundary (R71). -/
theorem test_read_request_length : requestLen 0x1fc0 8192 512 = 64 := by decide +kernel

/-- IDCODE (R505). -/
theorem test_idcode : (after .idcode base).out = [.tdo 32 0x14096d75] := by decide +kernel

/-- After three failures the next delay is 8 s; it never exceeds 64 s (R468). -/
theorem test_unlock_delay :
    ({ base with mt := { failures := 3 } }.attempt 2 false).mt.delay = some (0, 8) ∧
    ({ base with mt := { failures := 9 } }.attempt 2 false).mt.delay = some (0, 64) := by decide +kernel

/-- A line of no known command is answered ERR 1 (R465). -/
theorem test_unknown_command :
    (after (.unknownCommand (textBytes "HELLO")) base).out = [.uart (textBytes "ERR 1" ++ [13, 10])] := by decide +kernel

/-- 600 µs of a program that ends are reported, and a program clears bits only (R374, R376). -/
theorem test_code_flash_program :
    (after (.cfOperationDone 600) (cfUp.modCf (fun c => { c with
      op := .program 511 254 (0xff : FlashLine)
      sectors := [(511, { lines := [(254, (0x0f : FlashLine))] })] }))).sector 511 = { lines := [(254, (0x0f : FlashLine))] } := by decide +kernel

end Sys2Proof.Tests
end

section
/-! SUPPORT. The scope's statements: what reset leaves (O5), what a write does to a field (O33), and the writes of QE_AQ_CFG
and of the register blocks (O32). -/

namespace Sys2Proof.Machine

/-! ### Reset (R14) -/

/-- The register table lists nothing at reset, so every register reads its Reset column. -/
@[simp] theorem reset_reg (a : Nat) : State.reset.dev.reg a = Regs.reset a := rfl

theorem reset_get (f : Fld) : State.reset.dev.get f = (Regs.reset f.addr >>> f.lsb) % 2 ^ f.width := by
  rw [Dev.get, reset_reg]

theorem reset_queueWf : QueueWf State.reset := fun _ h => nomatch h

/-! ### Writes of a field (R11, R13) -/

theorem bitsOf_lt (v lo n : Nat) : bitsOf v lo n < 2 ^ n := Nat.mod_lt _ (by positivity)

/-- The mask of a whole word reaches every field that lies in the word. -/
theorem bitsOf_wordMask_ne_zero {l w : Nat} (hw : 0 < w) (h : l + w ≤ 32) : bitsOf (2 ^ 32 - 1) l w ≠ 0 := by
  have lowest : (bitsOf (2 ^ 32 - 1) l w).testBit 0 = true := by
    simp only [bitsOf, Nat.testBit_mod_two_pow, Nat.testBit_shiftRight, Nat.testBit_two_pow_sub_one, hw, Nat.add_zero,
      decide_true, Bool.true_and, decide_eq_true_eq]
    omega
  intro zero
  rw [zero, Nat.zero_testBit] at lowest
  exact absurd lowest (by decide)

/-- A write changes at most its own field. -/
theorem Dev.writeField_eq_or_put (d : Dev) (base v mask : Nat) (f : FieldDef) :
    d.writeField base v mask f = d ∨ ∃ n, d.writeField base v mask f = d.put ⟨base, f.lsb, f.width⟩ n := by
  simp only [Dev.writeField]
  by_cases unreached : bitsOf mask f.lsb f.width = 0
  · exact .inl (if_pos unreached)
  rw [if_neg unreached]
  cases f.kind with
  | rw | wo =>
    by_cases legal : f.lo ≤ bitsOf v f.lsb f.width ∧ bitsOf v f.lsb f.width ≤ f.hi
    · exact .inr ⟨_, if_pos legal⟩
    · exact .inl (if_neg legal)
  | w1c =>
    by_cases one : bitsOf v f.lsb f.width = 1
    · exact .inr ⟨_, if_pos one⟩
    · exact .inl (if_neg one)
  | rc => exact .inl rfl

theorem Dev.get_writeField_other (d : Dev) {base : Nat} (v mask : Nat) (f : FieldDef) {g : Fld} (h : g.addr ≠ base) :
    (d.writeField base v mask f).get g = d.get g := by
  rcases d.writeField_eq_or_put base v mask f with e | ⟨n, e⟩
  · rw [e]
  · rw [e, Dev.get_put_other _ _ _ _ h]

section
variable (d : Dev) (base : Nat) {v mask : Nat} {f : FieldDef}

theorem Dev.writeField_rw_legal (reached : bitsOf mask f.lsb f.width ≠ 0) (k : f.kind = .rw)
    (lo : f.lo ≤ bitsOf v f.lsb f.width) (hi : bitsOf v f.lsb f.width ≤ f.hi) :
    d.writeField base v mask f = d.put ⟨base, f.lsb, f.width⟩ (bitsOf v f.lsb f.width) := by
  simp [Dev.writeField, reached, k, lo, hi]

theorem Dev.writeField_rw_reserved (k : f.kind = .rw) (h : bitsOf v f.lsb f.width < f.lo ∨ f.hi < bitsOf v f.lsb f.width) :
    d.writeField base v mask f = d := by
  have reserved : ¬ (f.lo ≤ bitsOf v f.lsb f.width ∧ bitsOf v f.lsb f.width ≤ f.hi) := by omega
  simp only [Dev.writeField, k, reserved, if_false, ite_self]

theorem Dev.writeField_w1c_one (reached : bitsOf mask f.lsb f.width ≠ 0) (k : f.kind = .w1c)
    (h : bitsOf v f.lsb f.width = 1) : d.writeField base v mask f = d.put ⟨base, f.lsb, f.width⟩ 0 := by
  simp [Dev.writeField, reached, k, h]

theorem Dev.writeField_w1c_zero (k : f.kind = .w1c) (h : bitsOf v f.lsb f.width = 0) : d.writeField base v mask f = d := by
  simp [Dev.writeField, k, h]
end

/-! ### Queue 0 (R47, R80, R83) -/

/-- Enabling queue 0 makes it as its registers describe it, with the notices that waited handed to its ring. -/
theorem Dev.enableAq_queue {d : Dev} {p : Nat} (running : (d.port p).state = .holding ∨ (d.port p).state = .running)
    (fits : depthOk (d.adminQueue p).depth (d.adminQueue p).ring = true) :
    (d.enableAq p).queue p 0 = some { d.adminQueue p with
      waiting := (d.port p).notices.map (fun n => { bits := noticePkt n 0, atOnce := true }) } := by
  have enables : (((d.port p).state == .holding || (d.port p).state == .running)
      && depthOk (d.adminQueue p).depth (d.adminQueue p).ring) = true := by
    rcases running with e | e <;> simp [e, fits]
  simp only [Dev.enableAq, enables, if_true, Dev.queue, Dev.modQe_qe, Tbl.find_put_same]

@[simp] theorem Dev.disableAq_queue (d : Dev) (p : Nat) : (d.disableAq p).queue p 0 = none := by
  simp only [Dev.disableAq, Dev.queue, Dev.modQe_qe, Tbl.find_erase_same]

@[simp] theorem Dev.disableAq_inner (d : Dev) (p : Nat) : (d.disableAq p).inner = d.inner := by
  simp only [Dev.disableAq, Dev.modQe_inner, Dev.modPort_inner, Dev.put_inner]

theorem Dev.disableAq_nand (d : Dev) (p : Nat) : (d.disableAq p).nand = d.nand :=
  congrArg (·.2.2.2.2.2.2.2.2.2.2.2.2.2) (d.disableAq_inner p)

theorem Dev.disableAq_pw (d : Dev) (p : Nat) : (d.disableAq p).pw = d.pw := congrArg (·.1) (d.disableAq_inner p)

theorem exec_adminQueueEnable (p : Nat) (v : Dword) (s : State) :
    exec (.adminQueueEnable p v) s = execAdminQueueEnable p v s := rfl

theorem exec_adminQueueDisable (p : Nat) (v : Dword) (s : State) :
    exec (.adminQueueDisable p v) s = execAdminQueueDisable p v s := rfl

theorem adminQueueEnable_gives {s : State} {p : Nat} {v : Dword} (mem : s.dev.takesMemory p = true)
    (set : v.getLsbD 31 = true) (off : s.dev.bit (qeReg p Reg.QE_AQ_CFG.enable) = false) :
    Gives (.adminQueueEnable p v) s ((s.dev.writeAqCfg p v).enableAq p) := by
  rw [Gives, exec_adminQueueEnable, execAdminQueueEnable, act_true]
  simp only [mem, set, off, Bool.not_false, Bool.and_self]

/-- A write that clears enable: ignored while queue 0 has an outstanding command (R83). -/
theorem adminQueueDisable_gives {s : State} {p : Nat} {v : Dword} (mem : s.dev.takesMemory p = true)
    (clear : v.getLsbD 31 = false) (on : s.dev.bit (qeReg p Reg.QE_AQ_CFG.enable) = true) :
    Gives (.adminQueueDisable p v) s (if (s.dev.cmdsOf p 0).isEmpty then s.dev.disableAq p else s.dev) := by
  rw [Gives, exec_adminQueueDisable, execAdminQueueDisable, act_true]
  simp only [mem, clear, on, Bool.not_false, Bool.and_self]

/-! ### Register writes (R15, R42, R344) -/

theorem exec_registerWrite (w : Who) (a : Nat) (wide : Bool) (v : Qword) (s : State) :
    exec (.registerWrite w a wide v) s = execRegisterWrite w a wide v s := rfl

theorem regAligned_word {a : Nat} (h : a % 4 = 0) : regAligned a 4 = true := by simp [regAligned, h]

@[simp] theorem wordsOf_word (a v : Nat) : wordsOf a 4 v = [(a, BitVec.ofNat 32 v)] := rfl

theorem registerWrite_host_gives {s : State} {p a : Nat} {v : Qword} (mem : s.dev.takesMemory p = true)
    (reg : s.dev.region a = .registers) (al : a % 4 = 0) :
    Gives (.registerWrite (.host p) a false v) s (s.dev.hostWord p a (BitVec.ofNat 32 v.toNat)) := by
  have may : (s.dev.mayWrite (.host p) && s.dev.region a == .registers) = true := by simp [Dev.mayWrite, mem, reg]
  rw [Gives, exec_registerWrite, execRegisterWrite, act_true may]
  simp [regAligned_word al]

/-- HP1_ of a device with one port answers a write and takes nothing of it (R42). -/
theorem Dev.coreWord_silent {d : Dev} {a : Nat} (w : Who) (v : Dword) (h : d.silent a = true) :
    d.coreWord w a v true = d.served w 0 := by
  simp [Dev.coreWord, h]

theorem Dev.regWord_silent {d : Dev} {a : Nat} (h : d.silent a = true) : d.regWord a = some 0 := by
  simp [Dev.regWord, h]

/-- Warden may write every word (R344). -/
theorem Dev.coreWrite_warden_word (d : Dev) {a : Nat} (v : Nat) (al : a % 4 = 0) :
    d.coreWrite .warden a 4 v = d.coreWord .warden a (BitVec.ofNat 32 v) true := by
  cases silent : d.silent a with
  | true => simp [Dev.coreWrite, regAligned_word al, silent, Dev.coreWord_silent]
  | false => simp [Dev.coreWrite, regAligned_word al, silent, regRight]

theorem registerWrite_warden_gives {s : State} {a : Nat} {v : Qword} (may : s.dev.wardenWrites = true)
    (reg : s.dev.region a = .registers) (al : a % 4 = 0) :
    Gives (.registerWrite .warden a false v) s (s.dev.coreWord .warden a (BitVec.ofNat 32 v.toNat) true) := by
  have enabled : (s.dev.mayWrite .warden && s.dev.region a == .registers) = true := by simp [Dev.mayWrite, may, reg]
  rw [Gives, exec_registerWrite, execRegisterWrite, act_true enabled]
  simp [Dev.coreWrite_warden_word _ _ al]

/-! ### The statements -/

/-- Settles O32: each clause is the rule above of the command it names. -/
theorem registerWritesComplete : Obligations.RegisterWritesComplete := by
  refine ⟨fun s p v => adminQueueEnable_gives, fun d p running fits => ?_, fun s p v mem clear on => ⟨fun busy => ?_, fun idle => ?_⟩,
    fun s p a v => registerWrite_host_gives, fun s a v => registerWrite_warden_gives, fun d a v one hp1 => ?_⟩
  · exact ⟨_, Dev.enableAq_queue running fits, rfl, rfl, rfl, rfl, rfl, rfl⟩
  · simpa [busy] using adminQueueDisable_gives mem clear on
  · refine ⟨s.dev.disableAq p, ?_, s.dev.disableAq_queue p, s.dev.disableAq_nand p, s.dev.disableAq_pw p⟩
    simpa [idle] using adminQueueDisable_gives mem clear on
  · have silent : d.silent a = true := by simp [Dev.silent, one, hp1]
    exact ⟨Dev.coreWord_silent _ _ silent, Dev.regWord_silent silent⟩

/-- Settles O33: the write of a word reaches every field in it, so each kind of field does what R11 and R13 give it. -/
theorem fieldWrites : Obligations.FieldWrites := by
  intro d base v f width inWord
  have reached : bitsOf (2 ^ 32 - 1) f.lsb f.width ≠ 0 := bitsOf_wordMask_ne_zero width inWord
  have fits : f.lsb + f.width ≤ 64 := by omega
  refine ⟨fun k lo hi => ?_, Dev.writeField_rw_reserved d base, fun k one => ?_, Dev.writeField_w1c_zero d base,
    fun g other => Dev.get_writeField_other d v _ f other⟩
  · rw [Dev.writeField_rw_legal d base reached k lo hi, Dev.get_put_same _ _ _ fits]
    exact Nat.mod_eq_of_lt (bitsOf_lt _ _ _)
  · rw [Dev.writeField_w1c_one d base reached k one, Dev.get_put_same _ _ _ fits, Nat.zero_mod]

/-- Settles O5: reset is the empty structured state, and the four registers' reset words hold the named fields. -/
theorem resetState : Obligations.ResetState := by
  refine ⟨⟨rfl, rfl, rfl, rfl, rfl, rfl, rfl, rfl, rfl, rfl, rfl, ?_, ?_, ?_, ?_⟩, reset_queueWf⟩
  all_goals
    rw [reset_get]
    decide

end Sys2Proof.Machine
end

section
/-! SUPPORT. The ticks of the timebase and of OPT, and the expiry of a timer (O8). -/

namespace Sys2Proof.Machine

theorem exec_timebaseTick (s : State) : exec .timebaseTick s = execTimebaseTick s := rfl

theorem exec_optTick (s : State) : exec .optTick s = execOptTick s := rfl

/-- OPT one millisecond on, a thousand ticks taken off the count below it (R433). -/
def Dev.optRaised (d : Dev) : Dev :=
  (d.put Reg.PW_OPT.opt (d.opt.toNat + 1)).modPw (fun w => { w with optSub := w.optSub - 1000 })

theorem Dev.optRaised_pw (d : Dev) : d.optRaised.pw = { d.pw with optSub := d.pw.optSub - 1000 } := rfl

@[simp] theorem Dev.optRaised_auditDone (d : Dev) : d.optRaised.auditDone = d.auditDone := by
  rw [Dev.auditDone, Dev.auditDone, Dev.optRaised_pw]

theorem Dev.optRaised_optSub (d : Dev) : d.optRaised.pw.optSub = d.pw.optSub - 1000 := by
  rw [Dev.optRaised_pw]

theorem Dev.optRaised_opt (d : Dev) : d.optRaised.get Reg.PW_OPT.opt = (d.opt.toNat + 1) % 2 ^ 48 := by
  rw [Dev.optRaised, Dev.modPw_get]
  exact Dev.get_put_same _ Reg.PW_OPT.opt _ (by decide)

theorem Dev.optRaised_ticks (d : Dev) : d.optRaised.get Reg.PW_TIMEBASE.ticks = d.now := by
  rw [Dev.optRaised, Dev.modPw_get]
  exact Dev.get_put_other _ _ _ _ (by decide)

theorem timebaseTick_gives {s : State} (on : s.dev.ticks = true) (below : s.dev.pw.optSub < 1000) :
    Gives .timebaseTick s (if s.dev.optRuns
      then ((s.dev.put Reg.PW_TIMEBASE.ticks (s.dev.now + 1)).modPw (fun w => { w with optSub := w.optSub + 1 })).dueSuspend
      else s.dev.put Reg.PW_TIMEBASE.ticks (s.dev.now + 1)) := by
  rw [Gives, exec_timebaseTick, execTimebaseTick, act_true (by simp [on, below])]
  rfl

theorem optTick_gives {s : State} (runs : s.dev.optRuns = true) (high : s.dev.pw.perstLow = false) (due : 1000 ≤ s.dev.pw.optSub) :
    Gives .optTick s (if s.dev.auditDone then s.dev.optRaised.driftTick else s.dev.optRaised) := by
  rw [Gives, exec_optTick, execOptTick, act_true (by simp [runs, high, due]), ← Dev.optRaised_auditDone]
  rfl

theorem Dev.expired_iff (d : Dev) (c l : Nat) : d.expired c l = true ↔ c + l + 1 ≤ d.now := by
  simp [Dev.expired]

theorem Dev.optExpired_iff (d : Dev) (c l : Nat) : d.optExpired c l = true ↔ c + l + 1 ≤ 1000 * d.opt.toNat + d.pw.optSub := by
  simp [Dev.optExpired, Dev.optTicks]

/-! ### The statement -/

/-- Settles O8: each clause is the rule of its tick, or what it means that a timer has expired. -/
theorem timeAdvances : Obligations.TimeAdvances := by
  refine ⟨fun s on below still => ?_, fun s on below runs => ?_, fun s runs high due early => ⟨s.dev.optRaised, ?_, ?_⟩,
    fun s runs high due done => ?_, Dev.expired_iff, Dev.optExpired_iff⟩
  · simpa [still] using timebaseTick_gives on below
  · simpa [runs] using timebaseTick_gives on below
  · simpa [early] using optTick_gives runs high due
  · exact ⟨s.dev.optRaised_optSub, s.dev.optRaised_opt, s.dev.optRaised_ticks⟩
  · simpa [done, Dev.optRaised] using optTick_gives runs high due

end Sys2Proof.Machine
end

section
/-! SUPPORT. Write data: buffer reservations, slot writes, data timeouts and quarantines (O19). -/

namespace Sys2Proof.Machine

/-! ### Buffer space (R24) -/

@[simp] theorem Dev.notePressure_qe (d : Dev) : d.notePressure.qe = d.qe := by
  unfold Dev.notePressure
  dsimp only
  split
  · simp
  · split <;> simp

@[simp] theorem Dev.notePressure_used (d : Dev) : d.notePressure.bm.used = d.bm.used := by
  unfold Dev.notePressure
  dsimp only
  split
  · simp
  · split <;> simp

@[simp] theorem Dev.notePressure_nand (d : Dev) : d.notePressure.nand = d.nand := by
  obtain ⟨-, -, -, -, -, -, -, -, -, -, -, -, -, nand⟩ := Dev.inner_eq d.notePressure_inner
  exact nand

@[simp] theorem Dev.takeSpace_used (d : Dev) : d.takeSpace.bm.used = d.bm.used + 1 := by simp [Dev.takeSpace]
@[simp] theorem Dev.takeSpace_qe (d : Dev) : d.takeSpace.qe = d.qe := by simp [Dev.takeSpace]
@[simp] theorem Dev.takeSpace_nand (d : Dev) : d.takeSpace.nand = d.nand := by simp [Dev.takeSpace]

/-! ### Reservations (R66, R279) -/

theorem exec_bufferReservation (acc : Nat) (s : State) : exec (.bufferReservation acc) s = execBufferReservation acc s := rfl

/-- Where the granule is free and space allows it, the next part of a command of the write class is reserved for. -/
theorem bufferReservation_gives {s : State} {acc : Nat} {c : Command} {p : Part} (running : s.dev.runningCmd acc = some c)
    (writes : writeClass c.op = true) (next : c.nextPart = some p) (unheld : s.dev.writeWaits c p.granule = false)
    (space : s.dev.spaceFree = true) : Gives (.bufferReservation acc) s (s.dev.reserve c p) := by
  have waiting : (s.dev.runningCmd acc).filter (fun c => writeClass c.op) = some c := by simp [running, writes]
  rw [Gives, exec_bufferReservation, execBufferReservation, actOn_some waiting]
  simp [next, unheld, space]

/-- A Write that is admitted already, or finds spare left, takes space and a grant (R279). -/
theorem Dev.reserve_write {d : Dev} {c : Command} {p : Part} (op : c.op = 0x01)
    (admitted : c.parts.any (fun q => q.reserved) = true ∨ 0 < d.spareLeft) (free : d.grantFree c = true) :
    d.reserve c p = d.takeSpace.issueGrant c p := by
  have seals : (!c.parts.any (fun q => q.reserved) && decide (d.spareLeft ≤ 0)) = false := by
    rcases admitted with reserved | spare
    · rw [reserved, Bool.not_true, Bool.false_and]
    · rw [decide_eq_false (by omega), Bool.and_false]
  rw [Dev.reserve, if_pos op, seals, if_neg Bool.false_ne_true, if_pos free]

/-- A Deallocate or Write Zeroes takes space for its part and no grant. -/
theorem Dev.reserve_partial (d : Dev) {c : Command} (p : Part) (op : c.op ≠ 0x01) :
    d.reserve c p = d.takeSpace.modCmd c.acc (fun x => { x with parts := x.parts.map (fun q =>
      if q.granule = p.granule then { q with reserved := true } else q) }) := if_neg op

/-! ### Slot writes (R67, R68) -/

theorem exec_slotWrite (p bar off len : Nat) (be poisoned : Bool) (lines : List Line) (s : State) :
    exec (.slotWrite p bar off len be poisoned lines) s = execSlotWrite p bar off len be poisoned lines s := rfl

/-- The slots of BAR2 begin at its base. -/
theorem slotWrite_bar2_gives {s : State} {p : Nat} (off len : Nat) (be poisoned : Bool) (lines : List Line)
    (mem : s.dev.takesMemory p = true) :
    Gives (.slotWrite p 2 off len be poisoned lines) s (s.dev.slotWrite p 2 off len be poisoned lines) := by
  have place : (if s.dev.takesMemory p && (decide (2 = 2) || s.dev.image.bar4) then slotOffset 2 off else none) = some off := by
    simp [mem, slotOffset]
  rw [Gives, exec_slotWrite, execSlotWrite, actOn_some place]

/-- A clean write of whole lines inside a live grant is stored. -/
theorem Dev.slotWrite_live {d : Dev} {p bar off len : Nat} {g : Grant} (lines : List Line) (live : d.grantAt p bar off len = some g)
    (start : off % 64 = 0) (whole : len % 64 = 0) :
    d.slotWrite p bar off len true false lines =
      d.arrive p g.gid ((off - g.slot * 65536) / 4) (lineWords (lines.take (len / 64))) := by
  simp [Dev.slotWrite, live, start, whole]

/-! ### Data timeouts (R77) -/

theorem exec_dataTimeout (p gid : Nat) (s : State) : exec (.dataTimeout p gid) s = execDataTimeout p gid s := rfl

theorem dataTimeout_gives {s : State} {p gid t : Nat} {g : Grant} (alive : s.dev.isDead = false)
    (live : s.dev.qe.grants.find? (fun g => g.port == p && g.gid == gid && !g.complete) = some g) (timed : g.timer = some t)
    (late : s.dev.expired t (msTicks g.limitMs) = true) :
    Gives (.dataTimeout p gid) s (s.dev.failWith g.acc { status := St.dataTimeout } gid).stir := by
  have found : s.dev.qe.grants.find? (fun g => g.port == p && g.gid == gid && !g.complete && !s.dev.isDead) = some g := by
    simpa [alive] using live
  rw [Gives, exec_dataTimeout, execDataTimeout, actOn_some found]
  simp [timed, late]

/-! ### Quarantines (R70, R330) -/

theorem exec_slotQuarantineExpiry (p bar slot : Nat) (s : State) :
    exec (.slotQuarantineExpiry p bar slot) s = execSlotQuarantineExpiry p bar slot s := rfl

theorem exec_tagQuarantineExpiry (p tag : Nat) (s : State) :
    exec (.tagQuarantineExpiry p tag) s = execTagQuarantineExpiry p tag s := rfl

/-- A slot's quarantine that its 100 ms have ended is over. -/
theorem slotQuarantineExpiry_gives (s : State) (p bar slot : Nat) :
    GivesSome (.slotQuarantineExpiry p bar slot) s (fun e =>
      e = { s.dev with qe := { s.dev.qe with slotQ := e.qe.slotQ } } ∧ ∀ q, q ∈ e.qe.slotQ ↔ q ∈ s.dev.qe.slotQ ∧
        ¬(q.port = p ∧ q.bar = bar ∧ q.slot = slot ∧ s.dev.expired q.start (msTicks 100) = true)) := by
  refine ⟨_, by rw [Gives, exec_slotQuarantineExpiry, execSlotQuarantineExpiry, run_eq], rfl, fun q => ?_⟩
  simp only [Dev.modQe_qe, List.mem_filter, Bool.not_eq_true', ← Bool.not_eq_true, Bool.and_eq_true, beq_iff_eq, and_assoc]

/-- A tag's quarantine that its limit has ended is over. -/
theorem tagQuarantineExpiry_gives (s : State) (p tag : Nat) :
    GivesSome (.tagQuarantineExpiry p tag) s (fun e =>
      e = { s.dev with qe := { s.dev.qe with tagQ := e.qe.tagQ } } ∧ ∀ q, q ∈ e.qe.tagQ ↔ q ∈ s.dev.qe.tagQ ∧
        ¬(q.port = p ∧ q.tag = tag ∧ s.dev.expired q.start q.limitUs = true)) := by
  refine ⟨_, by rw [Gives, exec_tagQuarantineExpiry, execTagQuarantineExpiry, run_eq], rfl, fun q => ?_⟩
  simp only [Dev.modQe_qe, List.mem_filter, Bool.not_eq_true', ← Bool.not_eq_true, Bool.and_eq_true, beq_iff_eq, and_assoc]

/-! ### The statement -/

/-- Settles O19: each clause is the rule above of the command it names. -/
theorem writeDataCompletes : Obligations.WriteDataCompletes := by
  refine ⟨fun s acc c p running op next unheld space admitted free => ?_, fun s acc c p running op next unheld space => ?_,
    fun d => ⟨d.takeSpace_used, d.takeSpace_qe, d.takeSpace_nand⟩, fun s p off len lines g mem live start whole => ?_,
    fun s p gid t g => dataTimeout_gives, slotQuarantineExpiry_gives, tagQuarantineExpiry_gives⟩
  · rw [← Dev.reserve_write op admitted free]
    exact bufferReservation_gives running (by simp [writeClass, op]) next unheld space
  · have other : c.op ≠ 0x01 := by omega
    rw [← Dev.reserve_partial _ p other]
    exact bufferReservation_gives running (by simpa [writeClass, other] using op) next unheld space
  · rw [← Dev.slotWrite_live lines live start whole]
    exact slotWrite_bar2_gives off len true false lines mem

end Sys2Proof.Machine
end

section
/-! SUPPORT. The accesses of Warden and the Bolt cores, and their partial writes of on-chip lines (O53). -/

namespace Sys2Proof.Machine

/-! ### INTERNAL_ACCESS (R40, R343, R344) -/

theorem exec_internalAccess (w : Who) (k : AccessKind) (a size : Nat) (data : Line) (m : Option (Bool × Dword)) (s : State) :
    exec (.internalAccess w k a size data m) s = execInternalAccess w k a size data m s := rfl

theorem internalAccess_warden_gives {s : State} {k : AccessKind} {a x size : Nat} (data : Line) (m : Option (Bool × Dword))
    (comes : s.dev.accessComes .warden k a size = true) (mapped : s.dev.wardenMap a = some x) (aligned : a % 4 = 0) :
    Gives (.internalAccess .warden k a size data m) s (s.dev.wardenAccess k x size (data.toNat % 2 ^ (8 * size))) := by
  rw [Gives, exec_internalAccess, execInternalAccess, act_true comes]
  simp only [mapped, aligned, if_true]

theorem internalAccess_bolt_gives {s : State} {n : Nat} {k : AccessKind} {a size : Nat} (data : Line) (m : Option (Bool × Dword))
    (comes : s.dev.accessComes (.bolt n) k a size = true) :
    Gives (.internalAccess (.bolt n) k a size data m) s (s.dev.boltAccess n k a size (data.toNat % 2 ^ (8 * size)) m) := by
  rw [Gives, exec_internalAccess, execInternalAccess, act_true comes]

/-- An access that a core's rights allow, and that meets no access of mailbox port A, is served by the on-chip memory. -/
theorem Dev.boltAccess_onChip {d : Dev} {n : Nat} {k : AccessKind} {a : Nat} (size v : Nat) (may : d.boltMay n k a = true)
    (chip : (d.region a).onChip = true) : d.boltAccess n k a size v none = d.memAccess (.bolt n) k a size v := by
  cases r : d.region a with
  | shared | boltScratch | wardenScratch | mailbox => simp [Dev.boltAccess, r, may]
  | _ => simp [r, Region.onChip] at chip

/-- An access to memory that a core's rights close. -/
theorem Dev.boltAccess_closed {d : Dev} {n : Nat} {k : AccessKind} {a : Nat} (size v : Nat) (m : Option (Bool × Dword))
    (may : d.boltMay n k a = false) (something : d.region a ≠ .nothing) (memory : d.region a ≠ .registers) :
    d.boltAccess n k a size v m = d.closed (.bolt n) a (accessCode k) := by
  cases r : d.region a with
  | nothing => exact absurd r something
  | registers => exact absurd r memory
  | _ => simp [Dev.boltAccess, r, may]

/-! ### Partial writes of on-chip lines (R384, R385, R391) -/

theorem Dev.putChip_chip_same (d : Dev) (a : Nat) (l : MemLine) : (d.putChip a (some l)).chip a = some l :=
  Tbl.find_put_same _ _ _

theorem Dev.putChip_chip_other (d : Dev) {a b : Nat} (l : MemLine) (h : b / 64 ≠ a / 64) : (d.putChip a (some l)).chip b = d.chip b :=
  Tbl.find_put_other _ _ _ _ h

theorem Dev.injectAt_unarmed {d : Dev} {src : Nat} (h : d.armedFor src = false) : d.injectAt src = (false, d) := by
  simp [Dev.injectAt, h]

/-- A good line takes the new bytes and a new check value. -/
theorem Dev.writeChip_good {d : Dev} {r : Region} {a : Nat} {l : MemLine} (size : Nat) (v : Line) (master access : Nat)
    (line : d.chip a = some l) (clean : l.poisoned = false) (good : Dev.crcOk l a = true) (unarmed : d.armedFor r.source = false) :
    d.writeChip r a size v master access = (true, d.writeLine a (lineMerge l.data a size v)) := by
  simp [Dev.writeChip, line, clean, good, Dev.injectAt_unarmed unarmed]

theorem Dev.storeMem_onChip {d : Dev} {a : Nat} (w : Who) (size v code : Nat) (chip : (d.region a).onChip = true) :
    d.storeMem w a size v code = d.writeChip (d.region a) a size (BitVec.ofNat 512 v) (masterId w) code := by
  cases r : d.region a with
  | dram => simp [r, Region.onChip] at chip
  | _ => simp only [Dev.storeMem, r]

/-! ### Store-conditional (R345) -/

/-- Without its reservation a store-conditional only ends whatever reservation the core holds, and answers 1. -/
theorem Dev.storeConditional_unreserved {d : Dev} {n a : Nat} (size v : Nat) (h : (d.core n).lr ≠ some a) :
    d.storeConditional n a size v = (d.reservation n none).reply (.bolt n) (some 1) := if_neg h

/-! ### The statement -/

/-- Settles O53: each clause is the rule above of the access or the store it names. -/
theorem internalAccessCompletes : Obligations.InternalAccessCompletes := by
  refine ⟨fun s k a x size data m => internalAccess_warden_gives data m, fun s n k a size data comes may chip => ?_,
    fun s n k a size data m comes may something memory => ?_, fun d w a size v l chip line clean good unarmed => ?_,
    fun d n a size v unreserved => ?_⟩
  · rw [← Dev.boltAccess_onChip _ _ may chip]
    exact internalAccess_bolt_gives data none comes
  · rw [← Dev.boltAccess_closed size (data.toNat % 2 ^ (8 * size)) m may something memory]
    exact internalAccess_bolt_gives data m comes
  · rw [Dev.storeMem_onChip w size v 4 chip, Dev.writeChip_good size _ _ _ line clean good unarmed]
    exact ⟨rfl, _, d.putChip_chip_same a _, rfl, beq_self_eq_true _, rfl, fun b => d.putChip_chip_other _⟩
  · rw [Dev.storeConditional_unreserved size v unreserved]
    exact ⟨rfl, rfl⟩

end Sys2Proof.Machine
end

section
/-! SUPPORT. Fields packed into a number are read back, so the ring packets hold what they are built of (O7). -/

namespace Sys2Proof.Machine

/-! ### Packed fields (R8, R9) -/

/-- Fields (offset, width, value) in rising order that share no bit and lie below bit w. -/
def FieldsFit (w : Nat) (l : List (Nat × Nat × Nat)) : Prop :=
  l.Pairwise (fun f g => f.1 + f.2.1 ≤ g.1) ∧ ∀ f ∈ l, f.1 + f.2.1 ≤ w

theorem FieldsFit.init {w : Nat} {l : List (Nat × Nat × Nat)} {f : Nat × Nat × Nat} (h : FieldsFit w (l ++ [f])) : FieldsFit f.1 l :=
  ⟨(List.pairwise_append.mp h.1).1, fun g hg => (List.pairwise_append.mp h.1).2.2 g hg f (List.mem_singleton_self f)⟩

theorem pack_concat (l : List (Nat × Nat × Nat)) (f : Nat × Nat × Nat) :
    pack (l ++ [f]) = pack l + f.2.2 % 2 ^ f.2.1 * 2 ^ f.1 := by
  simp [pack, Nat.shiftLeft_eq]

theorem pack_lt {w : Nat} {l : List (Nat × Nat × Nat)} (h : FieldsFit w l) : pack l < 2 ^ w := by
  induction l using List.reverseRecOn generalizing w with
  | nil => exact Nat.two_pow_pos w
  | append_singleton l f ih =>
    have low : pack l < 2 ^ f.1 := ih h.init
    have value : f.2.2 % 2 ^ f.2.1 + 1 ≤ 2 ^ f.2.1 := Nat.mod_lt _ (Nat.two_pow_pos _)
    calc pack (l ++ [f]) = pack l + f.2.2 % 2 ^ f.2.1 * 2 ^ f.1 := pack_concat l f
      _ < 2 ^ f.1 + f.2.2 % 2 ^ f.2.1 * 2 ^ f.1 := Nat.add_lt_add_right low _
      _ = (f.2.2 % 2 ^ f.2.1 + 1) * 2 ^ f.1 := by ring
      _ ≤ 2 ^ f.2.1 * 2 ^ f.1 := Nat.mul_le_mul_right _ value
      _ = 2 ^ (f.1 + f.2.1) := by ring
      _ ≤ 2 ^ w := Nat.pow_le_pow_right (by decide) (h.2 f (by simp))

/-- A number set above bit n leaves what lies below it. -/
theorem bitsOf_add_mul_of_le (x v : Nat) {lo n m : Nat} (h : lo + n ≤ m) : bitsOf (x + v * 2 ^ m) lo n = bitsOf x lo n := by
  obtain ⟨k, rfl⟩ := Nat.exists_eq_add_of_le h
  have e : v * 2 ^ (lo + n + k) = v * 2 ^ k * 2 ^ n * 2 ^ lo := by ring
  simp only [bitsOf, Nat.shiftRight_eq_div_pow]
  rw [e, Nat.add_mul_div_right _ _ (Nat.two_pow_pos lo), Nat.add_mul_mod_self_right]

/-- A number set above what lies below bit m is read from there. -/
theorem bitsOf_add_mul_of_lt {x m : Nat} (v n : Nat) (h : x < 2 ^ m) : bitsOf (x + v * 2 ^ m) m n = v % 2 ^ n := by
  rw [bitsOf, Nat.shiftRight_eq_div_pow, Nat.add_mul_div_right _ _ (Nat.two_pow_pos m), Nat.div_eq_of_lt h, Nat.zero_add]

theorem bitsOf_pack {w : Nat} {l : List (Nat × Nat × Nat)} {f : Nat × Nat × Nat} (h : FieldsFit w l) (mem : f ∈ l) :
    bitsOf (pack l) f.1 f.2.1 = f.2.2 % 2 ^ f.2.1 := by
  induction l using List.reverseRecOn generalizing w with
  | nil => exact nomatch mem
  | append_singleton l g ih =>
    rw [pack_concat]
    rcases List.mem_append.mp mem with earlier | last
    · rw [bitsOf_add_mul_of_le _ _ (h.init.2 f earlier)]
      exact ih h.init earlier
    · obtain rfl := List.mem_singleton.mp last
      rw [bitsOf_add_mul_of_lt _ _ (pack_lt h.init), Nat.mod_mod]

/-- Each field of a packet that is packed of fields. -/
theorem fld_pack {w : Nat} {l : List (Nat × Nat × Nat)} (h : FieldsFit w l) :
    ∀ f ∈ l, fld (BitVec.ofNat w (pack l)) f.1 f.2.1 = f.2.2 % 2 ^ f.2.1 := by
  intro f mem
  rw [fld, BitVec.toNat_ofNat, Nat.mod_eq_of_lt (pack_lt h), bitsOf_pack h mem]

/-! ### The packets (R62, R65, R78, R81) -/

theorem completionPkt_fields (tag queue : Nat) (d : Done) :
    ∀ f ∈ [(0, 8, 1), (8, 1, if d.lba.isSome then 1 else 0), (16, 16, tag), (32, 16, d.status.toNat), (48, 16, queue),
      (64, 64, d.result.toNat), (128, 64, (d.lba.getD 0).toNat), (192, 32, d.result2.toNat)],
    fld (completionPkt tag queue d) f.1 f.2.1 = f.2.2 % 2 ^ f.2.1 := fld_pack (by simp [FieldsFit])

theorem readyPkt_fields (tag gid queue slot offset length position timeout : Nat) :
    ∀ f ∈ [(0, 8, 2), (16, 16, tag), (32, 16, gid), (48, 16, queue), (64, 20, slot), (96, 16, offset), (128, 32, length),
      (160, 32, position), (192, 32, timeout)],
    fld (readyPkt tag gid queue slot offset length position timeout) f.1 f.2.1 = f.2.2 % 2 ^ f.2.1 := fld_pack (by simp [FieldsFit])

theorem noticePkt_fields (n : Notice) (lost : Nat) :
    ∀ f ∈ [(0, 8, 3), (8, 8, min lost 255), (16, 16, n.code), (64, 32, n.p0.toNat), (96, 32, n.p1.toNat), (128, 32, n.p2.toNat),
      (160, 48, n.opt.toNat)],
    fld (noticePkt n lost) f.1 f.2.1 = f.2.2 % 2 ^ f.2.1 := fld_pack (by simp [FieldsFit])

theorem freezePkt_fields (tag : Option Nat) (reason queue dropped held seq : Nat) :
    ∀ f ∈ [(0, 8, 4), (8, 1, if tag.isSome then 1 else 0), (16, 16, tag.getD 0), (32, 16, reason), (48, 16, queue),
      (64, 16, min dropped 65535), (80, 16, held), (96, 32, seq)],
    fld (freezePkt tag reason queue dropped held seq) f.1 f.2.1 = f.2.2 % 2 ^ f.2.1 := fld_pack (by simp [FieldsFit])

/-! ### The statement -/

/-- Settles O7: each field that a packet is packed of is read back whole, since its value is within the field's width. -/
theorem ringPacketLayouts : Obligations.RingPacketLayouts := by
  refine ⟨fun tag queue d tagLt queueLt => ?_,
    fun tag gid queue slot offset length position timeout tagLt gidLt queueLt slotLt offsetLt lengthLt positionLt timeoutLt => ?_,
    fun n lost codeLt => ?_, fun tag reason queue dropped held seq reasonLt queueLt heldLt seqLt => ?_⟩
  · have fields := completionPkt_fields tag queue d
    simp only [List.forall_mem_cons] at fields
    obtain ⟨type, lbaValid, tagAt, status, queueAt, result, lba, result2, -⟩ := fields
    refine ⟨type, tagAt.trans (Nat.mod_eq_of_lt tagLt), status.trans (BitVec.toNat_mod_cancel _),
      queueAt.trans (Nat.mod_eq_of_lt queueLt), result.trans (BitVec.toNat_mod_cancel _),
      result2.trans (BitVec.toNat_mod_cancel _), ?_, fun l given => ?_⟩
    · rw [lbaValid]
      cases d.lba <;> simp
    · rw [lba, given]
      exact BitVec.toNat_mod_cancel l
  · have fields := readyPkt_fields tag gid queue slot offset length position timeout
    simp only [List.forall_mem_cons] at fields
    obtain ⟨type, tagAt, gidAt, queueAt, slotAt, offsetAt, lengthAt, positionAt, timeoutAt, -⟩ := fields
    exact ⟨type, tagAt.trans (Nat.mod_eq_of_lt tagLt), gidAt.trans (Nat.mod_eq_of_lt gidLt), queueAt.trans (Nat.mod_eq_of_lt queueLt),
      slotAt.trans (Nat.mod_eq_of_lt slotLt), offsetAt.trans (Nat.mod_eq_of_lt offsetLt), lengthAt.trans (Nat.mod_eq_of_lt lengthLt),
      positionAt.trans (Nat.mod_eq_of_lt positionLt), timeoutAt.trans (Nat.mod_eq_of_lt timeoutLt)⟩
  · have fields := noticePkt_fields n lost
    simp only [List.forall_mem_cons] at fields
    obtain ⟨type, lostAt, code, p0, p1, p2, opt, -⟩ := fields
    exact ⟨type, lostAt.trans (Nat.mod_eq_of_lt (by omega)), code.trans (Nat.mod_eq_of_lt codeLt), p0.trans (BitVec.toNat_mod_cancel _),
      p1.trans (BitVec.toNat_mod_cancel _), p2.trans (BitVec.toNat_mod_cancel _), opt.trans (BitVec.toNat_mod_cancel _)⟩
  · have fields := freezePkt_fields tag reason queue dropped held seq
    simp only [List.forall_mem_cons] at fields
    obtain ⟨type, -, -, reasonAt, queueAt, droppedAt, heldAt, seqAt, -⟩ := fields
    exact ⟨type, reasonAt.trans (Nat.mod_eq_of_lt reasonLt), queueAt.trans (Nat.mod_eq_of_lt queueLt),
      droppedAt.trans (Nat.mod_eq_of_lt (by omega)), heldAt.trans (Nat.mod_eq_of_lt heldLt), seqAt.trans (Nat.mod_eq_of_lt seqLt)⟩

end Sys2Proof.Machine
end

section
/-! SUPPORT. What signals, records and notices leave of a port and of QE. -/

namespace Sys2Proof.Machine

section
variable (d : Dev)

/-! ### Ports -/

/-- A port but for its pending vectors and its notices, all that signals, records and notices change of it. -/
def Port.fixed (t : Port) : Port := { t with msixPending := 0, notices := [], lost := 0 }

def Dev.portFixed (p : Nat) : Port := (d.port p).fixed

theorem Dev.portFixed_eq {d e : Dev} {p : Nat} (h : e.portFixed p = d.portFixed p) :
    (e.port p).state = (d.port p).state ∧ (e.port p).stray = (d.port p).stray ∧ (e.port p).errSeq = (d.port p).errSeq ∧
    (e.port p).errLog = (d.port p).errLog :=
  ⟨congrArg (·.state) h, congrArg (·.stray) h, congrArg (·.errSeq) h, congrArg (·.errLog) h⟩

theorem Dev.portFixed_of_ports {d e : Dev} (zero : e.port0 = d.port0) (one : e.port1 = d.port1) (p : Nat) :
    e.portFixed p = d.portFixed p := by
  rw [Dev.portFixed, Dev.portFixed, Dev.port, Dev.port, zero, one]

theorem Dev.modPort_portFixed (r : Nat) {f : Port → Port} (h : ∀ t, (f t).fixed = t.fixed) (p : Nat) :
    (d.modPort r f).portFixed p = d.portFixed p := by
  by_cases r0 : r = 0 <;> by_cases p0 : p = 0 <;> simp [Dev.portFixed, Dev.modPort, Dev.port, r0, p0, h]

@[simp] theorem Dev.signal_portFixed (r v p : Nat) : (d.signal r v).portFixed p = d.portFixed p := by
  unfold Dev.signal
  dsimp only
  split
  · rfl
  · split
    · refine d.modPort_portFixed r (fun _ => ?_) p
      rfl
    · rfl

@[simp] theorem Dev.raise_portFixed (n p : Nat) : (d.raise n).portFixed p = d.portFixed p := by
  unfold Dev.raise Dev.deliver
  dsimp only
  split
  · exact Dev.signal_portFixed _ _ _ _
  · rfl

@[simp] theorem Dev.letIn_portFixed (code src cls : Nat) (r : Bool) (p0 p1 p2 p : Nat) :
    (d.letIn code src cls r p0 p1 p2).portFixed p = d.portFixed p := by
  unfold Dev.letIn
  split
  · exact Dev.portFixed_of_ports (by simp) (by simp) p
  · split
    · exact Dev.portFixed_of_ports (by simp) (by simp) p
    · dsimp only
      split
      · rw [Dev.raise_portFixed]
        exact Dev.portFixed_of_ports (by simp) (by simp) p
      · exact Dev.portFixed_of_ports (by simp) (by simp) p

@[simp] theorem Dev.noticeOn_portFixed (r code p0 p1 p2 p : Nat) : (d.noticeOn r code p0 p1 p2).portFixed p = d.portFixed p := by
  unfold Dev.noticeOn
  split
  · rfl
  · split
    · rw [Dev.raise_portFixed, Dev.letIn_portFixed]
      refine d.modPort_portFixed r (fun _ => ?_) p
      rfl
    · split
      · rfl
      · refine d.modPort_portFixed r (fun _ => ?_) p
        rfl

@[simp] theorem Dev.record_portFixed (code src cls : Nat) (r : Bool) (p0 p1 p2 p : Nat) :
    (d.record code src cls r p0 p1 p2).portFixed p = d.portFixed p := by
  unfold Dev.record
  dsimp only
  split
  · rw [Dev.notice, Dev.each_keeps (fun e => e.portFixed p) _ (fun e r => e.noticeOn_portFixed r _ _ _ _ p)]
    rw [Dev.raise_portFixed, ← d.letIn_portFixed code src cls r p0 p1 p2 p]
    exact Dev.portFixed_of_ports rfl rfl p
  · exact d.letIn_portFixed code src cls r p0 p1 p2 p

/-! ### Queues: a notice goes to queue 0 -/

@[simp] theorem Dev.letIn_qe (code src cls : Nat) (r : Bool) (p0 p1 p2 : Nat) : (d.letIn code src cls r p0 p1 p2).qe = d.qe := by
  unfold Dev.letIn
  split
  · simp
  · split
    · simp
    · dsimp only
      split
      · rw [Dev.raise_qe]
        rfl
      · rfl

theorem Dev.queue_eq {d e : Dev} (h : e.qe = d.qe) (p q : Nat) : e.queue p q = d.queue p q := by
  rw [Dev.queue, Dev.queue, h]

@[simp] theorem Dev.modQueue_queue_same (p q : Nat) (f : Queue → Queue) : (d.modQueue p q f).queue p q = (d.queue p q).map f :=
  Tbl.find_modify_same _ _ _

theorem Dev.modQueue_queue_other {p q r t : Nat} (f : Queue → Queue) (h : qkey p q ≠ qkey r t) :
    (d.modQueue r t f).queue p q = d.queue p q := Tbl.find_modify_other _ _ _ _ h

variable {q : Nat} (io : 1 ≤ q) (lt : q < 1024)
include io lt

theorem Dev.noticeOn_queue (r code p0 p1 p2 p : Nat) : (d.noticeOn r code p0 p1 p2).queue p q = d.queue p q := by
  unfold Dev.noticeOn
  split
  · rfl
  · split
    · exact Dev.queue_eq (by simp) p q
    · split
      · exact d.modQueue_queue_other _ (by simp only [qkey]; omega)
      · exact Dev.queue_eq (by simp) p q

theorem Dev.record_queue (code src cls : Nat) (r : Bool) (p0 p1 p2 p : Nat) :
    (d.record code src cls r p0 p1 p2).queue p q = d.queue p q := by
  unfold Dev.record
  dsimp only
  split
  · rw [Dev.notice, Dev.each_keeps (fun e => e.queue p q) _ (fun e r => e.noticeOn_queue io lt r _ _ _ _ p)]
    refine Dev.queue_eq ?_ p q
    rw [Dev.raise_qe]
    exact d.letIn_qe code src cls r p0 p1 p2
  · exact Dev.queue_eq (d.letIn_qe code src cls r p0 p1 p2) p q

end

end Sys2Proof.Machine
end

section
/-! SUPPORT. Packets at the ingress windows: stray ones (O10), accepted ones (O9) and Ring Releases (O11). -/

namespace Sys2Proof.Machine

theorem exec_ingressPacket (p q off len : Nat) (be poisoned : Bool) (pkt : Packet) (s : State) :
    exec (.ingressPacket p q off len be poisoned pkt) s = execIngressPacket p q off len be poisoned pkt s := rfl

theorem exec_ringRelease (p q : Nat) (pkt : Packet) (s : State) : exec (.ringRelease p q pkt) s = execRingRelease p q pkt s := rfl

theorem ingressPacket_gives {s : State} {p q : Nat} (off len : Nat) (be poisoned : Bool) (pkt : Packet)
    (mem : s.dev.takesMemory p = true) (lt : q < 512) :
    Gives (.ingressPacket p q off len be poisoned pkt) s (s.dev.ingress p q off len be poisoned pkt) := by
  rw [Gives, exec_ingressPacket, execIngressPacket, act_true (by simp [mem, lt])]

/-- A Ring Release comes as a clean TLP of 64 bytes at the start of the window. -/
theorem ringRelease_gives {s : State} {p q : Nat} {pkt : Packet} (mem : s.dev.takesMemory p = true) (lt : q < 512)
    (op : Pkt.opcode pkt = 0) : Gives (.ringRelease p q pkt) s (s.dev.ingress p q 0 64 true false pkt) := by
  rw [Gives, exec_ringRelease, execRingRelease, act_true (by simp [mem, lt, op])]

/-! ### Stray packets (R52) -/

@[simp] theorem Dev.aerError_qe (d : Dev) (p : Nat) (e : AerError) : (d.aerError p e).qe = d.qe := by simp [Dev.aerError]

theorem Dev.aerError_port (d : Dev) (p : Nat) (e : AerError) :
    ((d.aerError p e).port p).state = (d.port p).state ∧ ((d.aerError p e).port p).stray = (d.port p).stray := by
  obtain ⟨state, stray, -⟩ := Dev.portFixed_eq ((d.modPort p (fun t => { t with aer := t.aer ++ [e] })).raise_portFixed (Irq.hp p 3) p)
  rw [Dev.modPort_port] at state stray
  exact ⟨state, stray⟩

@[simp] theorem Dev.stray_qe (d : Dev) (p : Nat) : (d.stray p).qe = d.qe := by simp [Dev.stray]

theorem Dev.stray_stray (d : Dev) (p : Nat) : ((d.stray p).port p).stray = min ((d.port p).stray + 1) 0xffff := by
  obtain ⟨-, stray, -⟩ :=
    Dev.portFixed_eq ((d.modPort p (fun t => { t with stray := min (t.stray + 1) 0xffff })).raise_portFixed (Irq.qe p 3) p)
  rwa [Dev.modPort_port] at stray

/-- A port with no such queue, one that boots and one in Deadbolt count a packet as stray, a poisoned one too. -/
theorem Dev.ingress_stray {d : Dev} {p q : Nat} (off len : Nat) (be poisoned : Bool) (pkt : Packet)
    (h : d.queue p q = none ∨ (d.port p).state = .booting ∨ (d.port p).state = .deadbolt) :
    d.ingress p q off len be poisoned pkt = (if poisoned then d.aerError p .poisonedTlp else d).stray p := by
  have kept : (if poisoned then d.aerError p .poisonedTlp else d).queue p q = d.queue p q ∧
      ((if poisoned then d.aerError p .poisonedTlp else d).port p).state = (d.port p).state := by
    cases poisoned with
    | false => exact ⟨rfl, rfl⟩
    | true => exact ⟨Dev.queue_eq (d.aerError_qe p _) p q, (d.aerError_port p _).1⟩
  obtain ⟨queue, state⟩ := kept
  rw [Dev.ingress]
  simp only [queue, state]
  cases e : d.queue p q with
  | none => rfl
  | some u =>
    have closed : (d.port p).state = .booting ∨ (d.port p).state = .deadbolt := h.resolve_left (by simp [e])
    rcases closed with booting | deadbolt
    · simp [booting]
    · simp [deadbolt]

/-- Settles O10: the packet is counted, and neither the count nor what signals it is part of QE. -/
theorem strayPacketsAreCounted : Obligations.StrayPacketsAreCounted := by
  intro s p q off len be poisoned pkt mem lt closed
  refine ⟨_, ingressPacket_gives off len be poisoned pkt mem lt, ?_⟩
  dsimp only
  rw [Dev.ingress_stray off len be poisoned pkt closed, Dev.stray_stray, Dev.stray_qe]
  cases poisoned with
  | false => exact ⟨rfl, rfl⟩
  | true => exact ⟨by rw [if_pos rfl, (s.dev.aerError_port p _).2], s.dev.aerError_qe p _⟩

/-! ### Packets that are taken (R50, R57, R60, R84) -/

section
variable {d : Dev} {p q : Nat} {pkt : Packet} {u : Queue} (found : d.queue p q = some u) (up : (d.port p).state ≠ .booting)
  (alive : (d.port p).state ≠ .deadbolt) (open_ : d.qe.haspDrop = false)
include found up alive open_

/-- A clean Ring Release offers its count. -/
theorem Dev.ingress_release (op : Pkt.opcode pkt = 0) (check : u.pcheck = true → Pkt.checkOk pkt = true)
    (clean : releaseClean u.pcheck pkt = true) :
    d.ingress p q 0 64 true false pkt = d.modQueue p q (fun v => v.release (Pkt.release pkt)) := by
  have proper : packetFault 0 64 true false u.pcheck pkt = none := by
    cases e : u.pcheck with
    | false => simp [packetFault]
    | true => simp [packetFault, check e]
  simp [Dev.ingress, Dev.ringRelease, found, up, alive, open_, op, proper, clean]

/-- A command packet that no check stops offers its count and is accepted. -/
theorem Dev.ingress_accept {off len : Nat} {be poisoned : Bool} (op : Pkt.opcode pkt ≠ 0) (kept : u.state ≠ .deleting)
    (running : d.qe.dead = false) (proper : packetFault off len be poisoned u.pcheck pkt = none)
    (room : (d.cmdsOf p q).length < u.depth) (fresh : ∀ c ∈ d.cmdsOf p q, Pkt.tag c.pkt ≠ Pkt.tag pkt)
    (unarmed : d.armedFor Src.qeTags = false) :
    d.ingress p q off len be poisoned pkt = (d.modQueue p q (fun v => v.release (Pkt.release pkt))).accept p q pkt none := by
  have clean : poisoned = false := by
    cases poisoned with
    | false => rfl
    | true => simp [packetFault] at proper
  have taken : d.commandPacket p q u pkt = (d.modQueue p q (fun v => v.release (Pkt.release pkt))).accept p q pkt none := by
    have unique : (d.cmdsOf p q).any (fun c => decide (Pkt.tag c.pkt = Pkt.tag pkt)) = false := by simpa using fresh
    rw [Dev.commandPacket, if_neg (by omega), if_neg (by simp [unarmed]), if_neg (by simp [unique])]
  rw [← taken]
  subst clean
  simp [Dev.ingress, found, up, alive, open_, proper, op, kept, running]

end

theorem Queue.release_taken {u : Queue} {v : Nat}
    (h : (v + 65536 - u.released % 65536) % 65536 ≤ (u.posted + 65536 - u.released % 65536) % 65536) : (u.release v).released = v := by
  rw [Queue.release, if_pos h]

theorem Queue.release_ignored {u : Queue} {v : Nat}
    (h : ¬(v + 65536 - u.released % 65536) % 65536 ≤ (u.posted + 65536 - u.released % 65536) % 65536) : u.release v = u := if_neg h

/-- Settles O9: the packet passes every check, and acceptance appends one held command. -/
theorem ingressPacketIsAccepted : Obligations.IngressPacketIsAccepted := by
  intro s p q off len be poisoned pkt u mem lt found kept op up alive open_ running proper room fresh unarmed
  refine ⟨_, ingressPacket_gives off len be poisoned pkt mem lt, ?_⟩
  rw [Dev.ingress_accept found up alive open_ op kept running proper room fresh unarmed]
  exact ⟨rfl, rfl, rfl, rfl, rfl, rfl, rfl, _, rfl, rfl, rfl, rfl, rfl, rfl, rfl, rfl, rfl⟩

/-- Settles O11: a clean Ring Release offers its count, and the queue takes it where it lies between its last and its posted one. -/
theorem ringReleaseCompletes : Obligations.RingReleaseCompletes := by
  refine ⟨fun s p q pkt u mem lt op found up alive open_ check clean => ?_,
    fun u v _ => ⟨Queue.release_taken, Queue.release_ignored⟩⟩
  rw [← Dev.ingress_release found up alive open_ op check clean]
  exact ringRelease_gives mem lt op

end Sys2Proof.Machine
end

section
/-! SUPPORT. The failure that freezes a queue (O18). -/

namespace Sys2Proof.Machine

@[simp] theorem Dev.zeroDeficits_queue (d : Dev) (p q : Nat) : d.zeroDeficits.queue p q = d.queue p q := rfl

/-! ### What a failure logs (R81, R111 to R113) -/

/-- The Error Log entry of a failure on queue q of port p, whose queue is u. -/
def Dev.freezeEntry (d : Dev) (p q : Nat) (u : Queue) (c : Option Command) (status : BitVec 16) (lba : Option Qword) (detail : Nat) : ErrEntry :=
  { errorSeq := (d.port p).errSeq, queue := q, port := p, tagValid := c.isSome, lba := lba,
    opcode := BitVec.ofNat 8 (match c with | some c => Pkt.opcode c.pkt | none => 0),
    tag := BitVec.ofNat 16 (match c with | some c => Pkt.tag c.pkt | none => 0),
    status := status, source := errSource p status, held := min (d.fifo p q).length 65535,
    slba := BitVec.ofNat 64 (match c with | some c => Pkt.slba c.pkt | none => 0),
    nlb := BitVec.ofNat 32 (match c with | some c => Pkt.nlb c.pkt | none => 0),
    detail := BitVec.ofNat 32 detail, opt := d.opt, dropped := min u.sinceFreeze 65535,
    acceptance := (match c with | some c => c.acc | none => 0) }

/-- The Error Log keeps its newest 256 entries. -/
def Port.logged (t : Port) (e : ErrEntry) : Port :=
  { t with errSeq := (t.errSeq + 1) % 2 ^ 32, errLog := (t.errLog ++ [e]).drop (t.errLog.length + 1 - 256) }

/-- The queue of a failure of error sequence seq; queue 0 and one being deleted do not freeze. -/
def Queue.failed (u : Queue) (q seq : Nat) : Queue :=
  { u with newestErr := some seq, sinceFreeze := 0, state := if q = 0 || u.state = .deleting then u.state else .frozen }

/-- The failure in the Error Log, in its queue and, as a Freeze packet, in its ring. -/
def Dev.logFailure (d : Dev) (p q : Nat) (u : Queue) (c : Option Command) (status : BitVec 16) (lba : Option Qword) (detail : Nat) : Dev :=
  ((d.modPort p (fun t => t.logged (d.freezeEntry p q u c status lba detail))).modQueue p q (fun v => v.failed q (d.port p).errSeq)).toRing p q
    { bits := freezePkt (c.map (fun c => Pkt.tag c.pkt)) status.toNat q (min u.sinceFreeze 65535) (d.fifo p q).length (d.port p).errSeq
      atOnce := true }

section
variable {d : Dev} {p : Nat} {u : Queue} (c : Option Command) (status : BitVec 16) (lba : Option Qword) (detail : Nat)

theorem Dev.freezeWith_queue0 (found : d.queue p 0 = some u) :
    d.freezeWith p 0 c status lba detail = d.logFailure p 0 u c status lba detail := by
  unfold Dev.freezeWith
  simp only [found]
  rfl

/-- An I/O queue's failure is reported too. -/
theorem Dev.freezeWith_io {q : Nat} (io : 1 ≤ q) (found : d.queue p q = some u) :
    d.freezeWith p q c status lba detail = (((d.logFailure p q u c status lba detail).record 0x0401 Src.qe 2 false (p * 65536 + q)
      status.toNat (d.port p).errSeq).raise (Irq.qe p 0)).zeroDeficits := by
  have other : q ≠ 0 := by omega
  unfold Dev.freezeWith
  simp only [found]
  rw [if_neg other]
  rfl

theorem Dev.logFailure_port (q : Nat) (u : Queue) :
    (d.logFailure p q u c status lba detail).port p = (d.port p).logged (d.freezeEntry p q u c status lba detail) :=
  d.modPort_port p _

theorem Dev.logFailure_queue {q : Nat} (found : d.queue p q = some u) :
    ∃ v, (d.logFailure p q u c status lba detail).queue p q = some v ∧ v.state = (u.failed q (d.port p).errSeq).state ∧
      v.newestErr = some (d.port p).errSeq ∧ v.sinceFreeze = 0 := by
  have unported : (d.modPort p (fun t => t.logged (d.freezeEntry p q u c status lba detail))).queue p q = some u :=
    (Dev.queue_eq (by simp) p q).trans found
  rw [Dev.logFailure, Dev.toRing, Dev.modQueue_queue_same, Dev.modQueue_queue_same, unported]
  exact ⟨_, rfl, rfl, rfl, rfl⟩
end

theorem Port.logged_last (t : Port) (e : ErrEntry) : (t.logged e).errLog.getLast? = some e := by
  have kept : t.errLog.length + 1 - 256 ≤ t.errLog.length := by omega
  rw [Port.logged, List.drop_append_of_le_length kept, List.getLast?_concat]

theorem Port.logged_length_le {t : Port} (e : ErrEntry) : (t.logged e).errLog.length ≤ 256 := by
  simp only [Port.logged, List.length_drop, List.length_append, List.length_singleton]
  omega

/-! ### The statement -/

/-- Settles O18: the failure is logged in the port and the queue, and what reports it afterwards touches neither. -/
theorem freezeOnFailure : Obligations.FreezeOnFailure := by
  refine ⟨fun d p q u c status lba detail _ io lt found active => ?_, fun d p u c status lba detail _ found => ?_⟩
  · rw [Dev.freezeWith_io (some c) status lba detail io found]
    generalize reported : ((d.logFailure p q u (some c) status lba detail).record 0x0401 Src.qe 2 false (p * 65536 + q)
      status.toNat (d.port p).errSeq).raise (Irq.qe p 0) = e
    have queue : e.zeroDeficits.queue p q = (d.logFailure p q u (some c) status lba detail).queue p q := by
      rw [Dev.zeroDeficits_queue, ← reported, Dev.queue_eq (Dev.raise_qe _ _), Dev.record_queue _ io (by omega)]
    have port : e.portFixed p = (d.logFailure p q u (some c) status lba detail).portFixed p := by
      rw [← reported, Dev.raise_portFixed, Dev.record_portFixed]
    obtain ⟨-, -, errSeq, errLog⟩ := Dev.portFixed_eq port
    rw [Dev.logFailure_port] at errSeq errLog
    refine ⟨?_, errSeq, ⟨_, (congrArg _ errLog).trans (Port.logged_last _ _), rfl, rfl, rfl, rfl, ?_, rfl⟩,
      fun _ => (congrArg _ errLog).trans_le (Port.logged_length_le _)⟩
    · obtain ⟨v, at_, state, seq, since⟩ := Dev.logFailure_queue (some c) status lba detail found
      refine ⟨v, queue.trans at_, state.trans ?_, seq, since⟩
      have other : q ≠ 0 := by omega
      simp [Queue.failed, other, active]
    · exact (BitVec.toNat_ofNat _ _).trans (Nat.mod_eq_of_lt (bitsOf_lt _ _ _))
  · rw [Dev.freezeWith_queue0 c status lba detail found]
    obtain ⟨v, at_, state, -, -⟩ := Dev.logFailure_queue c status lba detail found
    exact ⟨v, at_, state⟩

end Sys2Proof.Machine
end

section
/-! SUPPORT. Slot writes that are dropped (O20), and read requests with their completions and timeouts (O21). -/

namespace Sys2Proof.Machine

/-! ### Dropped slot writes (R68) -/

theorem Dev.slotWrite_dropped {d : Dev} {p bar off len : Nat} {be : Bool} (lines : List Line)
    (h : d.grantAt p bar off len = none ∨ off % 64 ≠ 0 ∨ len % 64 ≠ 0 ∨ be = false) :
    d.slotWrite p bar off len be false lines = d.addSat (hpReg p Reg.HP_BAR_DROPS.slot) 1 := by
  cases live : d.grantAt p bar off len with
  | none => simp [Dev.slotWrite, live]
  | some g =>
    rcases h with outside | start | whole | enables
    · rw [live] at outside
      exact nomatch outside
    · simp [Dev.slotWrite, live, start]
    · simp [Dev.slotWrite, live, whole]
    · simp [Dev.slotWrite, live, enables]

/-- Settles O20: whatever keeps the write from its grant, it is counted and nothing is stored. -/
theorem droppedSlotWritesAreCounted : Obligations.DroppedSlotWritesAreCounted := by
  intro s p off len be lines mem dropped
  rw [← Dev.slotWrite_dropped lines dropped]
  exact slotWrite_bar2_gives off len be false lines mem

/-! ### Read requests (R71, R72, R326) -/

theorem exec_pullReadRequest (acc : Nat) (s : State) : exec (.pullReadRequest acc) s = execPullReadRequest acc s := rfl

/-- A command at work whose port may issue requests. -/
theorem issuingCmd {s : State} {acc : Nat} {c : Command} (running : s.dev.runningCmd acc = some c) (issues : s.dev.mayIssue c.port = true) :
    (s.dev.runningCmd acc).filter (fun c => s.dev.mayIssue c.port) = some c := by
  simp [running, issues]

theorem pullReadRequest_again_gives {s : State} {acc : Nat} {c : Command} {r : Request} (running : s.dev.runningCmd acc = some c)
    (issues : s.dev.mayIssue c.port = true) (again : s.dev.reissueOne acc = some r) (tag : (s.dev.freeTags r.port).isEmpty = false) :
    Gives (.pullReadRequest acc) s ((s.dev.modQe (fun e => { e with reissue := e.reissue.erase r })).issueRequest r) := by
  rw [Gives, exec_pullReadRequest, execPullReadRequest, actOn_some (issuingCmd running issues)]
  simp [again, tag]

theorem pullReadRequest_next_gives {s : State} {acc : Nat} {c : Command} {f : Fetch} (running : s.dev.runningCmd acc = some c)
    (issues : s.dev.mayIssue c.port = true) (first : s.dev.reissueOne acc = none) (fetch : c.fetch = some f) :
    Gives (.pullReadRequest acc) s (s.dev.pull c f) := by
  rw [Gives, exec_pullReadRequest, execPullReadRequest, actOn_some (issuingCmd running issues)]
  simp [first, fetch]

theorem requestLen_le_left (addr left mrrs : Nat) : requestLen addr left mrrs ≤ left := min_le_left _ _

theorem requestLen_le_mrrs (addr left mrrs : Nat) : requestLen addr left mrrs ≤ mrrs := (min_le_right _ _).trans (min_le_left _ _)

/-- A request stays within its 4 KiB. -/
theorem requestLen_within_page {addr left mrrs : Nat} (h : 0 < requestLen addr left mrrs) :
    addr / 4096 = (addr + requestLen addr left mrrs - 1) / 4096 := by
  have page : requestLen addr left mrrs ≤ 4096 - addr % 4096 := (min_le_right _ _).trans (min_le_right _ _)
  omega

/-! ### Completions and timeouts (R329 to R331, R335) -/

theorem exec_completionTlp (p tag : Nat) (st : CplStatus) (poisoned malformed : Bool) (data : List Dword) (s : State) :
    exec (.completionTlp p tag st poisoned malformed data) s = execCompletionTlp p tag st poisoned malformed data s := rfl

theorem exec_completionTimeout (p tag : Nat) (s : State) : exec (.completionTimeout p tag) s = execCompletionTimeout p tag s := rfl

section
variable {s : State} {p tag : Nat} (st : CplStatus) (poisoned malformed : Bool) (data : List Dword)

theorem completionTlp_matched_gives {r : Request} (asked : s.dev.qe.reqs.find? (fun r => r.port == p && r.tag == tag) = some r) :
    Gives (.completionTlp p tag st poisoned malformed data) s (s.dev.matched r st poisoned malformed data) := by
  rw [Gives, exec_completionTlp, execCompletionTlp, run_eq, asked]

theorem completionTlp_quarantined_gives {q : TagQuarantine}
    (unasked : s.dev.qe.reqs.find? (fun r => r.port == p && r.tag == tag) = none)
    (held : s.dev.qe.tagQ.find? (fun q => q.port == p && q.tag == tag) = some q) :
    Gives (.completionTlp p tag st poisoned malformed data) s (if q.flr
      then (s.dev.addSat (hpReg p Reg.HP_CPL_EVENTS.unexpected) 1).event 0x0302 (Src.port p) p tag 0
      else (s.dev.addSat (hpReg p Reg.HP_CPL_EVENTS.late) 1).event 0x0301 (Src.port p) p tag 0) := by
  rw [Gives, exec_completionTlp, execCompletionTlp, run_eq]
  simp only [unasked, held]

theorem completionTlp_unexpected_gives (unasked : s.dev.qe.reqs.find? (fun r => r.port == p && r.tag == tag) = none)
    (free : s.dev.qe.tagQ.find? (fun q => q.port == p && q.tag == tag) = none) :
    Gives (.completionTlp p tag st poisoned malformed data) s (s.dev.aerError p .unexpectedCompletion) := by
  rw [Gives, exec_completionTlp, execCompletionTlp, run_eq]
  simp only [unasked, free]
end

theorem completionTimeout_gives {s : State} {p tag : Nat} {r : Request}
    (asked : s.dev.qe.reqs.find? (fun r => r.port == p && r.tag == tag) = some r) (enabled : (s.dev.port p).ctoDisable = false)
    (late : s.dev.expired r.start (ctoMicros (s.dev.port p).ctoValue) = true) :
    Gives (.completionTimeout p tag) s
      (((s.dev.addSat (hpReg p Reg.HP_CTO.expiries) 1).aerError p .completionTimeout).requestTimeout r) := by
  rw [Gives, exec_completionTimeout, execCompletionTimeout, actOn_some asked]
  simp [enabled, late]

/-! ### The statement -/

/-- Settles O21: each clause is the rule above of its command, or a bound on a request's length. -/
theorem readRequestsComplete : Obligations.ReadRequestsComplete :=
  ⟨fun _ _ _ _ => pullReadRequest_again_gives, fun _ _ _ _ => pullReadRequest_next_gives,
    fun addr left mrrs => ⟨requestLen_le_left addr left mrrs, requestLen_le_mrrs addr left mrrs, requestLen_within_page⟩,
    fun _ _ _ st poisoned malformed data _ => completionTlp_matched_gives st poisoned malformed data,
    fun _ _ _ st poisoned malformed data _ => completionTlp_quarantined_gives st poisoned malformed data,
    fun _ _ _ st poisoned malformed data => completionTlp_unexpected_gives st poisoned malformed data,
    fun _ _ _ _ => completionTimeout_gives⟩

end Sys2Proof.Machine
end

section
/-! SUPPORT. Host reads of the windows that are written only (O35). -/

namespace Sys2Proof.Machine

theorem exec_barRead (p bar off len : Nat) (b : Bool) (s : State) : exec (.barRead p bar off len b) s = execBarRead p bar off len b s := rfl

/-- A read of a legal length at a function that takes memory requests, or whose windows are off. -/
theorem barRead_gives {s : State} {p len : Nat} (bar off : Nat) (b : Bool) (reached : (s.dev.takesMemory p || s.dev.memoryOff p) = true)
    (pos : 0 < len) (le : len ≤ 4096) :
    Gives (.barRead p bar off len b) s (if s.dev.memoryOff p
      then (s.dev.aerError p .unsupportedRequest).emit (.readReply p .unsupportedRequest []) else s.dev.readBar p bar off len b) := by
  rw [Gives, exec_barRead, execBarRead, act_true (by rw [reached]; simp [pos, le])]

theorem Dev.readBytes_zero (d : Dev) (p n : Nat) :
    d.readBytes p n (fun _ => 0) = d.emit (.readReply p .successful (List.replicate n 0)) := by
  simp [Dev.readBytes]

/-- The ingress windows and the slots read as zeros. -/
theorem Dev.readBar_ingress {d : Dev} {p bar off q : Nat} (len : Nat) (b : Bool)
    (h : d.barWin p bar off = .ingress q ∨ d.barWin p bar off = .slots) :
    d.readBar p bar off len b = d.emit (.readReply p .successful (List.replicate len 0)) := by
  rw [← Dev.readBytes_zero]
  rcases h with ingress | slots
  · rw [Dev.readBar, ingress]
  · rw [Dev.readBar, slots]

/-- Settles O35: with the windows off the read is refused, and else these windows answer zeros. -/
theorem ingressWindowsReadZero : Obligations.IngressWindowsReadZero := by
  intro s p bar off len q b pos le
  refine ⟨fun off_ => ?_, fun mem on window => ?_⟩
  · simpa [off_] using barRead_gives bar off b (s := s) (p := p) (by simp [off_]) pos le
  · rw [← Dev.readBar_ingress len b window]
    simpa [on] using barRead_gives bar off b (s := s) (p := p) (by simp [mem]) pos le

end Sys2Proof.Machine
end

section
/-! SUPPORT. Posting to the completion rings, the phase bit and coalescing (O22). -/

namespace Sys2Proof.Machine

/-! ### What posting a packet can do afterwards: emissions are added, and no command comes -/

/-- Device e has everything on its interfaces that d has, in the same order before it, and no command that d has not. -/
def Dev.Extends (d e : Dev) : Prop := d.out <+: e.out ∧ ∀ a, d.cmd a = none → e.cmd a = none

theorem Dev.Extends.trans {d e f : Dev} (h : d.Extends e) (k : e.Extends f) : d.Extends f :=
  ⟨h.1.trans k.1, fun a absent => k.2 a (h.2 a absent)⟩

theorem Dev.Extends.of_cmds {d e : Dev} (out : d.out <+: e.out) (cmds : e.qe.cmds = d.qe.cmds) : d.Extends e :=
  ⟨out, fun a absent => by rwa [Dev.cmd, cmds, ← Dev.cmd]⟩

theorem Dev.Extends.of_eq {d e : Dev} (out : e.out = d.out) (cmds : e.qe.cmds = d.qe.cmds) : d.Extends e :=
  .of_cmds (out ▸ List.prefix_refl _) cmds

theorem Dev.Extends.refl (d : Dev) : d.Extends d := .of_eq rfl rfl

theorem Dev.cmd_eq_none {d : Dev} {a : Nat} : d.cmd a = none ↔ ∀ c ∈ d.qe.cmds, c.acc ≠ a := by
  simp [Dev.cmd]

theorem Dev.each_extends {α : Type} {f : Dev → α → Dev} (h : ∀ (d : Dev) a, d.Extends (f d a)) (l : List α) :
    ∀ d : Dev, d.Extends (d.each l f) := by
  induction l with
  | nil => exact Dev.Extends.refl
  | cons a l ih => exact fun d => (h d a).trans (ih _)

section
variable (d : Dev)

theorem Dev.modQueue_extends (p q : Nat) (f : Queue → Queue) : d.Extends (d.modQueue p q f) := .of_eq rfl rfl

theorem Dev.modPort_extends (p : Nat) (f : Port → Port) : d.Extends (d.modPort p f) := .of_eq (by simp) (by simp)

theorem Dev.modQe_extends {f : Qe → Qe} (h : ∀ e, (f e).cmds = e.cmds) : d.Extends (d.modQe f) := .of_eq rfl (h d.qe)

theorem Dev.signal_out (p v : Nat) : d.out <+: (d.signal p v).out := by
  unfold Dev.signal
  dsimp only
  split
  · exact List.prefix_refl _
  · split
    · rw [Dev.modPort_out]
    · exact List.prefix_append _ _

theorem Dev.signal_extends (p v : Nat) : d.Extends (d.signal p v) := .of_cmds (d.signal_out p v) (by simp)

theorem Dev.raise_extends (n : Nat) : d.Extends (d.raise n) := by
  refine .of_cmds ?_ (by simp)
  unfold Dev.raise Dev.deliver
  dsimp only
  split
  · exact Dev.signal_out ((d.setIcPending n true).setIcPending n false) _ _
  · exact List.prefix_refl _

theorem Dev.modCmd_extends (a : Nat) {f : Command → Command} (h : ∀ c, (f c).acc = c.acc) : d.Extends (d.modCmd a f) := by
  refine ⟨List.prefix_refl _, fun b absent => ?_⟩
  rw [Dev.cmd_eq_none] at absent ⊢
  rw [Dev.modCmd_cmds, List.forall_mem_map]
  intro c mem
  by_cases own : c.acc = a
  · rw [if_pos own, h]
    exact absent c mem
  · rw [if_neg own]
    exact absent c mem

theorem Dev.dropCmd_extends (a : Nat) : d.Extends (d.dropCmd a) := by
  refine ⟨List.prefix_refl _, fun b absent => ?_⟩
  rw [Dev.cmd_eq_none] at absent ⊢
  exact fun c mem => absent c (List.mem_of_mem_filter mem)

theorem Dev.dropCmd_cmd (a : Nat) : (d.dropCmd a).cmd a = none := by
  simp [Dev.cmd_eq_none, Dev.dropCmd]

theorem Dev.queueCompletion_extends (c : Command) (r : Done) (after : List Nat) : d.Extends (d.queueCompletion c r after) := by
  unfold Dev.queueCompletion
  split <;> exact .of_eq rfl rfl

theorem Dev.numberCommit_extends (a : Nat) : d.Extends (d.numberCommit a) :=
  .trans (d.modCmd_extends a (by intro _; rfl)) (Dev.modQe_extends _ (by intro _; rfl))

theorem Dev.commitWith_extends (a : Nat) (r : Done) (after : List Nat) : d.Extends (d.commitWith a r after) := by
  unfold Dev.commitWith
  split
  · exact .refl d
  · split
    · exact .refl d
    · have fixed := (d.numberCommit_extends a).trans (Dev.modCmd_extends _ a (f := fun c => { c with phase := .committed, done := some r })
        (by intro _; rfl))
      exact fixed.trans (Dev.queueCompletion_extends _ _ _ _)

theorem Dev.settleDelete_extends (p q : Nat) : d.Extends (d.settleDelete p q) := by
  unfold Dev.settleDelete
  split
  · exact .refl d
  · split
    · have gone : d.Extends ((d.modQe (fun e => { e with queues := e.queues.erase (qkey p q) })).raise (Irq.qe p 4)) :=
        .trans (d.modQe_extends (by intro _; rfl)) (Dev.raise_extends _ _)
      dsimp only
      split
      · exact gone.trans (Dev.commitWith_extends _ _ _ _)
      · exact gone
    · exact .refl d

theorem Dev.settleRestart_extends (c : Command) : d.Extends (d.settleRestart c) := by
  unfold Dev.settleRestart
  split
  · exact .refl d
  · split
    · exact .refl d
    · dsimp only
      refine .trans ?_ (Dev.each_extends (fun e (x : Command) => e.modCmd_extends x.acc (by intro _; rfl)) _ _)
      have done := d.modCmd_extends c.acc (f := fun c => { c with discards := none }) (by intro _; rfl)
      split
      · exact done.trans (Dev.modQueue_extends _ _ _ _)
      · exact done

theorem Dev.settleRestarts_extends (p : Nat) : d.Extends (d.settleRestarts p) :=
  Dev.each_extends (fun e c => e.settleRestart_extends c) _ d

theorem Dev.settleDeadPort_extends (p : Nat) : d.Extends (d.settleDeadPort p) := by
  unfold Dev.settleDeadPort
  split
  · exact .trans (d.modPort_extends p _) (Dev.signal_extends _ _ _)
  · exact .refl d

theorem Dev.signalQueue_extends (p q : Nat) : d.Extends (d.signalQueue p q) := by
  unfold Dev.signalQueue
  split
  · exact .trans (d.modQueue_extends p q _) (Dev.signal_extends _ _ _)
  · exact .refl d

theorem Dev.judge_extends (p q : Nat) : d.Extends (d.judge p q) := by
  unfold Dev.judge
  split
  · split
    · exact d.signalQueue_extends p q
    · exact .refl d
  · exact .refl d

/-! ### What posting brings with it (R76, R80, R85) -/

/-- The data timer of the packet's grant starts, and a notice's lost count starts again. -/
def Dev.startPosted (p : Nat) (r : RingPkt) : Dev :=
  let e := match r.grant with | some g => d.startPullTimer p g r.owner | none => d
  if ringType r.bits = 3 then e.modPort p (fun t => { t with lost := 0 }) else e

/-- The packet's command is completed, and what waited for that settles. -/
def Dev.endPosted (p q : Nat) (r : RingPkt) : Dev :=
  match r.cmd with
  | some a => ((((d.dropCmd a).modQe (fun e => { e with grants := e.grants.filter (fun g => g.acc != a) })).settleDelete p q).settleRestarts
      p).settleDeadPort p
  | none => d.settleDelete p q

theorem Dev.posted_eq (p q : Nat) (r : RingPkt) : d.posted p q r = (d.startPosted p r).endPosted p q r := rfl

theorem Dev.startPosted_extends (p : Nat) (r : RingPkt) : d.Extends (d.startPosted p r) := by
  have timed : d.Extends (match r.grant with | some g => d.startPullTimer p g r.owner | none => d) := by
    split <;> exact .of_eq rfl rfl
  unfold Dev.startPosted
  dsimp only
  split
  · exact timed.trans (Dev.modPort_extends _ p _)
  · exact timed

/-- What settles after a command is completed. -/
theorem Dev.endPosted_settles (p q a : Nat) :
    (d.dropCmd a).Extends (((((d.dropCmd a).modQe (fun e => { e with grants := e.grants.filter (fun g => g.acc != a) })).settleDelete
      p q).settleRestarts p).settleDeadPort p) := by
  have freed : (d.dropCmd a).Extends ((d.dropCmd a).modQe (fun e => { e with grants := e.grants.filter (fun g => g.acc != a) })) := .of_eq rfl rfl
  exact ((freed.trans (Dev.settleDelete_extends _ p q)).trans (Dev.settleRestarts_extends _ p)).trans (Dev.settleDeadPort_extends _ p)

theorem Dev.posted_extends (p q : Nat) (r : RingPkt) : d.Extends (d.posted p q r) := by
  rw [Dev.posted_eq, Dev.endPosted]
  refine (d.startPosted_extends p r).trans ?_
  split
  · exact .trans (Dev.dropCmd_extends _ _) (Dev.endPosted_settles _ p q _)
  · exact Dev.settleDelete_extends _ p q

theorem Dev.posted_cmd {a : Nat} (p q : Nat) {r : RingPkt} (h : r.cmd = some a) : (d.posted p q r).cmd a = none := by
  rw [Dev.posted_eq, Dev.endPosted, h]
  exact (Dev.endPosted_settles _ p q a).2 a (Dev.dropCmd_cmd _ a)

theorem Dev.postHost_cmd {a : Nat} (p q : Nat) (u : Queue) {r : RingPkt} (h : r.cmd = some a) : (d.postHost p q u r).cmd a = none :=
  Dev.posted_cmd _ p q h

theorem Dev.postPeer_cmd {a : Nat} (p : Nat) {r : RingPkt} (dest : Qword) (h : r.cmd = some a) : (d.postPeer p r dest).cmd a = none :=
  Dev.posted_cmd _ p peerQ h

/-- The packet is written first; whatever else posting emits comes after it. -/
theorem Dev.postHost_out (p q : Nat) {u : Queue} (r : RingPkt) (ring : 0 < u.ring) :
    ∃ rest, (d.postHost p q u r).out = d.out ++ .memWrite p (u.base + BitVec.ofNat 64 (u.posted % u.ring * 32)) 32
      ((d.finalBits p q u r).setWidth 4096) false (d.port p).idoEnable (.ring q) :: rest := by
  have judged : ∀ e : Dev, e.Extends (if r.atOnce = true then e.signalQueue p q else e.judge p q) := by
    intro e
    split
    · exact e.signalQueue_extends p q
    · exact e.judge_extends p q
  have after : (d.emit (.memWrite p (u.base + BitVec.ofNat 64 (u.posted % max u.ring 1 * 32)) 32 ((d.finalBits p q u r).setWidth 4096) false
      (d.port p).idoEnable (.ring q))).Extends (d.postHost p q u r) :=
    .trans (Dev.modQueue_extends _ p q _) (.trans (judged _) (Dev.posted_extends _ p q r))
  obtain ⟨⟨rest, out⟩, -⟩ := after
  rw [Nat.max_eq_left ring] at out
  exact ⟨rest, by rw [← out, Dev.emit_out, List.append_assoc, List.singleton_append]⟩

end

theorem Queue.ring_pos_of_room {u : Queue} (h : u.room = true) : 0 < u.ring := by
  simp only [Queue.room, decide_eq_true_eq] at h
  omega

/-! ### The phase bit (R59) -/

/-- Setting a field leaves what lies above it. -/
theorem setField_shiftRight_above (r y : Nat) {l w m : Nat} (h : l + w ≤ m) :
    (r - (bitsOf r l w) <<< l + (y % 2 ^ w) <<< l) >>> m = r >>> m := by
  have small : ∀ x n : Nat, x ≤ n → x >>> m % 2 ^ n = x >>> m := fun x n le =>
    Nat.mod_eq_of_lt ((Nat.shiftRight_le x m).trans_lt (le.trans_lt Nat.lt_two_pow_self))
  rw [bitsOf]
  generalize set : r - (r >>> l % 2 ^ w) <<< l + (y % 2 ^ w) <<< l = r'
  have same := setField_above r l w y m (r' + r) h
  rwa [set, small r' _ (Nat.le_add_right _ _), small r _ (Nat.le_add_left _ _)] at same

theorem setField_lt_two_pow {r y l w m : Nat} (hr : r < 2 ^ m) (hy : y < 2 ^ w) (h : l + w ≤ m) :
    r - (bitsOf r l w) <<< l + y <<< l < 2 ^ m := by
  have above := setField_shiftRight_above r y h
  rw [Nat.mod_eq_of_lt hy, Nat.shiftRight_eq_div_pow, Nat.shiftRight_eq_div_pow, Nat.div_eq_of_lt hr] at above
  exact (Nat.div_eq_zero_iff.mp above).resolve_left (Nat.two_pow_pos m).ne'

theorem lt_of_fld_top_zero {b : Rec256} (h : fld b 255 1 = 0) : b.toNat < 2 ^ 255 := by
  have lt := b.isLt
  simp only [fld, bitsOf, Nat.shiftRight_eq_div_pow] at h
  omega

theorem fld_top_ofNat {b : Nat} (h : b < 2 ^ 255) (first : Prop) [Decidable first] :
    fld (BitVec.ofNat 256 (if first then b + 2 ^ 255 else b)) 255 1 = if first then 1 else 0 := by
  simp only [fld, bitsOf, Nat.shiftRight_eq_div_pow, BitVec.toNat_ofNat]
  split <;> omega

/-- The fields set at posting lie below the phase bit, which is then 1 on every even pass of the ring. -/
theorem Dev.finalBits_phase (d : Dev) (p q : Nat) {u : Queue} {r : RingPkt} (ring : 0 < u.ring) (h : fld r.bits 255 1 = 0) :
    fld (d.finalBits p q u r) 255 1 = if u.posted / u.ring % 2 = 0 then 1 else 0 := by
  have held : ∀ b < 2 ^ 255,
      (if ringType r.bits = 4 then b - (bitsOf b 80 16) <<< 80 + (min (d.fifo p q).length 65535) <<< 80 else b) < 2 ^ 255 := by
    intro b lt
    split
    · exact setField_lt_two_pow lt (by omega) (by decide)
    · exact lt
  have lost : ∀ b < 2 ^ 255,
      (if ringType r.bits = 3 then b - (bitsOf b 8 8) <<< 8 + (min (d.port p).lost 255) <<< 8 else b) < 2 ^ 255 := by
    intro b lt
    split
    · exact setField_lt_two_pow lt (by omega) (by decide)
    · exact lt
  rw [Dev.finalBits, Nat.max_eq_left ring]
  exact fld_top_ofNat (lost _ (held _ (lt_of_fld_top_zero h))) _

/-! ### The commands (R58, R60, R63, R341) -/

theorem exec_ringPacketPost (p q : Nat) (s : State) : exec (.ringPacketPost p q) s = execRingPacketPost p q s := rfl

theorem exec_coalesceTimeout (p q : Nat) (s : State) : exec (.coalesceTimeout p q) s = execCoalesceTimeout p q s := rfl

section
variable {s : State} {p q : Nat} {u : Queue}

theorem nextPost_eq {r : RingPkt} (issues : s.dev.mayIssue p = true) (found : s.dev.queue p q = some u)
    (next : s.dev.nextPacket u = some r) :
    (if s.dev.mayIssue p then (s.dev.queue p q).bind (fun u => (s.dev.nextPacket u).map (fun r => (u, r))) else none) = some (u, r) := by
  simp [issues, found, next]

theorem ringPacketPost_host_gives {r : RingPkt} (issues : s.dev.mayIssue p = true) (found : s.dev.queue p q = some u)
    (next : s.dev.nextPacket u = some r) (host : r.dest = none) :
    Gives (.ringPacketPost p q) s (if u.room then s.dev.postHost p q u r else s.dev) := by
  rw [Gives, exec_ringPacketPost, execRingPacketPost, actOn_some (nextPost_eq issues found next)]
  simp only [host]

theorem ringPacketPost_peer_gives {r : RingPkt} {dest : Qword} (issues : s.dev.mayIssue p = true) (found : s.dev.queue p q = some u)
    (next : s.dev.nextPacket u = some r) (peer : r.dest = some dest) : Gives (.ringPacketPost p q) s (s.dev.postPeer p r dest) := by
  rw [Gives, exec_ringPacketPost, execRingPacketPost, actOn_some (nextPost_eq issues found next)]
  simp only [peer]

theorem Dev.signalQueue_found {d : Dev} (found : d.queue p q = some u) :
    d.signalQueue p q = (d.modQueue p q (fun v => { v with unsignalled := 0 })).signal p u.vector := by
  simp only [Dev.signalQueue, found]

/-- The vector is signalled where a packet waits for that and the coalescing time of the oldest one has passed. -/
theorem coalesceTimeout_gives (found : s.dev.queue p q = some u) :
    Gives (.coalesceTimeout p q) s (if 0 < u.unsignalled && s.dev.expired u.oldest (s.dev.irqTime p q u)
      then (s.dev.modQueue p q (fun v => { v with unsignalled := 0 })).signal p u.vector else s.dev) := by
  rw [Gives, exec_coalesceTimeout, execCoalesceTimeout, actOn_some found, Dev.signalQueue_found found]

end

/-! ### The statement -/

/-- Settles O22: a post is the write followed by what posting brings with it, which adds emissions and completes the command. -/
theorem ringPostsComplete : Obligations.RingPostsComplete := by
  refine ⟨fun s p q u r issues found next host room => ?_, fun s p q u r a issues found next peer => ?_,
    fun s p q u r issues found next host full => ?_, fun d p q u r => d.finalBits_phase p q,
    fun s p q u found => ⟨fun waiting late => ?_, fun early => ?_⟩⟩
  · refine ⟨s.dev.postHost p q u r, ?_, rfl, fun a => s.dev.postHost_cmd p q u, s.dev.postHost_out p q r (Queue.ring_pos_of_room room)⟩
    simpa [room] using ringPacketPost_host_gives issues found next host
  · exact ⟨s.dev.postPeer p r a, ringPacketPost_peer_gives issues found next peer, rfl, fun b => s.dev.postPeer_cmd p a⟩
  · simpa [full] using ringPacketPost_host_gives issues found next host
  · simpa [waiting, late] using coalesceTimeout_gives found
  · have quiet : (0 < u.unsignalled && s.dev.expired u.oldest (s.dev.irqTime p q u)) = false := by
      rcases early with nothing | early
      · simp [nothing]
      · simp [early]
    simpa only [quiet, Bool.false_eq_true, if_false] using coalesceTimeout_gives found

end Sys2Proof.Machine
end

section
/-! SUPPORT. Candidates, arbitration, command starts and ages, and the cost of a command (O12 to O15). -/

namespace Sys2Proof.Machine

/-! ### Candidates (R88, R106) -/

/-- What a queue presents is the head of its FIFO, and every gate of R88 is open. -/
theorem Dev.candidate_some {d : Dev} {p q : Nat} {u : Queue} {c : Command} (h : d.candidate p q u = some c) :
    u.state = .active ∧ ((d.port p).state = .running ∨ (d.port p).state = .holding) ∧ d.qe.hold.isNone = true ∧
    orderedPermits (d.cmdsOf p q) c = true := by
  unfold Dev.candidate at h
  split at h
  · exact nomatch h
  · next head _ _ =>
    dsimp only at h
    split at h
    · next gates =>
      obtain rfl : head = c := Option.some.inj h
      simp only [Bool.and_eq_true, Bool.or_eq_true, beq_iff_eq] at gates
      obtain ⟨⟨⟨⟨⟨⟨active, admitted⟩, unheld⟩, -⟩, -⟩, ordered⟩, -⟩ := gates
      exact ⟨active, admitted.imp id (fun holding => holding.1.1), unheld, ordered⟩
    · exact nomatch h

/-- Where OP6 permits a head, neither it nor anything accepted before it is Ordered, as soon as something was. -/
theorem orderedPermits_unordered {all : List Command} {head a : Command} (h : orderedPermits all head = true) (mem : a ∈ all)
    (earlier : a.acc < head.acc) : Pkt.ordered a.pkt = false ∧ Pkt.ordered head.pkt = false := by
  have ahead : a ∈ all.filter (fun c => decide (c.acc < head.acc)) := by simp [mem, earlier]
  simp only [orderedPermits, Bool.and_eq_true, Bool.or_eq_true, Bool.not_eq_true', List.isEmpty_iff, List.any_eq_false,
    Bool.not_eq_true] at h
  obtain ⟨free, clear⟩ := h
  exact ⟨clear a ahead, free.resolve_right (List.ne_nil_of_mem ahead)⟩

/-- Settles O14: each gate that R88 closes, and each order that R106 asks for, is a condition of presenting a candidate. -/
theorem candidatesAreHeldBack : Obligations.CandidatesAreHeldBack := by
  refine ⟨fun d p q u closed => ?_, fun d p q u c presented a mem earlier => ?_⟩
  · rw [Option.eq_none_iff_forall_ne_some]
    intro c presented
    obtain ⟨active, up, unheld, -⟩ := Dev.candidate_some presented
    rcases closed with inactive | booting | deadbolt | held
    · exact inactive active
    · simp [booting] at up
    · simp [deadbolt] at up
    · simp [Option.isNone_iff_eq_none.mp unheld] at held
  · obtain ⟨-, -, -, ordered⟩ := Dev.candidate_some presented
    exact orderedPermits_unordered ordered mem earlier

/-! ### Cost (R89) -/

/-- Settles O15: the five opcodes of R89 are those the cost names, and a range begins no later than it ends. -/
theorem commandCost : Obligations.CommandCost := by
  intro c
  refine ⟨fun listed range => ?_, fun unlisted => ?_⟩
  · have begins : c.lo / 16 ≤ (c.hi - 1) / 16 := Nat.div_le_div_right (by omega)
    have five : c.op = 0x01 ∨ c.op = 0x02 ∨ c.op = 0x05 ∨ c.op = 0x06 ∨ c.op = 0x08 := by simpa using listed
    have cost : c.cost = min 64 ((c.hi - 1) / 16 - c.lo / 16 + 1) := if_pos (by simpa [range, or_assoc] using five)
    omega
  · simp only [List.mem_cons, List.not_mem_nil, or_false, not_or] at unlisted
    simp [Command.cost, unlisted]

/-! ### Master-key candidates (R92, R93, R96) -/

/-- One step of the search for the oldest command: the one found so far goes on unless the next was accepted before it. -/
def olderOf (best : Option Command) (c : Command) : Option Command :=
  match best with
  | none => some c
  | some x => if c.acc < x.acc then some c else best

/-- The search finds the first command of the lowest acceptance number. -/
theorem foldl_olderOf (l : List Command) : l.foldl olderOf none = l.argmin (fun c => c.acc) := by
  unfold List.argmin
  congr
  funext best c
  cases best <;> rfl

theorem foldl_olderOf_eq_some {l : List Command} {m : Command} (mem : m ∈ l) (oldest : ∀ c ∈ l, m.acc ≤ c.acc)
    (only : ∀ c ∈ l, c.acc = m.acc → c = m) : l.foldl olderOf none = some m := by
  rw [foldl_olderOf, List.argmin_eq_some_iff]
  refine ⟨mem, oldest, fun c in_ le => ?_⟩
  rw [only c in_ (le.antisymm (oldest c in_))]

/-- The master-key candidates. -/
def Dev.masters (d : Dev) : List Command := (d.candidates.filter (fun x => x.2.2.2.rank == .master)).map (fun x => x.2.2.2)

theorem Dev.mem_masters {d : Dev} {c : Command} : c ∈ d.masters ↔ ∃ x ∈ d.candidates, x.2.2.2.rank = .master ∧ x.2.2.2 = c := by
  simp only [Dev.masters, List.mem_map, List.mem_filter, beq_iff_eq, and_assoc]

/-- The oldest master-key candidate takes a free ordinary entry. -/
theorem Dev.arbitrate_master {d : Dev} {m : Command} (free : d.entriesUsed < 8128) (oldest : d.masters.foldl olderOf none = some m) :
    d.arbitrate = some (.cmd m, false, d.qe.arb) := by
  unfold Dev.arbitrate
  dsimp only
  split
  · next found =>
    obtain rfl := Option.some.inj (found.symm.trans oldest)
    exact if_pos free
  · next found => exact nomatch found.symm.trans oldest

/-- Settles O13: the search among the master-key candidates ends at the oldest. -/
theorem oldestMasterKeyGoesFirst : Obligations.OldestMasterKeyGoesFirst := by
  rintro d m free ⟨x, mem, rfl, master⟩ oldest only
  refine Dev.arbitrate_master free (foldl_olderOf_eq_some (Dev.mem_masters.mpr ⟨x, mem, master, rfl⟩) ?_ ?_)
  · intro c in_
    obtain ⟨y, memY, masterY, rfl⟩ := Dev.mem_masters.mp in_
    exact oldest y memY masterY
  · intro c in_
    obtain ⟨y, memY, -, rfl⟩ := Dev.mem_masters.mp in_
    exact only y memY

/-! ### Starts (R85, R87, R389) -/

theorem exec_commandStart (s : State) : exec .commandStart s = execCommandStart s := rfl

@[simp] theorem Dev.zeroDeficits_cmds (d : Dev) : d.zeroDeficits.qe.cmds = d.qe.cmds := rfl
@[simp] theorem Dev.zeroDeficits_nextStart (d : Dev) : d.zeroDeficits.qe.nextStart = d.qe.nextStart := rfl
@[simp] theorem Dev.zeroDeficits_nextAcc (d : Dev) : d.zeroDeficits.qe.nextAcc = d.qe.nextAcc := rfl
@[simp] theorem Dev.zeroDeficits_bm (d : Dev) : d.zeroDeficits.bm = d.bm := rfl
@[simp] theorem Dev.zeroDeficits_mp (d : Dev) : d.zeroDeficits.mp = d.mp := rfl
@[simp] theorem Dev.zeroDeficits_nand (d : Dev) : d.zeroDeficits.nand = d.nand := rfl

theorem Dev.get_eq_of_regs {d e : Dev} (h : e.regs = d.regs) (f : Fld) : e.get f = d.get f := by
  rw [Dev.get, Dev.get, Dev.reg, Dev.reg, h]

theorem Dev.armedFor_eq {d e : Dev} (h : e.regs = d.regs) (src : Nat) : e.armedFor src = d.armedFor src := by
  simp only [Dev.armedFor, Dev.bit, Dev.get_eq_of_regs h]

theorem Dev.readDeficits_unarmed {d : Dev} (h : d.armedFor Src.qeDeficits = false) : d.readDeficits = d := by
  simp [Dev.readDeficits, h]

/-- The command out of its FIFO, with the next start number and a start-window entry. -/
def Dev.entered (d : Dev) (c : Command) (reserved : Bool) : Dev :=
  (d.modCmd c.acc (fun x => { x with
    phase := .started
    startNo := d.qe.nextStart
    reservedEntry := reserved
    seen := d.qe.nextAcc })).modQe (fun e => { e with nextStart := e.nextStart + 1 })

/-- A command that no check of its start fails is entered; a reserved entry is reported. -/
theorem Dev.startCmd_passing {d : Dev} {c : Command} (reserved : Bool) (passes : d.startStatus c = none)
    (unarmed : d.armedFor Src.qeFifo = false) :
    d.startCmd c reserved = if reserved then (d.entered c reserved).raise (Irq.qe c.port 5) else d.entered c reserved := by
  have still : (if reserved then (d.entered c reserved).raise (Irq.qe c.port 5) else d.entered c reserved).armedFor Src.qeFifo = false := by
    rw [← unarmed]
    cases reserved with
    | false => rfl
    | true => exact Dev.armedFor_eq (by rw [if_pos rfl, Dev.raise_regs]; rfl) _
  rw [Dev.startCmd, passes]
  exact if_neg (by rw [Bool.not_eq_true]; exact still)

/-- Reporting the entry changes neither queues, buffer, map nor flash. -/
theorem Dev.startCmd_passing_parts {d : Dev} {c : Command} (reserved : Bool) (passes : d.startStatus c = none)
    (unarmed : d.armedFor Src.qeFifo = false) :
    (d.startCmd c reserved).qe = (d.entered c reserved).qe ∧ (d.startCmd c reserved).nand = d.nand ∧
    (d.startCmd c reserved).mp = d.mp ∧ (d.startCmd c reserved).bm = d.bm := by
  rw [Dev.startCmd_passing reserved passes unarmed]
  cases reserved with
  | false => exact ⟨rfl, rfl, rfl, rfl⟩
  | true => exact ⟨Dev.raise_qe _ _, Dev.raise_nand _ _, Dev.raise_mp _ _, Dev.raise_bm _ _⟩

section
variable {s : State} (unarmed : s.dev.armedFor Src.qeDeficits = false)
include unarmed

theorem commandStart_none_gives (idle : s.dev.zeroDeficits.arbitrate = none) : Gives .commandStart s s.dev.zeroDeficits := by
  rw [Gives, exec_commandStart, execCommandStart, run_eq, Dev.readDeficits_unarmed unarmed]
  simp only [idle]

theorem commandStart_cmd_gives {c : Command} {reserved : Bool} {a : Arbiter}
    (picked : s.dev.zeroDeficits.arbitrate = some (.cmd c, reserved, a)) :
    Gives .commandStart s ((s.dev.zeroDeficits.modQe (fun e => { e with arb := a })).startCmd c reserved).zeroDeficits := by
  rw [Gives, exec_commandStart, execCommandStart, run_eq, Dev.readDeficits_unarmed unarmed]
  simp only [picked]
end

/-! ### Ages (R95) -/

theorem exec_promotionAge (acc : Nat) (s : State) : exec (.promotionAge acc) s = execPromotionAge acc s := rfl

theorem exec_hardAge (acc : Nat) (s : State) : exec (.hardAge acc) s = execHardAge acc s := rfl

section
variable {s : State} {acc : Nat} {c : Command} (found : s.dev.cmd acc = some c)
include found

theorem promotionAge_gives (normal : c.rank = .normal)
    (old : s.dev.aged c (s.dev.get (qeReg c.port Reg.QE_AGE_CFG.promotion_ms)) = true) :
    Gives (.promotionAge acc) s (s.dev.modCmd acc (fun x => { x with rank := .urgent })) := by
  rw [Gives, exec_promotionAge, execPromotionAge, actOn_some found]
  simp [normal, old]

theorem hardAge_gives (lower : c.rank ≠ .master)
    (old : s.dev.aged c (s.dev.get (qeReg c.port Reg.QE_AGE_CFG.hard_age_ms)) = true) :
    Gives (.hardAge acc) s (s.dev.modCmd acc (fun x => { x with rank := .master })).claimMasters := by
  rw [Gives, exec_hardAge, execHardAge, actOn_some found]
  simp [lower, old]
end

/-- Settles O12: a start enters what arbitration picked, and an age that has passed its limit raises the rank. -/
theorem startsAndAgesComplete : Obligations.StartsAndAgesComplete := by
  refine ⟨fun s => commandStart_none_gives, fun s c reserved a deficits fifo picked passes => ?_,
    fun s acc c => promotionAge_gives, fun s acc c => hardAge_gives⟩
  obtain ⟨qe, nand, mp, bm⟩ := Dev.startCmd_passing_parts reserved passes fifo
  exact ⟨_, commandStart_cmd_gives deficits picked, congrArg (·.nextStart) qe, congrArg (·.cmds) qe, nand, mp, bm⟩

end Sys2Proof.Machine
end

section
/-! SUPPORT. How the I/O commands begin, and their commit points (O16, O17). -/

namespace Sys2Proof.Machine

/-! ### The parts of a range (R64) -/

/-- The part of granule g: from the later of the two beginnings to the earlier of the two ends. -/
theorem partsOf_bounds {slba nlb : Nat} {p : Part} (mem : p ∈ partsOf slba nlb) :
    0 < nlb ∧ 16 * p.granule + p.first = max (16 * p.granule) slba ∧
    16 * p.granule + p.first + p.count = min (16 * p.granule + 16) (slba + nlb) := by
  by_cases empty : nlb = 0
  · simp [partsOf, empty] at mem
  · simp only [partsOf, empty, if_false, List.mem_map, List.mem_range] at mem
    obtain ⟨i, below, rfl⟩ := mem
    dsimp only
    split <;> split <;> omega

theorem exists_part {slba nlb g : Nat} (begins : slba / 16 ≤ g) (ends : g ≤ (slba + nlb - 1) / 16) (some_ : 0 < nlb) :
    ∃ p ∈ partsOf slba nlb, p.granule = g := by
  have blocks : nlb ≠ 0 := by omega
  simp only [partsOf, blocks, if_false, List.mem_map, List.mem_range]
  exact ⟨_, ⟨g - slba / 16, by omega, rfl⟩, by dsimp only; omega⟩

/-- A block lies in the range exactly when the part of its granule covers it. -/
theorem partsOf_cover (slba nlb b : Nat) :
    (∃ p ∈ partsOf slba nlb, 16 * p.granule + p.first ≤ b ∧ b < 16 * p.granule + p.first + p.count) ↔
      slba ≤ b ∧ b < slba + nlb := by
  constructor
  · rintro ⟨p, mem, low, high⟩
    obtain ⟨-, first, last⟩ := partsOf_bounds mem
    omega
  · rintro ⟨low, high⟩
    obtain ⟨p, mem, granule⟩ := exists_part (slba := slba) (nlb := nlb) (g := b / 16) (by omega) (by omega) (by omega)
    obtain ⟨-, first, last⟩ := partsOf_bounds mem
    exact ⟨p, mem, by omega, by omega⟩

/-! ### Starts (R64, R132, R134 to R138, R141) -/

theorem exec_write (acc : Nat) (s : State) : exec (.write acc) s = execWrite acc s := rfl

theorem exec_read (acc : Nat) (s : State) : exec (.read acc) s = execRead acc s := rfl

theorem exec_verify (acc : Nat) (s : State) : exec (.verify acc) s = execVerify acc s := rfl

theorem exec_flush (acc : Nat) (s : State) : exec (.flush acc) s = execFlush acc s := rfl

theorem exec_deallocate (acc : Nat) (s : State) : exec (.deallocate acc) s = execDeallocate acc s := rfl

theorem exec_writeZeroes (acc : Nat) (s : State) : exec (.writeZeroes acc) s = execWriteZeroes acc s := rfl

theorem exec_peerCopyOut (acc : Nat) (s : State) : exec (.peerCopyOut acc) s = execPeerCopyOut acc s := rfl

theorem exec_refresh (acc : Nat) (s : State) : exec (.refresh acc) s = execRefresh acc s := rfl

section
variable {s : State} {acc : Nat} {c : Command}

theorem write_gives (found : s.dev.startedOp acc 0x01 = some c) : Gives (.write acc) s (s.dev.beginWrite c) := by
  rw [Gives, exec_write, execWrite, actOn_some found]

theorem read_gives (found : s.dev.startedOp acc 0x02 = some c) : Gives (.read acc) s (s.dev.beginRead c) := by
  rw [Gives, exec_read, execRead, actOn_some found]

theorem verify_gives (found : s.dev.startedOp acc 0x05 = some c) : Gives (.verify acc) s (s.dev.beginVerify c) := by
  rw [Gives, exec_verify, execVerify, actOn_some found]

theorem flush_gives (found : s.dev.startedOp acc 0x03 = some c) : Gives (.flush acc) s (s.dev.beginFlush c) := by
  rw [Gives, exec_flush, execFlush, actOn_some found]

theorem deallocate_gives (found : s.dev.startedOp acc 0x04 = some c) : Gives (.deallocate acc) s (s.dev.beginTrim c) := by
  rw [Gives, exec_deallocate, execDeallocate, actOn_some found]

theorem writeZeroes_gives (found : s.dev.startedOp acc 0x06 = some c) : Gives (.writeZeroes acc) s (s.dev.beginTrim c) := by
  rw [Gives, exec_writeZeroes, execWriteZeroes, actOn_some found]

theorem peerCopyOut_gives (found : s.dev.startedOp acc 0x08 = some c) : Gives (.peerCopyOut acc) s (s.dev.beginPeerCopy c) := by
  rw [Gives, exec_peerCopyOut, execPeerCopyOut, actOn_some found]

theorem refresh_gives (found : s.dev.startedOp acc 0x09 = some c) : Gives (.refresh acc) s (s.dev.beginRefresh c) := by
  rw [Gives, exec_refresh, execRefresh, actOn_some found]
end

/-- With spare left a Deallocate or Write Zeroes is admitted (R279). -/
theorem Dev.beginTrim_admitted {d : Dev} (c : Command) (spare : 0 < d.spareLeft) :
    d.beginTrim c = d.modCmd c.acc (fun x => { x with phase := .running, parts := partsOf (Pkt.slba x.pkt) (Pkt.nlb x.pkt) }) :=
  if_neg (by omega)

/-- With none left it makes the device Sealed (R279). -/
theorem Dev.beginTrim_seals {d : Dev} (c : Command) (none_ : d.spareLeft ≤ 0) :
    d.beginTrim c = d.becomeSealed.fail c.acc St.capacitySealed := if_pos none_

theorem Dev.beginPeerCopy_valid {d : Dev} {c : Command} (valid : d.peerInvalid c = false) :
    d.beginPeerCopy c = (d.modCmd c.acc (fun x => { x with
      phase := .running
      parts := readParts (Pkt.slba x.pkt) (Pkt.nlb x.pkt) })).serve c.acc := if_neg (by rw [valid]; exact Bool.false_ne_true)

/-- With spare left a Refresh becomes a pass over the sets of the LUNs in its scope (R141, R279). -/
theorem Dev.beginRefresh_admitted {d : Dev} (c : Command) (spare : 0 < d.spareLeft) :
    d.beginRefresh c = ((d.modCmd c.acc (fun x => { x with
      phase := .running
      waitOn := (d.refreshScope (Pkt.cdwA c.pkt)).length })).addPass {
        why := .refreshCommand c.acc
        left := (d.refreshScope (Pkt.cdwA c.pkt)).flatMap (fun l => d.setsIn l none)
        urgent := false }).endPasses := if_neg (by omega)

/-- Settles O16: each command begins as its rule says, and the parts of a range cover its blocks and no others. -/
theorem ioCommandsBegin : Obligations.IoCommandsBegin := by
  refine ⟨fun s acc c => write_gives, fun s acc c => read_gives, fun s acc c => verify_gives, fun s acc c => flush_gives,
    fun s acc c found spare => ?_, fun s acc c found spare => ?_, fun s acc c found valid => ?_, fun s acc c found spare => ?_,
    fun s acc c none_ => ⟨fun found => ?_, fun found => ?_⟩, partsOf_cover⟩
  · rw [← Dev.beginTrim_admitted c spare]
    exact deallocate_gives found
  · rw [← Dev.beginTrim_admitted c spare]
    exact writeZeroes_gives found
  · rw [← Dev.beginPeerCopy_valid valid]
    exact peerCopyOut_gives found
  · rw [← Dev.beginRefresh_admitted c spare]
    exact refresh_gives found
  · rw [← Dev.beginTrim_seals c none_]
    exact deallocate_gives found
  · rw [← Dev.beginTrim_seals c none_]
    exact writeZeroes_gives found

/-! ### Completions (R86) -/

theorem Dev.commitWith_uncommitted {d : Dev} {acc : Nat} {c : Command} (r : Done) (after : List Nat) (found : d.cmd acc = some c)
    (open_ : c.phase ≠ .committed) :
    d.commitWith acc r after =
      ((d.numberCommit acc).modCmd acc (fun x => { x with phase := .committed, done := some r })).queueCompletion c r after := by
  simp [Dev.commitWith, found, open_]

theorem Dev.commitWith_committed {d : Dev} {acc : Nat} {c : Command} (r : Done) (after : List Nat) (found : d.cmd acc = some c)
    (fixed : c.phase = .committed) : d.commitWith acc r after = d := by
  simp [Dev.commitWith, found, fixed]

/-- A command of this device's host completes on its queue's ring. -/
theorem Dev.queueCompletion_host (d : Dev) {c : Command} (r : Done) (after : List Nat) (host : c.peer = none) :
    d.queueCompletion c r after =
      d.toRing c.port c.queue { bits := completionPkt (Pkt.tag c.pkt) c.queue r, cmd := some c.acc, after := after } := by
  rw [Dev.queueCompletion, host]

/-! ### Commit points (R108, R130 to R137) -/

theorem exec_commitPoint (acc : Nat) (s : State) : exec (.commitPoint acc) s = execCommitPoint acc s := rfl

theorem commitPoint_io_gives {s : State} {acc : Nat} {c : Command} (running : s.dev.runningCmd acc = some c)
    (alive : s.dev.qe.dead = false) (io : c.queue ≠ 0) : Gives (.commitPoint acc) s (s.dev.commitIo c) := by
  have working : (s.dev.runningCmd acc).filter (fun _ => !s.dev.qe.dead) = some c := by simp [running, alive]
  rw [Gives, exec_commitPoint, execCommitPoint, actOn_some working]
  exact congrArg (fun d => Host.Outcome.next { s with dev := d }) (if_neg io)

section
variable {d : Dev} {c : Command}

/-- A Write enters the buffer once all its data has arrived and no earlier read needs what it replaces. -/
theorem Dev.commitIo_write (op : c.op = 0x01) (arrived : c.parts.all (fun p => p.st == .ready) = true)
    (clear : c.parts.any (fun p => d.writeWaits c p.granule) = false) (unsealed : d.isSealed = false)
    (kept : c.parts.find? (fun p => d.partLost c p) = none) : d.commitIo c = d.enterWrite c := by
  simp only [Dev.commitIo, op, if_true, Dev.commitWrite, arrived, clear, unsealed, kept, Bool.not_true, Bool.or_self,
    Bool.false_eq_true, if_false]

theorem Dev.commitIo_read {f : Fetch} (op : c.op = 0x02) (ready : c.parts.all (fun p => p.st == .ready) = true)
    (good : c.failure = none) (fetch : c.fetch = some f) (sent : f.issued = f.need) : d.commitIo c = (d.succeed c.acc 0 0).stir := by
  simp [Dev.commitIo, op, Dev.commitRead, ready, good, fetch, sent]

theorem Dev.commitIo_verify (op : c.op = 0x05) (ready : c.parts.all (fun p => p.st == .ready) = true) (good : c.failure = none) :
    d.commitIo c = (d.succeed c.acc c.tier 0).stir := by
  simp [Dev.commitIo, op, Dev.commitVerify, ready, good]

theorem Dev.commitIo_flush (op : c.op = 0x03) (durable : d.covered c = true) :
    d.commitIo c = (d.succeed c.acc c.padded c.closed).stir := by
  simp [Dev.commitIo, op, Dev.commitFlush, durable]

/-- A Deallocate or Write Zeroes acts once every reservation it needs is held and no earlier read waits. -/
theorem Dev.commitIo_trim (op : c.op = 0x04 ∨ c.op = 0x06) (reserved : c.parts.any (fun p => c.isPartial p && !p.reserved) = false)
    (clear : c.parts.any (fun p => d.writeWaits c p.granule) = false) (unsealed : d.isSealed = false) :
    d.commitIo c = ((d.overtake c).each c.parts (fun e p => e.trimPart c p)).finishWriteClass c
      (c.parts.filter (fun p => !c.isPartial p)).length := by
  have trim : d.commitIo c = d.commitTrim c := by
    rcases op with op | op
    · simp [Dev.commitIo, op]
    · simp [Dev.commitIo, op]
  simp only [trim, Dev.commitTrim, reserved, clear, unsealed, Bool.or_self, Bool.false_eq_true, if_false]
end

/-- Settles O17: each clause is the commit point of its opcode, or what fixing a completion does. -/
theorem commitPointCompletes : Obligations.CommitPointCompletes := by
  refine ⟨fun d acc c r after found open_ host => ?_, fun d acc c => Dev.commitWith_committed,
    fun s acc c running alive io op arrived clear unsealed kept => ?_,
    fun s acc c f running alive io op ready good fetch sent => ?_, fun s acc c running alive io op ready good => ?_,
    fun s acc c running alive io op durable => ?_, fun s acc c running alive io op reserved clear unsealed => ?_⟩
  · rw [Dev.commitWith_uncommitted r after found open_, Dev.queueCompletion_host _ r after host]
  · rw [← Dev.commitIo_write op arrived clear unsealed kept]
    exact commitPoint_io_gives running alive io
  · rw [← Dev.commitIo_read op ready good fetch sent]
    exact commitPoint_io_gives running alive io
  · rw [← Dev.commitIo_verify op ready good]
    exact commitPoint_io_gives running alive io
  · rw [← Dev.commitIo_flush op durable]
    exact commitPoint_io_gives running alive io
  · rw [← Dev.commitIo_trim op reserved clear unsealed]
    exact commitPoint_io_gives running alive io

end Sys2Proof.Machine
end

section
/-! SUPPORT. Queue Create, Delete, Restart and Abort (O27), and a Set Feature that fails (O26). -/

namespace Sys2Proof.Machine

/-! ### Queue Create and Queue Delete (R121, R145, R146) -/

theorem exec_queueCreate (acc : Nat) (s : State) : exec (.queueCreate acc) s = execQueueCreate acc s := rfl

theorem exec_queueDelete (acc : Nat) (s : State) : exec (.queueDelete acc) s = execQueueDelete acc s := rfl

theorem queueCreate_gives {s : State} {acc : Nat} {c : Command} {u : Queue} (found : s.dev.startedOp acc 0x84 = some c)
    (io : c.named ≠ 0) (fresh : s.dev.queue c.port c.named = none) (described : queueOf c.pkt = some u) :
    Gives (.queueCreate acc) s ((s.dev.modQe (fun e => { e with queues := e.queues.put (qkey c.port c.named) u })).succeed acc 0 0) := by
  rw [Gives, exec_queueCreate, execQueueCreate, actOn_some found]
  simp [io, fresh, described]

/-- The Queue Delete at work, and its queue marked with it. -/
def Dev.beginDelete (d : Dev) (acc : Nat) (c : Command) : Dev :=
  (d.modCmd acc (fun x => { x with phase := .running })).modQueue c.port c.named (fun v => { v with
    state := .deleting
    deleter := some acc })

theorem queueDelete_gives {s : State} {acc : Nat} {c : Command} {u : Queue} (found : s.dev.startedOp acc 0x85 = some c)
    (target : s.dev.targetQueue c = some u) :
    Gives (.queueDelete acc) s ((((s.dev.beginDelete acc c).each (((s.dev.beginDelete acc c).cmdsOf c.port c.named).map (fun x => x.acc))
      (fun e a => e.endCmd a St.queueDeleted)).settleDelete c.port c.named).zeroDeficits.stir) := by
  rw [Gives, exec_queueDelete, execQueueDelete, actOn_some found]
  simp only [target]
  rfl

/-! ### Queue Restart (R115, R146) -/

theorem exec_queueRestartResume (acc : Nat) (s : State) : exec (.queueRestartResume acc) s = execQueueRestartResume acc s := rfl

theorem exec_queueRestartDiscard (acc : Nat) (s : State) : exec (.queueRestartDiscard acc) s = execQueueRestartDiscard acc s := rfl

section
variable {s : State} {acc : Nat} {c : Command} (found : s.dev.startedOp acc 0x86 = some c) (allowed : s.dev.restartStatus c = none)
include found allowed

theorem queueRestartResume_gives (resume : (Pkt.cdwA c.pkt).testBit 16 = false) :
    Gives (.queueRestartResume acc) s ((((s.dev.unfreeze c.port c.named).each (s.dev.restarted c)
      (fun e a => e.reorder a)).succeed acc (s.dev.restarted c).length 0).stir) := by
  have asked : (s.dev.startedOp acc 0x86).filter (fun c => !(Pkt.cdwA c.pkt).testBit 16) = some c := by simp [found, resume]
  rw [Gives, exec_queueRestartResume, execQueueRestartResume, actOn_some asked]
  simp only [allowed]

theorem queueRestartDiscard_gives (discard : (Pkt.cdwA c.pkt).testBit 16 = true) :
    Gives (.queueRestartDiscard acc) s (s.dev.discardHeld c).stir := by
  have asked : (s.dev.startedOp acc 0x86).filter (fun c => (Pkt.cdwA c.pkt).testBit 16) = some c := by simp [found, discard]
  rw [Gives, exec_queueRestartDiscard, execQueueRestartDiscard, actOn_some asked]
  simp only [allowed]
end

/-- A restart acts on what its queue's FIFO held as it started. -/
theorem Dev.mem_restarted (d : Dev) (c : Command) (a : Nat) :
    a ∈ d.restarted c ↔ ∃ x ∈ d.fifo c.port c.named, x.acc = a ∧ a < c.seen := by
  simp only [Dev.restarted, List.mem_map, List.mem_filter, decide_eq_true_eq]
  constructor
  · rintro ⟨x, ⟨mem, before⟩, rfl⟩
    exact ⟨x, mem, rfl, before⟩
  · rintro ⟨x, mem, rfl, before⟩
    exact ⟨x, ⟨mem, before⟩, rfl⟩

/-! ### Abort (R116, R117, R141, R147) -/

theorem exec_abort (acc : Nat) (s : State) : exec (.abort acc) s = execAbort acc s := rfl

section
variable {s : State} {acc : Nat} {c t : Command} (found : s.dev.startedOp acc 0x87 = some c)
  (target : s.dev.abortTarget c.port c.named (Pkt.cdwA c.pkt / 65536) = some t)
include found target

theorem abort_settled_gives (settled : t.settled = true) :
    Gives (.abort acc) s ((s.dev.commitWith acc { status := St.alreadyCompleted } [t.acc]).stir) := by
  rw [Gives, exec_abort, execAbort, actOn_some found]
  simp only [target, settled, if_true]

theorem abort_gives (unsettled : t.settled = false) :
    Gives (.abort acc) s (((if t.op = 0x09 && t.phase == .running && t.done.isNone then (s.dev.stopRefresh t.acc).endPasses
      else s.dev.endCmd t.acc St.aborted).commitWith acc
        { status := St.success, result := if t.phase == .held then 1 else 0 } [t.acc]).stir) := by
  rw [Gives, exec_abort, execAbort, actOn_some found]
  simp only [target, unsettled, Bool.false_eq_true, if_false]
end

/-- Settles O27: each clause is the rule above of its command. -/
theorem queueCommandsComplete : Obligations.QueueCommandsComplete := by
  refine ⟨fun s acc c u => queueCreate_gives, fun s acc c u => queueDelete_gives,
    fun s acc c found resume allowed => queueRestartResume_gives found allowed resume, Dev.mem_restarted,
    fun s acc c found discard allowed => queueRestartDiscard_gives found allowed discard,
    fun s acc c t found target unsettled other => ?_, fun s acc c t => abort_settled_gives,
    fun s acc c t found target unsettled refresh running undone => ?_⟩
  · simpa [other] using abort_gives found target unsettled
  · simpa [refresh, running, undone] using abort_gives found target unsettled

/-! ### What a failure leaves of the registers (R111, R436 to R439) -/

/-- A field of a register that no event record writes. -/
def Unrecorded (f : Fld) : Prop :=
  f.addr ≠ Reg.EV_DROPPED.dropped.addr ∧ f.addr ≠ Reg.EV_DROP_CAUSE.ring_full.addr ∧ f.addr ≠ Reg.EV_NEXT_SEQ.seq.addr

section
variable (d : Dev) {f : Fld}

theorem Dev.get_addSat_other {g : Fld} (n : Nat) (h : f.addr ≠ g.addr) : (d.addSat g n).get f = d.get f :=
  Dev.get_put_other _ _ _ _ h

@[simp] theorem Dev.raise_get (n : Nat) (f : Fld) : (d.raise n).get f = d.get f := Dev.get_eq_of_regs (d.raise_regs n) f

@[simp] theorem Dev.endGrants_get (a : Nat) (f : Fld) : (d.endGrants a).get f = d.get f := rfl

@[simp] theorem Dev.zeroDeficits_get (f : Fld) : d.zeroDeficits.get f = d.get f := rfl

@[simp] theorem Dev.releaseParts_get (c : Command) (f : Fld) : (d.releaseParts c).get f = d.get f := by
  unfold Dev.releaseParts Dev.releaseBuffer Dev.notePressure
  dsimp only
  split
  · simp
  · split <;> simp

@[simp] theorem Dev.commitWith_get (a : Nat) (r : Done) (after : List Nat) (f : Fld) : (d.commitWith a r after).get f = d.get f := by
  unfold Dev.commitWith
  split
  · rfl
  · split
    · rfl
    · unfold Dev.queueCompletion
      split <;> rfl

variable (h : Unrecorded f)
include h

theorem Dev.letIn_get (code src cls : Nat) (r : Bool) (p0 p1 p2 : Nat) : (d.letIn code src cls r p0 p1 p2).get f = d.get f := by
  obtain ⟨dropped, ringFull, seq⟩ := h
  have logFull : f.addr ≠ Reg.EV_DROP_CAUSE.log_full.addr := ringFull
  unfold Dev.letIn
  split
  · rw [Dev.get_addSat_other _ _ logFull, Dev.get_addSat_other _ _ dropped]
  · split
    · rw [Dev.get_addSat_other _ _ ringFull, Dev.get_addSat_other _ _ dropped]
    · dsimp only
      split
      · rw [Dev.raise_get, Dev.add, Dev.get_put_other _ _ _ _ seq]
        rfl
      · rw [Dev.add, Dev.get_put_other _ _ _ _ seq]
        rfl

theorem Dev.noticeOn_get (p code p0 p1 p2 : Nat) : (d.noticeOn p code p0 p1 p2).get f = d.get f := by
  unfold Dev.noticeOn
  split
  · rfl
  · split
    · rw [Dev.raise_get, Dev.letIn_get _ h, Dev.modPort_get]
    · split
      · rfl
      · exact Dev.modPort_get _ _ _ _

theorem Dev.record_get (code src cls : Nat) (r : Bool) (p0 p1 p2 : Nat) : (d.record code src cls r p0 p1 p2).get f = d.get f := by
  unfold Dev.record
  dsimp only
  split
  · rw [Dev.notice, Dev.each_keeps (fun e => e.get f) _ (fun e p => e.noticeOn_get h p _ _ _ _), Dev.raise_get]
    exact d.letIn_get h code src cls r p0 p1 p2
  · exact d.letIn_get h code src cls r p0 p1 p2

theorem Dev.freezeWith_get (p q : Nat) (c : Option Command) (status : BitVec 16) (lba : Option Qword) (detail : Nat) (src : Option Nat) :
    (d.freezeWith p q c status lba detail src).get f = d.get f := by
  unfold Dev.freezeWith
  split
  · rfl
  · dsimp only
    split
    · simp
    · simp [Dev.record_get _ h]

theorem Dev.failWith_get (acc : Nat) (r : Done) (detail : Nat) (src : Option Nat) : (d.failWith acc r detail src).get f = d.get f := by
  unfold Dev.failWith
  split
  · rfl
  · split
    · rfl
    · dsimp only
      split
      · simp [Dev.freezeWith_get _ h]
      · simp
end

/-! ### Age limits (R100) -/

theorem exec_setFeature (acc : Nat) (s : State) : exec (.setFeature acc) s = execSetFeature acc s := rfl

/-- A value that the feature does not take. -/
theorem setFeature_illegal_gives {s : State} {acc : Nat} {c : Command} (found : s.dev.startedOp acc 0x82 = some c)
    (writable : c.feature ≠ 6) (illegal : featureOk c.feature (Pkt.cdwB c.pkt 36 32) ≠ some true) :
    Gives (.setFeature acc) s (s.dev.fail acc St.invalidField) := by
  rw [Gives, exec_setFeature, execSetFeature, actOn_some found]
  simp only [writable, illegal, if_false]

theorem featureOk_ages_illegal {v : Nat} (h : bitsOf v 16 16 ≤ bitsOf v 0 16 ∨ bitsOf v 0 16 < 10 ∨ 10000 < bitsOf v 0 16 ∨
    bitsOf v 16 16 < 1000 ∨ 60000 < bitsOf v 16 16) : featureOk 2 v ≠ some true := by
  simp only [featureOk]
  norm_num
  omega

/-- The age limits lie outside the recorder's registers, on every port. -/
theorem ageLimits_unrecorded (p : Nat) :
    Unrecorded (qeReg p Reg.QE_AGE_CFG.promotion_ms) ∧ Unrecorded (qeReg p Reg.QE_AGE_CFG.hard_age_ms) := by
  simp only [Unrecorded, qeReg, Fld.at, Reg.QE_AGE_CFG.promotion_ms, Reg.QE_AGE_CFG.hard_age_ms, Reg.EV_DROPPED.dropped,
    Reg.EV_DROP_CAUSE.ring_full, Reg.EV_NEXT_SEQ.seq]
  omega

/-- Settles O26: the command fails, and a failure writes the recorder's registers at most. -/
theorem ageLimitsAreGuarded : Obligations.AgeLimitsAreGuarded := by
  intro s acc c found ages illegal
  have refused : featureOk c.feature (Pkt.cdwB c.pkt 36 32) ≠ some true := ages ▸ featureOk_ages_illegal illegal
  refine ⟨s.dev.fail acc St.invalidField, setFeature_illegal_gives found (by omega) refused, rfl, fun p => ?_⟩
  obtain ⟨promotion, hard⟩ := ageLimits_unrecorded p
  exact ⟨s.dev.failWith_get promotion acc _ 0 none, s.dev.failWith_get hard acc _ 0 none⟩

end Sys2Proof.Machine
end

section
/-! SUPPORT. The messages and waits of an activation (O31). -/

namespace Sys2Proof.Machine

/-! ### Messages that Warden owes (R353) -/

theorem exec_prepare (reason : Nat) (s : State) : exec (.prepare reason) s = execPrepare reason s := rfl

theorem exec_mailboxRelease (s : State) : exec .mailboxRelease s = execMailboxRelease s := rfl

theorem exec_eventRequest (core : Nat) (code : Byte) (p0 p1 p2 : Dword) (s : State) :
    exec (.eventRequest core code p0 p1 p2) s = execEventRequest core code p0 p1 p2 s := rfl

theorem prepare_gives {s : State} {reason : Nat} (owed : s.dev.owes 1 reason = true) :
    Gives (.prepare reason) s (s.dev.sendOwed 1 reason) := by
  rw [Gives, exec_prepare, execPrepare, act_true owed]

theorem mailboxRelease_gives {s : State} (owed : s.dev.owes 2 0 = true) : Gives .mailboxRelease s (s.dev.sendOwed 2 0) := by
  rw [Gives, exec_mailboxRelease, execMailboxRelease, act_true owed]

@[simp] theorem Dev.signal_cores (d : Dev) (p v : Nat) : (d.signal p v).cores = d.cores := by
  unfold Dev.signal
  dsimp only
  split
  · rfl
  · split
    · exact Dev.modPort_cores _ _ _
    · rfl

@[simp] theorem Dev.raise_toSend (d : Dev) (n : Nat) : (d.raise n).cores.toSend = d.cores.toSend := by
  unfold Dev.raise Dev.deliver
  dsimp only
  split
  · rw [Dev.signal_cores]
    rfl
  · rfl

@[simp] theorem Dev.mailDown_toSend (d : Dev) (kind reason : Nat) : (d.mailDown kind reason).cores.toSend = d.cores.toSend := by
  rw [Dev.mailDown, Dev.raise_toSend]
  rfl

/-- What is sent is no longer owed. -/
theorem Dev.sendOwed_toSend (d : Dev) (kind reason : Nat) :
    (d.sendOwed kind reason).cores.toSend = d.cores.toSend.erase (kind, reason) := by
  rw [Dev.sendOwed, Dev.mailDown_toSend]
  rfl

/-! ### Answers (R123, R362) -/

theorem exec_prepareAnswer (core : Nat) (refuse : Bool) (s : State) :
    exec (.prepareAnswer core refuse) s = execPrepareAnswer core refuse s := rfl

theorem exec_imageReady (core : Nat) (rev : BitVec 64) (s : State) : exec (.imageReady core rev) s = execImageReady core rev s := rfl

section
variable {s : State} {core : Nat} (runs : s.dev.coreRuns core = true) (warden : s.dev.wardenRuns = true)
include runs warden

theorem prepareAnswer_gives {refuse : Bool} {e : Dev} {a : Activation}
    (sent : e = s.dev.mailUp core 3 [(64, 8, if refuse then 1 else 0)]) (act_ : e.cores.act = some a) (waits : a.step = .waitAnswer) :
    Gives (.prepareAnswer core refuse) s (if refuse then e.activationRefused a else (e.setAct a .sendHalt).owe 4 0) := by
  have asked : e.cores.act.filter (fun a => a.step == .waitAnswer) = some a := by simp [act_, waits]
  subst sent
  rw [Gives, exec_prepareAnswer, execPrepareAnswer, act_true (by simp [runs, warden])]
  simp only [asked]

theorem eventRequest_gives (code : Byte) (p0 p1 p2 : Dword) :
    Gives (.eventRequest core code p0 p1 p2) s ((s.dev.mailUp core 6 [(64, 8, code.toNat), (96, 32, p0.toNat), (128, 32, p1.toNat),
      (160, 32, p2.toNat)]).record (0x0b00 + code.toNat) (Src.boltCore core) 0 true p0.toNat p1.toNat p2.toNat) := by
  rw [Gives, exec_eventRequest, execEventRequest, act_true (by simp [runs, warden])]

section
variable {rev : BitVec 64} {e f : Dev} (sent : e = s.dev.mailUp core 5 [(64, 64, rev.toNat)])
  (own : (e.slotImage 1 e.boltSlot).map (fun i => i.revision) = some rev.toNat) (first : e.bit Reg.BC_CTRL.ready = false)
  (ready : f = (e.flag Reg.BC_CTRL.ready true).raise Irq.imageReady)
include sent own first ready

/-- An image that starts at a wake is marked as ready. -/
theorem imageReady_idle_gives (idle : f.cores.act = none) : Gives (.imageReady core rev) s f := by
  subst sent ready
  rw [Gives, exec_imageReady, execImageReady, act_true (by simp [runs, warden])]
  simp [own, first, idle]

/-- One that an activation waits for goes on with it. -/
theorem imageReady_awaited_gives {a : Activation} (act_ : f.cores.act = some a) (waits : a.step = .waitReady) :
    Gives (.imageReady core rev) s (f.imageReady a) := by
  subst sent ready
  rw [Gives, exec_imageReady, execImageReady, act_true (by simp [runs, warden])]
  simp [own, first, act_, waits]
end
end

/-! ### Waits (R362) -/

theorem exec_activationPrepareTimeout (s : State) : exec .activationPrepareTimeout s = execActivationPrepareTimeout s := rfl

theorem exec_haltNotice (s : State) : exec .haltNotice s = execHaltNotice s := rfl

theorem exec_haltWaitExpiry (s : State) : exec .haltWaitExpiry s = execHaltWaitExpiry s := rfl

theorem exec_imageReadyTimeout (s : State) : exec .imageReadyTimeout s = execImageReadyTimeout s := rfl

theorem exec_activationHoldEnd (s : State) : exec .activationHoldEnd s = execActivationHoldEnd s := rfl

section
variable {s : State} {a : Activation} (act_ : s.dev.cores.act = some a)
include act_

theorem haltNotice_gives (owed : s.dev.owes 4 0 = true) :
    Gives .haltNotice s ((s.dev.sendOwed 4 0).setAct
      { a with start := if a.acc.isNone then (s.dev.sendOwed 4 0).now else a.start } (.haltWait (s.dev.sendOwed 4 0).now)) := by
  have due : (if s.dev.owes 4 0 then s.dev.cores.act else none) = some a := by rw [if_pos owed, act_]
  rw [Gives, exec_haltNotice, execHaltNotice, actOn_some due]

variable (warden : s.dev.wardenRuns = true)
include warden

theorem activationPrepareTimeout_gives (waits : a.step = .waitAnswer) (late : s.dev.expired a.start (msTicks 250) = true) :
    Gives .activationPrepareTimeout s (s.dev.activationRefused a) := by
  have silent : s.dev.cores.act.filter (fun a => a.step == .waitAnswer && s.dev.wardenRuns && s.dev.expired a.start (msTicks 250)) =
      some a := by simp [act_, waits, warden, late]
  rw [Gives, exec_activationPrepareTimeout, execActivationPrepareTimeout, actOn_some silent]

theorem haltWaitExpiry_gives {t : Nat} (waits : a.step = .haltWait t) (late : s.dev.expired t (msTicks 1) = true) :
    Gives .haltWaitExpiry s ((s.dev.launch a.slot).setAct a .waitReady) := by
  rw [Gives, exec_haltWaitExpiry, execHaltWaitExpiry, actOn_some (a := a)]
  simp [act_, waits, warden, late]

/-- An activation whose image stays silent starts the old image again. -/
theorem imageReadyTimeout_gives (waits : a.step = .waitReady) (commanded : a.acc.isSome = true)
    (late : s.dev.expired a.start (msTicks 1500) = true) :
    Gives .imageReadyTimeout s (((s.dev.launch a.old).setAct a (.oldImage s.dev.now)).activateResult a St.activationFailed) := by
  have due : (if s.dev.wardenRuns then s.dev.cores.act else none) = some a := by rw [if_pos warden, act_]
  have own : a.acc.isNone = false := by rw [← Option.not_isSome, commanded, Bool.not_true]
  rw [Gives, exec_imageReadyTimeout, execImageReadyTimeout, actOn_some due]
  simp [waits, late, own]
end

theorem activationHoldEnd_gives {s : State} {t : Nat} (held : s.dev.qe.hold = some t) (late : s.dev.expired t (msTicks 2000) = true) :
    Gives .activationHoldEnd s s.dev.endHold := by
  rw [Gives, exec_activationHoldEnd, execActivationHoldEnd, act_true]
  simp only [held, late]

/-- Settles O31: each clause is the rule above of the message or the wait it names. -/
theorem activationStepsComplete : Obligations.ActivationStepsComplete := by
  refine ⟨fun s reason => prepare_gives, fun s => mailboxRelease_gives,
    fun s core refuse e a runs warden => prepareAnswer_gives runs warden,
    fun s a act_ waits warden late => activationPrepareTimeout_gives act_ warden waits late, fun s a owed act_ => ?_,
    fun s a t act_ waits warden late => haltWaitExpiry_gives act_ warden waits late,
    fun s core rev e f runs warden sent own first ready => ⟨?_, fun a => ?_⟩,
    fun s a warden act_ => imageReadyTimeout_gives act_ warden, fun s t => activationHoldEnd_gives,
    fun s core code p0 p1 p2 runs warden => eventRequest_gives runs warden code p0 p1 p2⟩
  · exact ⟨_, haltNotice_gives act_ owed, _, rfl, ⟨_, rfl⟩, rfl, rfl, s.dev.sendOwed_toSend 4 0⟩
  · exact imageReady_idle_gives runs warden sent own first ready
  · exact imageReady_awaited_gives runs warden sent own first ready

end Sys2Proof.Machine
end

section
/-! SUPPORT. The peer commands (O24). -/

namespace Sys2Proof.Machine

theorem exec_peerWriteRequest (p w off len : Nat) (be : Bool) (pkt : Packet) (s : State) :
    exec (.peerWriteRequest p w off len be pkt) s = execPeerWriteRequest p w off len be pkt s := rfl

theorem exec_peerTransferReady (p w : Nat) (pkt : Rec256) (s : State) :
    exec (.peerTransferReady p w pkt) s = execPeerTransferReady p w pkt s := rfl

theorem exec_peerCompletion (p w : Nat) (pkt : Rec256) (s : State) :
    exec (.peerCompletion p w pkt) s = execPeerCompletion p w pkt s := rfl

theorem exec_peerWaitTimeout (acc : Nat) (s : State) : exec (.peerWaitTimeout acc) s = execPeerWaitTimeout acc s := rfl

/-! ### The target's side (R139, R339, R340) -/

/-- A port whose peer queue exists and that is up takes a whole, proper request of a node that does not already hold 64. -/
theorem peerWriteRequest_gives {s : State} {p w off : Nat} {pkt : Packet} (mem : s.dev.takesMemory p = true)
    (window : s.dev.image.bar4 = true) (lt : w < 512) (aligned : off % 64 = 0) (made : (s.dev.queue p peerQ).isSome = true)
    (up : (s.dev.port p).state ≠ .booting) (alive : (s.dev.port p).state ≠ .deadbolt) (running : s.dev.qe.dead = false)
    (open_ : s.dev.qe.haspDrop = false) (proper : peerBad pkt w = false) (room : s.dev.peerHeld p w < 64) :
    Gives (.peerWriteRequest p w off 64 true pkt) s (s.dev.peerAccept p pkt) := by
  have present : (s.dev.queue p peerQ).isNone = false := by rw [← Option.not_isSome, made, Bool.not_true]
  rw [Gives, exec_peerWriteRequest, execPeerWriteRequest, act_true (by simp [mem, window, lt])]
  simp [open_, present, up, alive, running, aligned, proper, room]

/-! ### The source's side (R140, R341) -/

section
variable {d : Dev} {p w : Nat} {pkt : Rec256} {c : Command} (owner : d.requestOwner p w (fld pkt 16 16) = some c)
include owner

/-- The command that waits for the slot is granted it, and sends its granule. -/
theorem Dev.peerReady_granted {r : BitVec 16} {t : Nat} (waits : c.peerStep = .waitReady r t) :
    d.peerReady p w pkt =
      (d.modCmd c.acc (fun x => { x with peerStep := .granted r (fld pkt 64 20) (fld pkt 96 16) })).peerPush c.acc := by
  simp only [Dev.peerReady, owner, waits]

/-- The last granule to be completed ends the command. -/
theorem Dev.peerCompleted_last (success : fld pkt 32 16 = 0) (last : c.parts.length ≤ c.peerCount + 1) :
    d.peerCompleted p w pkt = ((d.modCmd c.acc (fun x => { x with
      peerCount := c.peerCount + 1
      peerStep := .idle })).succeed c.acc (c.peerCount + 1) 0).stir := by
  simp only [Dev.peerCompleted, owner, success, last, ne_eq, not_true_eq_false, if_false, if_true]
end

section
variable {s : State} {p w : Nat} {pkt : Rec256} (mem : s.dev.takesMemory p = true) (window : s.dev.image.bar4 = true) (lt : w < 512)
include mem window lt

theorem peerTransferReady_gives (type : ringType pkt = 2) : Gives (.peerTransferReady p w pkt) s (s.dev.peerReady p w pkt) := by
  rw [Gives, exec_peerTransferReady, execPeerTransferReady, act_true (by simp [mem, window, lt, type])]

theorem peerCompletion_gives (type : ringType pkt = 1) : Gives (.peerCompletion p w pkt) s (s.dev.peerCompleted p w pkt) := by
  rw [Gives, exec_peerCompletion, execPeerCompletion, act_true (by simp [mem, window, lt, type])]
end

/-- A wait that has lasted QE_DATA_TIMEOUT fails the copy with status word 0. -/
theorem peerWaitTimeout_gives {s : State} {acc t : Nat} {c : Command} (running : s.dev.runningCmd acc = some c) (copy : c.op = 0x08)
    (waits : c.peerWait = some t) (late : s.dev.expired t (msTicks (s.dev.get (qeReg c.port Reg.QE_DATA_TIMEOUT.timeout_ms))) = true) :
    Gives (.peerWaitTimeout acc) s (s.dev.peerFailed c 0) := by
  have found : (s.dev.runningCmd acc).filter (fun c => c.op = 0x08) = some c := by simp [running, copy]
  rw [Gives, exec_peerWaitTimeout, execPeerWaitTimeout, actOn_some found]
  simp only [waits, late, if_true]

/-- Settles O24: each clause is the rule above of the packet or the wait it names. -/
theorem peerCommandsComplete : Obligations.PeerCommandsComplete := by
  refine ⟨fun s p w off pkt => peerWriteRequest_gives, fun s p w pkt c r t mem window lt type owner waits => ?_,
    fun s p w pkt c mem window lt type owner success last => ?_, fun s acc t c => peerWaitTimeout_gives⟩
  · rw [← Dev.peerReady_granted owner waits]
    exact peerTransferReady_gives mem window lt type
  · rw [← Dev.peerCompleted_last owner success last]
    exact peerCompletion_gives mem window lt type

end Sys2Proof.Machine
end

section
/-! SUPPORT. Pages, download pieces and features (O25). -/

namespace Sys2Proof.Machine

/-! ### Pages and pieces (R142, R143, R148) -/

theorem exec_identify (acc : Nat) (s : State) : exec (.identify acc) s = execIdentify acc s := rfl

theorem exec_getLog (acc : Nat) (s : State) : exec (.getLog acc) s = execGetLog acc s := rfl

theorem exec_firmwareDownloadPiece (acc : Nat) (s : State) :
    exec (.firmwareDownloadPiece acc) s = execFirmwareDownloadPiece acc s := rfl

section
variable {s : State} {acc : Nat} {c : Command}

theorem identify_gives (found : s.dev.startedOp acc 0x80 = some c) :
    Gives (.identify acc) s (s.dev.beginOut c (s.dev.identifyPage c) 0 4096 0) := by
  rw [Gives, exec_identify, execIdentify, actOn_some found]

/-- A range of whole words that lies in the page, 4 bytes to 4 MiB long. -/
theorem getLog_gives {page total : Nat} (found : s.dev.startedOp acc 0x81 = some c)
    (exists_ : s.dev.logPage c.port (Pkt.cdwA c.pkt % 256) = some (page, total)) (offset : Pkt.cdwB c.pkt 36 64 % 4 = 0)
    (words : Pkt.cdwB c.pkt 44 32 % 4 = 0) (least : 4 ≤ Pkt.cdwB c.pkt 44 32) (most : Pkt.cdwB c.pkt 44 32 ≤ 4194304)
    (inside : Pkt.cdwB c.pkt 36 64 + Pkt.cdwB c.pkt 44 32 ≤ total) :
    Gives (.getLog acc) s (s.dev.beginOut c page (Pkt.cdwB c.pkt 36 64) (Pkt.cdwB c.pkt 44 32) total) := by
  rw [Gives, exec_getLog, execGetLog, actOn_some found]
  simp [exists_, offset, words, least, most, inside]

theorem firmwareDownloadPiece_gives (found : s.dev.startedOp acc 0x88 = some c) (piece : Pkt.cdwA c.pkt % 2 = 0) :
    Gives (.firmwareDownloadPiece acc) s (s.dev.modCmd acc (fun x => { x with
      phase := .running
      fetch := some (fetchOf x.pkt (Pkt.nlb x.pkt * 4096)) })) := by
  have asked : (s.dev.startedOp acc 0x88).filter (fun c => Pkt.cdwA c.pkt % 2 = 0) = some c := by simp [found, piece]
  rw [Gives, exec_firmwareDownloadPiece, execFirmwareDownloadPiece, actOn_some asked]

/-! ### Set Feature and Get Feature (R144) -/

theorem exec_getFeature (acc : Nat) (s : State) : exec (.getFeature acc) s = execGetFeature acc s := rfl

theorem setFeature_legal_gives (found : s.dev.startedOp acc 0x82 = some c) (writable : c.feature ≠ 6)
    (legal : featureOk c.feature (Pkt.cdwB c.pkt 36 32) = some true) :
    Gives (.setFeature acc) s ((s.dev.writeFeature c.port c.feature (Pkt.cdwB c.pkt 36 32)).succeed acc 0 0) := by
  rw [Gives, exec_setFeature, execSetFeature, actOn_some found]
  simp only [writable, legal, if_false, if_true]

theorem getFeature_gives {v : Nat} (found : s.dev.startedOp acc 0x83 = some c) (value : s.dev.readFeature c.port c.feature = some v) :
    Gives (.getFeature acc) s (s.dev.succeed acc v 0) := by
  rw [Gives, exec_getFeature, execGetFeature, actOn_some found]
  simp only [value]
end

/-! ### A feature reads back as it was set (R144) -/

/-- The features that can be set. -/
theorem featureOk_id {id v : Nat} (legal : featureOk id v = some true) : id = 1 ∨ id = 2 ∨ id = 3 ∨ id = 4 ∨ id = 5 := by
  by_contra! other
  obtain ⟨one, two, three, four, five⟩ := other
  simp [featureOk, one, two, three, four, five] at legal

/-- Words that agree on two fields side by side agree on both together. -/
theorem bitsOf_eq_of_parts {v w lo m n : Nat} (low : bitsOf v lo m = bitsOf w lo m) (high : bitsOf v (lo + m) n = bitsOf w (lo + m) n) :
    bitsOf v lo (m + n) = bitsOf w lo (m + n) := by
  simp only [bitsOf, Nat.shiftRight_add, Nat.shiftRight_eq_div_pow _ m] at low high ⊢
  rw [pow_add, Nat.mod_mul, Nat.mod_mul, low, high]

theorem bitsOf_zero_of_lt {v n : Nat} (h : v < 2 ^ n) : bitsOf v 0 n = v := Nat.mod_eq_of_lt h

/-- Where a register agrees with a word below a field, and the field takes the word's bits, they agree up to the field's end. -/
theorem Dev.reg_put_agrees {d : Dev} {f : Fld} {v a l w : Nat} (m : Nat) (field : f = ⟨a, l, w⟩) (ends : l + w = m) (fits : m ≤ 64)
    (below : bitsOf (d.reg a) 0 l = bitsOf v 0 l) : bitsOf ((d.put f (bitsOf v l w)).reg a) 0 m = bitsOf v 0 m := by
  subst field ends
  have kept : bitsOf ((d.put ⟨a, l, w⟩ (bitsOf v l w)).reg a) 0 l = bitsOf (d.reg a) 0 l :=
    d.get_put_apart _ ⟨a, 0, l⟩ _ fits (.inr (by simp))
  have taken : bitsOf ((d.put ⟨a, l, w⟩ (bitsOf v l w)).reg a) l w = bitsOf v l w :=
    (d.get_put_same ⟨a, l, w⟩ _ fits).trans (Nat.mod_mod _ _)
  exact bitsOf_eq_of_parts (kept.trans below) (by rwa [Nat.zero_add])

/-- A register and a word agree on no bits. -/
theorem bitsOf_none (v w : Nat) : bitsOf v 0 0 = bitsOf w 0 0 := by simp only [bitsOf, pow_zero, Nat.mod_one]

section
variable (d : Dev) (p : Nat) {v : Nat}

/-- The four weights fill their register's word. -/
theorem Dev.readFeature_weights (word : v < 2 ^ 32) : (d.writeFeature p 1 v).readFeature p 1 = some v := by
  have w0 := Dev.reg_put_agrees (d := d) (f := qeReg p Reg.QE_ARB_WEIGHT.w0) 8 rfl rfl (by decide) (bitsOf_none _ v)
  have w1 := Dev.reg_put_agrees (f := qeReg p Reg.QE_ARB_WEIGHT.w1) 16 rfl rfl (by decide) w0
  have w2 := Dev.reg_put_agrees (f := qeReg p Reg.QE_ARB_WEIGHT.w2) 24 rfl rfl (by decide) w1
  have w3 := Dev.reg_put_agrees (f := qeReg p Reg.QE_ARB_WEIGHT.w3) 32 rfl rfl (by decide) w2
  exact congrArg some (w3.trans (bitsOf_zero_of_lt word))

/-- The two age limits fill theirs. -/
theorem Dev.readFeature_ages (word : v < 2 ^ 32) : (d.writeFeature p 2 v).readFeature p 2 = some v := by
  have promotion := Dev.reg_put_agrees (d := d) (f := qeReg p Reg.QE_AGE_CFG.promotion_ms) 16 rfl rfl (by decide) (bitsOf_none _ v)
  have hard := Dev.reg_put_agrees (f := qeReg p Reg.QE_AGE_CFG.hard_age_ms) 32 rfl rfl (by decide) promotion
  exact congrArg some (hard.trans (bitsOf_zero_of_lt word))

theorem Dev.readFeature_timeout (legal : featureOk 3 v = some true) : (d.writeFeature p 3 v).readFeature p 3 = some v := by
  have most : v ≤ 60000 := by simp [featureOk] at legal; omega
  have read : (d.put (qeReg p Reg.QE_DATA_TIMEOUT.timeout_ms) v).get (qeReg p Reg.QE_DATA_TIMEOUT.timeout_ms) = v % 2 ^ 17 :=
    d.get_put_same _ v (show 0 + 17 ≤ 64 by decide)
  exact congrArg some (read.trans (Nat.mod_eq_of_lt (by omega)))

theorem Dev.readFeature_notices (legal : featureOk 4 v = some true) : (d.writeFeature p 4 v).readFeature p 4 = some v := by
  have byte : v < 256 := by simpa [featureOk] using legal
  simp [Dev.writeFeature, Dev.readFeature, byte]

theorem Dev.readFeature_peers (legal : featureOk 5 v = some true) : (d.writeFeature p 5 v).readFeature p 5 = some v := by
  have half : v < 65536 := by simpa [featureOk] using legal
  simp [Dev.writeFeature, Dev.readFeature, half]
end

theorem Dev.readFeature_writeFeature (d : Dev) (p : Nat) {id v : Nat} (word : v < 2 ^ 32) (legal : featureOk id v = some true) :
    (d.writeFeature p id v).readFeature p id = some v := by
  rcases featureOk_id legal with rfl | rfl | rfl | rfl | rfl
  · exact d.readFeature_weights p word
  · exact d.readFeature_ages p word
  · exact d.readFeature_timeout p legal
  · exact d.readFeature_notices p legal
  · exact d.readFeature_peers p legal

/-- Settles O25: each clause is the rule above of its command, and every feature that can be set reads back. -/
theorem pagesAndFeaturesComplete : Obligations.PagesAndFeaturesComplete :=
  ⟨fun _ _ _ => identify_gives, fun _ _ _ _ _ => getLog_gives, fun _ _ _ => firmwareDownloadPiece_gives,
    fun _ _ _ => setFeature_legal_gives, fun _ _ _ _ => getFeature_gives,
    fun d p _ _ _ word _ => d.readFeature_writeFeature p word⟩

end Sys2Proof.Machine
end

section
/-! SUPPORT. Stop, Event Log Clear, Set Wall Time, Seal and the domain commands (O28). -/

namespace Sys2Proof.Machine

theorem exec_stop (acc : Nat) (s : State) : exec (.stop acc) s = execStop acc s := rfl

theorem exec_eventLogClear (acc : Nat) (s : State) : exec (.eventLogClear acc) s = execEventLogClear acc s := rfl

theorem exec_setWallTime (acc : Nat) (s : State) : exec (.setWallTime acc) s = execSetWallTime acc s := rfl

theorem exec_seal (acc : Nat) (s : State) : exec (.seal acc) s = execSeal acc s := rfl

theorem exec_domainJoin (acc : Nat) (s : State) : exec (.domainJoin acc) s = execDomainJoin acc s := rfl

theorem exec_domainLeave (acc : Nat) (s : State) : exec (.domainLeave acc) s = execDomainLeave acc s := rfl

section
variable {s : State} {acc : Nat} {c : Command}

theorem stop_gives (ready : s.dev.mayPrepare = true) (found : s.dev.startedOp acc 0x8a = some c) :
    Gives (.stop acc) s ((s.dev.modCmd acc (fun x => { x with phase := .running })).beginPrepare (some acc)) := by
  have due : (if s.dev.mayPrepare then s.dev.startedOp acc 0x8a else none) = some c := by rw [if_pos ready, found]
  rw [Gives, exec_stop, execStop, actOn_some due]

theorem eventLogClear_gives (found : s.dev.startedOp acc 0x8b = some c) :
    Gives (.eventLogClear acc) s ((s.dev.modCmd acc (fun x => { x with phase := .running })).modEv
      (fun e => { e with asked := e.asked ++ [(c.port, some acc)] })) := by
  rw [Gives, exec_eventLogClear, execEventLogClear, actOn_some found]

theorem setWallTime_gives (found : s.dev.startedOp acc 0x8e = some c) (nonzero : Pkt.cdwB c.pkt 36 64 ≠ 0) :
    Gives (.setWallTime acc) s ((s.dev.modHost (fun h => { h with
      wall := some (Pkt.cdwB c.pkt 36 64, s.dev.now)
      wallAcc := acc })).modCmd acc (fun x => { x with phase := .running })) := by
  rw [Gives, exec_setWallTime, execSetWallTime, actOn_some found]
  simp only [nonzero, if_false]

/-- A Seal with its key word, on a device that is not Sealed. -/
theorem seal_gives (found : s.dev.startedOp acc 0x8f = some c) (word : Pkt.cdwA c.pkt = 0x5ea1) (unsealed : s.dev.isSealed = false) :
    Gives (.seal acc) s ((s.dev.modCmd acc (fun x => { x with
      phase := .running
      cover := s.dev.undurableIn 0 })).stir) := by
  rw [Gives, exec_seal, execSeal, actOn_some found]
  simp [word, unsealed]

/-! ### The domain (R158) -/

/-- Without a Peer Copy Out or a peer write outstanding the domain changes. -/
theorem Dev.setDomain_idle {d : Dev} (acc : Nat) (dom : Option (Qword × Nat)) (idle : d.peerWork = false) :
    d.setDomain acc dom = (d.modHost (fun h => { h with domain := dom })).succeed acc 0 0 := by
  simp [Dev.setDomain, idle]

variable (found : s.dev.startedOp acc 0x90 = some c) (idle : s.dev.peerWork = false)
include found idle

theorem domainJoin_gives (join : Pkt.cdwA c.pkt % 2 = 0) :
    Gives (.domainJoin acc) s ((s.dev.modHost (fun h => { h with
      domain := some (BitVec.ofNat 64 (Pkt.cdwB c.pkt 36 64), Pkt.cdwB c.pkt 44 16) })).succeed acc 0 0) := by
  have asked : (s.dev.startedOp acc 0x90).filter (fun c => Pkt.cdwA c.pkt % 2 = 0) = some c := by simp [found, join]
  rw [Gives, exec_domainJoin, execDomainJoin, actOn_some asked, Dev.setDomain_idle _ _ idle]

theorem domainLeave_gives (leave : Pkt.cdwA c.pkt % 2 = 1) :
    Gives (.domainLeave acc) s ((s.dev.modHost (fun h => { h with domain := none })).succeed acc 0 0) := by
  have asked : (s.dev.startedOp acc 0x90).filter (fun c => Pkt.cdwA c.pkt % 2 = 1) = some c := by simp [found, leave]
  rw [Gives, exec_domainLeave, execDomainLeave, actOn_some asked, Dev.setDomain_idle _ _ idle]
end

/-- Settles O28: each clause is the rule above of its command. -/
theorem controlCommandsComplete : Obligations.ControlCommandsComplete :=
  ⟨fun _ _ _ => stop_gives, fun _ _ _ => eventLogClear_gives, fun _ _ _ => setWallTime_gives, fun _ _ _ => seal_gives,
    fun _ _ _ found join idle => domainJoin_gives found idle join, fun _ _ _ found leave idle => domainLeave_gives found idle leave⟩

end Sys2Proof.Machine
end

section
/-! SUPPORT. Namespace Manage, Key Manage and CX's key slots (O29). -/

namespace Sys2Proof.Machine

theorem Dev.serialCmd_operand {d : Dev} {acc op : Nat} {f : Nat → Bool} {c : Command} (h : d.serialCmd acc op f = some c) :
    f (Pkt.cdwA c.pkt) = true := by
  have kept := (Option.filter_eq_some_iff.mp h).2
  rw [Bool.and_eq_true] at kept
  exact kept.1

/-! ### Namespace Manage (R153) -/

theorem exec_namespaceCreate (acc : Nat) (blob : BitVec 1536) (s : State) :
    exec (.namespaceCreate acc blob) s = execNamespaceCreate acc blob s := rfl

theorem exec_namespaceDelete (acc : Nat) (s : State) : exec (.namespaceDelete acc) s = execNamespaceDelete acc s := rfl

section
variable {s : State} {acc ns : Nat} (blob : BitVec 1536) {c : Command}
  (turn : s.dev.serialCmd acc 0x8c (fun a => a % 4 = 0) = some c)
  (free : ((List.range 16).map (fun i => i + 1)).find? (fun n => !s.dev.mp.ns.has n) = some ns)
  (room : Pkt.cdwB c.pkt 36 64 ≤ s.dev.freeBlocks) (idle : s.dev.nsBusy acc ns = false)
include turn free room idle

theorem namespaceCreate_drawn_gives (drawn : (Pkt.cdwA c.pkt).testBit 8 = false) :
    Gives (.namespaceCreate acc blob) s ((s.dev.drawKey 63).2.makeNs acc ns (Pkt.cdwB c.pkt 36 64) 0 (s.dev.drawKey 63).1) := by
  rw [Gives, exec_namespaceCreate, execNamespaceCreate, actOn_some turn]
  simp only [free, Nat.not_lt.mpr room, idle, drawn, Bool.false_eq_true, if_false]

variable (wrapped : (Pkt.cdwA c.pkt).testBit 8 = true)
include wrapped

theorem namespaceCreate_wrapped_gives {k : BitVec 512} (good : unwrapBlob 0 blob = some k) :
    Gives (.namespaceCreate acc blob) s (s.dev.makeNs acc ns (Pkt.cdwB c.pkt 36 64) 1 k) := by
  rw [Gives, exec_namespaceCreate, execNamespaceCreate, actOn_some turn]
  simp only [free, Nat.not_lt.mpr room, idle, wrapped, good, Bool.false_eq_true, if_false, if_true]

theorem namespaceCreate_refused_gives (bad : unwrapBlob 0 blob = none) :
    Gives (.namespaceCreate acc blob) s (s.dev.fail acc St.authenticationFailed) := by
  rw [Gives, exec_namespaceCreate, execNamespaceCreate, actOn_some turn]
  simp only [free, Nat.not_lt.mpr room, idle, wrapped, bad, Bool.false_eq_true, if_false, if_true]
end

section
variable {s : State} {acc : Nat} {c : Command}

theorem namespaceDelete_gives (turn : s.dev.serialCmd acc 0x8c (fun a => a % 4 = 1) = some c)
    (idle : s.dev.nsBusy acc (Pkt.nsid c.pkt) = false) (clear : s.dev.cxBusy (Pkt.nsid c.pkt) = false) :
    Gives (.namespaceDelete acc) s (((s.dev.deleteNs (Pkt.nsid c.pkt)).awaitCkpt acc 0).stir) := by
  rw [Gives, exec_namespaceDelete, execNamespaceDelete, actOn_some turn]
  simp [idle, clear]

/-! ### Key Manage (R154, R155, R457 to R460) -/

theorem exec_generate (acc : Nat) (s : State) : exec (.generate acc) s = execGenerate acc s := rfl

theorem exec_wrapIn (acc : Nat) (blob : BitVec 1536) (s : State) : exec (.wrapIn acc blob) s = execWrapIn acc blob s := rfl

theorem exec_enrolOperatorKey (acc : Nat) (blob : BitVec 2560) (s : State) :
    exec (.enrolOperatorKey acc blob) s = execEnrolOperatorKey acc blob s := rfl

theorem exec_revokeOperatorKey (acc : Nat) (blob : BitVec 2560) (s : State) :
    exec (.revokeOperatorKey acc blob) s = execRevokeOperatorKey acc blob s := rfl

theorem exec_enrolMaintenanceKey (acc : Nat) (blob : BitVec 2560) (s : State) :
    exec (.enrolMaintenanceKey acc blob) s = execEnrolMaintenanceKey acc blob s := rfl

theorem generate_gives (turn : s.dev.serialCmd acc 0x8d (fun a => a % 16 = 0) = some c)
    (alone : s.dev.nsNamed acc (Pkt.nsid c.pkt) = false) :
    Gives (.generate acc) s ((s.dev.drawKey 63).2.beginRekey c (s.dev.drawKey 63).1) := by
  rw [Gives, exec_generate, execGenerate, actOn_some turn]
  simp [alone]

section
variable {blob : BitVec 1536} (turn : s.dev.serialCmd acc 0x8d (fun a => a % 16 = 1) = some c)
  (alone : s.dev.nsNamed acc (Pkt.nsid c.pkt) = false)
include turn alone

theorem wrapIn_gives {k : BitVec 512} (good : unwrapBlob (Pkt.nsid c.pkt) blob = some k) :
    Gives (.wrapIn acc blob) s (s.dev.beginRekey c k) := by
  rw [Gives, exec_wrapIn, execWrapIn, actOn_some turn]
  simp only [alone, good, Bool.false_eq_true, if_false]

theorem wrapIn_refused_gives (bad : unwrapBlob (Pkt.nsid c.pkt) blob = none) :
    Gives (.wrapIn acc blob) s (s.dev.keyFail c St.authenticationFailed) := by
  rw [Gives, exec_wrapIn, execWrapIn, actOn_some turn]
  simp only [alone, bad, Bool.false_eq_true, if_false]
end

variable (blob : BitVec 2560)

theorem enrolOperatorKey_gives (turn : s.dev.serialCmd acc 0x8d (fun a => a % 16 = 2) = some c) :
    Gives (.enrolOperatorKey acc blob) s
      (s.dev.blobCommand c c.opSlot blob (fun r => { r with ops := r.ops.set c.opSlot ⟨1, Blob.newKey blob⟩ })) := by
  rw [Gives, exec_enrolOperatorKey, execEnrolOperatorKey, actOn_some turn]

theorem enrolMaintenanceKey_gives (turn : s.dev.serialCmd acc 0x8d (fun a => a % 16 = 4) = some c) :
    Gives (.enrolMaintenanceKey acc blob) s (s.dev.blobCommand c 0 blob (fun r => { r with mnt := ⟨1, Blob.newKey blob⟩ })) := by
  rw [Gives, exec_enrolMaintenanceKey, execEnrolMaintenanceKey, actOn_some turn]

/-- A blob is checked against the action that the command names. -/
theorem Dev.blobCommand_action {d : Dev} {action : Nat} (slot : Nat) (f : KeyRec → KeyRec) (named : Pkt.cdwA c.pkt % 16 = action) :
    d.blobCommand c slot blob f = if blobOk d.keyRec d.activeSigner action slot blob
      then (d.writeKeys { f d.keyRec with seq := Blob.seq blob }).keyDone c
      else d.keyFail c St.authenticationFailed := by
  rw [Dev.blobCommand, named]

/-- A revocation that is accepted empties the Bolt slots which the revoked key signed. -/
theorem revokeOperatorKey_gives (turn : s.dev.serialCmd acc 0x8d (fun a => a % 16 = 3) = some c) :
    Gives (.revokeOperatorKey acc blob) s (if blobOk s.dev.keyRec s.dev.activeSigner 3 c.opSlot blob
      then ((s.dev.writeKeys { s.dev.keyRec with
        ops := s.dev.keyRec.ops.set c.opSlot ⟨2, 0⟩
        seq := Blob.seq blob }).keyDone c).emptySigned c.opSlot
      else s.dev.keyFail c St.authenticationFailed) := by
  have action : Pkt.cdwA c.pkt % 16 = 3 := of_decide_eq_true (Dev.serialCmd_operand turn)
  rw [Gives, exec_revokeOperatorKey, execRevokeOperatorKey, actOn_some turn]
  simp only [Dev.blobCommand_action blob _ _ action]
  cases blobOk s.dev.keyRec s.dev.activeSigner 3 c.opSlot blob with
  | true => simp only [if_true]
  | false => simp only [Bool.false_eq_true, if_false]
end

/-! ### CX's key slots (R257, R258) -/

theorem exec_cxKeyLoad (slot : Nat) (s : State) : exec (.cxKeyLoad slot) s = execCxKeyLoad slot s := rfl

theorem exec_cxKeyClear (slot : Nat) (s : State) : exec (.cxKeyClear slot) s = execCxKeyClear slot s := rfl

theorem exec_keyBusyCleared (slot : Nat) (s : State) : exec (.keyBusyCleared slot) s = execKeyBusyCleared slot s := rfl

/-- What crosses CX is the media scheduler's: no register says it. -/
@[simp] theorem Dev.put_cxBusy (d : Dev) (f : Fld) (v ns : Nat) : (d.put f v).cxBusy ns = d.cxBusy ns := rfl

theorem Dev.keyGo_idle {d : Dev} (load : Bool) {slot : Nat} (clear : d.cxBusy (slot + 1) = false) :
    d.keyGo load slot = ((d.put Reg.CX_KEY_CMD.action (if load then 0 else 1)).put Reg.CX_KEY_CMD.slot slot).keyCommand load slot := by
  simp [Dev.keyGo, clear]

section
variable {s : State} {slot : Nat} (open_ : s.dev.cxOpen = true)
include open_

theorem cxKeyLoad_gives (lt : slot < 16) : Gives (.cxKeyLoad slot) s (s.dev.keyGo true slot) := by
  rw [Gives, exec_cxKeyLoad, execCxKeyLoad, act_true (by simp [open_, lt])]

theorem cxKeyClear_gives (lt : slot < 16) : Gives (.cxKeyClear slot) s (s.dev.keyGo false slot) := by
  rw [Gives, exec_cxKeyClear, execCxKeyClear, act_true (by simp [open_, lt])]

/-- The command that waits for the slot takes effect, and waits no longer. -/
theorem keyBusyCleared_gives {w : Bool} (clear : s.dev.cxBusy (slot + 1) = false)
    (waits : s.dev.cx.waiting.find? (fun x => x.2 = slot) = some (w, slot)) :
    Gives (.keyBusyCleared slot) s ({ s.dev with cx := { s.dev.cx with
      waiting := s.dev.cx.waiting.filter (fun x => x.2 != slot) } }.keyCommand w slot) := by
  have due : (if s.dev.cxOpen && !s.dev.cxBusy (slot + 1) then s.dev.cx.waiting.find? (fun w => w.2 = slot) else none) =
      some (w, slot) := by simp [open_, clear, waits]
  rw [Gives, exec_keyBusyCleared, execKeyBusyCleared, actOn_some due]
end

section
variable (d : Dev) (slot : Nat) (k : BitVec 512)

@[simp] theorem Dev.raise_cx (n : Nat) : (d.raise n).cx = d.cx := congrArg (·.2.2.2.2.1) (d.raise_inner n)

@[simp] theorem Dev.event_cx (code src p0 p1 p2 : Nat) : (d.event code src p0 p1 p2).cx = d.cx :=
  congrArg (·.2.2.2.2.1) (d.event_inner code src p0 p1 p2)

/-- The event and the interrupt of a slot leave the slots as the load or the clear made them. -/
theorem Dev.setKey_load_slots : (d.setKey slot (some k)).cx.slots = d.cx.slots.put slot k := by
  rw [Dev.setKey, Dev.raise_cx, Dev.event_cx]
  rfl

theorem Dev.setKey_clear_slots : (d.setKey slot none).cx.slots = d.cx.slots.erase slot := by
  rw [Dev.setKey, Dev.raise_cx, Dev.event_cx]
  rfl

theorem Dev.loadKey_refused (weak : halvesEqual k = true) :
    d.loadKey slot k = (d.contained Src.keySlots Kind.keyLoadRefused slot 0 0).raise (Irq.cx 2) := if_pos weak
end

/-- Settles O29: each clause is the rule above of its command, or what a load and a clear make of the key slots. -/
theorem namespaceAndKeyCommandsComplete : Obligations.NamespaceAndKeyCommandsComplete := by
  refine ⟨fun s acc ns blob c turn free room idle => ⟨?_, fun wrapped => ?_⟩, fun s acc c => namespaceDelete_gives,
    fun s acc c => generate_gives, fun s acc blob c turn alone => ?_, fun s acc blob c => enrolOperatorKey_gives blob,
    fun s acc blob c => revokeOperatorKey_gives blob, fun s acc blob c => enrolMaintenanceKey_gives blob,
    fun s slot open_ lt clear => ⟨?_, ?_⟩, fun s slot w open_ => keyBusyCleared_gives open_,
    fun d slot k => ⟨?_, ?_, fun j other => ⟨?_, ?_⟩⟩, Dev.loadKey_refused⟩
  · exact namespaceCreate_drawn_gives blob turn free room idle
  · cases blobKey : unwrapBlob 0 blob with
    | some k => exact namespaceCreate_wrapped_gives blob turn free room idle wrapped blobKey
    | none => exact namespaceCreate_refused_gives blob turn free room idle wrapped blobKey
  · cases blobKey : unwrapBlob (Pkt.nsid c.pkt) blob with
    | some k => exact wrapIn_gives turn alone blobKey
    | none => exact wrapIn_refused_gives turn alone blobKey
  · exact Dev.keyGo_idle true clear ▸ cxKeyLoad_gives open_ lt
  · exact Dev.keyGo_idle false clear ▸ cxKeyClear_gives open_ lt
  · rw [Dev.setKey_load_slots, Tbl.find_put_same]
  · rw [Dev.setKey_clear_slots, Tbl.find_erase_same]
  · rw [Dev.setKey_load_slots, Tbl.find_put_other _ _ _ _ other]
  · rw [Dev.setKey_clear_slots, Tbl.find_erase_other _ _ _ other]

end Sys2Proof.Machine
end

section
/-! SUPPORT. Firmware Download commits and Firmware Activate (O30). -/

namespace Sys2Proof.Machine

theorem exec_firmwareDownloadCommit (acc : Nat) (ok : Bool) (s : State) :
    exec (.firmwareDownloadCommit acc ok) s = execFirmwareDownloadCommit acc ok s := rfl

theorem exec_firmwareActivateWarden (acc : Nat) (s : State) :
    exec (.firmwareActivateWarden acc) s = execFirmwareActivateWarden acc s := rfl

theorem exec_firmwareActivateBolt (acc : Nat) (s : State) : exec (.firmwareActivateBolt acc) s = execFirmwareActivateBolt acc s := rfl

/-! ### Commits (R148) -/

theorem firmwareDownloadCommit_gives {s : State} {acc kind : Nat} {ok : Bool} {c : Command} {r : BitVec 16 × Dev} {e : Dev}
    (turn : s.dev.serialCmd acc 0x88 (fun a => a % 2 = 1) = some c) (which : kind = 1 - bitsOf (Pkt.cdwA c.pkt) 1 1)
    (outcome : r = s.dev.commitImage kind (Pkt.cdwB c.pkt 36 32) s.dev.host.download ok)
    (emptied : e = r.2.modHost (fun h => { h with download := [] })) :
    Gives (.firmwareDownloadCommit acc ok) s (if r.1 = St.success then e.succeed acc (s.dev.idleSlot kind) 0 else e.fail acc r.1) := by
  subst which outcome emptied
  rw [Gives, exec_firmwareDownloadCommit, execFirmwareDownloadCommit, actOn_some turn]

/-! ### Activations (R123, R149, R362) -/

/-- The record of a Warden slot that the next wake starts: what the slots hold stays, the slot is marked, and an event says so. -/
def Dev.markWarden (d : Dev) (slot : Nat) : Dev :=
  let e := d.writeSlots (slotBoltActive d.slots) slot ((List.range 4).map (fun i => slotState d.slots i))
    ((List.range 4).map (fun i => slotSigner d.slots i)) ((List.range 4).map (fun i => slotRevision d.slots i))
  (e.flag Reg.WD_STATUS.next_marked (slot != e.wardenSlot)).event 0x0c02 Src.wardenFw slot 0 0

theorem firmwareActivateWarden_gives {s : State} {acc : Nat} {c : Command}
    (turn : s.dev.serialCmd acc 0x89 (fun a => a % 2 = 1) = some c) (filled : slotState s.dev.slots (slotNo 0 c.fwSlot) = 1) :
    Gives (.firmwareActivateWarden acc) s ((s.dev.markWarden c.fwSlot).succeed acc 0 0) := by
  rw [Gives, exec_firmwareActivateWarden, execFirmwareActivateWarden, actOn_some turn]
  simp only [filled, ne_eq, not_true_eq_false, if_false]
  rfl

/-- The device that holds its queues for the activation of command acc. -/
def Dev.holdQueues (d : Dev) (acc : Nat) : Dev :=
  (((d.modCmd acc (fun x => { x with phase := .running })).modQe (fun e => { e with hold := some d.now })).zeroDeficits).raise
    Irq.activateBegun

/-- Step 1 of an activation (R362): the queues are held, and Warden owes Prepare. -/
def Dev.beginActivation (d : Dev) (acc slot : Nat) : Dev :=
  ((d.holdQueues acc).modCores (fun k => { k with
    act := some ⟨some acc, .waitAnswer, (d.holdQueues acc).now, slot, (d.holdQueues acc).boltSlot⟩ })).owe 1 2

theorem firmwareActivateBolt_gives {s : State} {acc : Nat} {c : Command}
    (turn : s.dev.serialCmd acc 0x89 (fun a => a % 2 = 0) = some c) (filled : slotState s.dev.slots (slotNo 1 c.fwSlot) = 1)
    (settled : s.dev.pw.hasp = none) (idle : s.dev.cores.act = none) :
    Gives (.firmwareActivateBolt acc) s (s.dev.beginActivation acc c.fwSlot) := by
  rw [Gives, exec_firmwareActivateBolt, execFirmwareActivateBolt, actOn_some turn]
  simp only [filled, settled, idle, ne_eq, not_true_eq_false, Option.isSome_none, Bool.or_self, Bool.false_eq_true, if_false]
  rfl

section
variable (d : Dev) (acc : Nat)

@[simp] theorem Dev.zeroDeficits_hold : d.zeroDeficits.qe.hold = d.qe.hold := rfl

@[simp] theorem Dev.zeroDeficits_cores : d.zeroDeficits.cores = d.cores := rfl

theorem Dev.holdQueues_hold : (d.holdQueues acc).qe.hold = some d.now := by
  rw [Dev.holdQueues, Dev.raise_qe, Dev.zeroDeficits_hold, Dev.modQe_qe]

theorem Dev.holdQueues_inner : (d.holdQueues acc).inner = d.inner := by
  simp [Dev.holdQueues]

theorem Dev.holdQueues_toSend : (d.holdQueues acc).cores.toSend = d.cores.toSend := by
  rw [Dev.holdQueues, Dev.raise_toSend, Dev.zeroDeficits_cores, Dev.modQe_cores, Dev.modCmd_cores]

theorem Dev.holdQueues_now : (d.holdQueues acc).now = d.now := by
  rw [Dev.now, Dev.holdQueues, Dev.raise_get, Dev.zeroDeficits_get, Dev.modQe_get, Dev.modCmd_get, Dev.now]
end

/-- Settles O30: each clause is the rule above of its command; holding the queues changes neither the NAND nor the code flash. -/
theorem firmwareCommandsComplete : Obligations.FirmwareCommandsComplete := by
  refine ⟨fun s acc kind ok c r e => firmwareDownloadCommit_gives, fun s acc c => firmwareActivateWarden_gives,
    fun s acc c turn filled settled idle => ⟨_, firmwareActivateBolt_gives turn filled settled idle, ?_⟩⟩
  obtain ⟨-, -, -, -, -, -, -, -, cf, -, -, -, -, nand⟩ := Dev.inner_eq (s.dev.holdQueues_inner acc)
  exact ⟨s.dev.holdQueues_hold acc, nand, cf, congrArg (· ++ [(1, 2)]) (s.dev.holdQueues_toSend acc), _, rfl, rfl, rfl, rfl,
    s.dev.holdQueues_now acc⟩

end Sys2Proof.Machine
end

section
/-! SUPPORT. Granule addresses, map entries and stamps read back (O6). -/

namespace Sys2Proof.Machine

/-! ### Physical granule addresses (R162) -/

theorem bitsOf_eq_div_mod (v lo n : Nat) : bitsOf v lo n = v / 2 ^ lo % 2 ^ n := by
  rw [bitsOf, Nat.shiftRight_eq_div_pow]

section
variable {lun block wl slot : Nat}

theorem Pga.slot_mk (slotLt : slot < 16) : Pga.slot (Pga.mk lun block wl slot) = slot := by
  simp only [Pga.slot, Pga.mk, bitsOf_eq_div_mod]
  omega

theorem Pga.wl_mk (wlLt : wl < 512) (slotLt : slot < 16) : Pga.wl (Pga.mk lun block wl slot) = wl := by
  simp only [Pga.wl, Pga.mk, bitsOf_eq_div_mod]
  omega

theorem Pga.block_mk (blockLt : block < 32768) (wlLt : wl < 512) (slotLt : slot < 16) :
    Pga.block (Pga.mk lun block wl slot) = block := by
  simp only [Pga.block, Pga.mk, bitsOf_eq_div_mod]
  omega

theorem Pga.dieLun_mk (lunLt : lun < 4096) (blockLt : block < 32768) (wlLt : wl < 512) (slotLt : slot < 16) :
    Pga.dieLun (Pga.mk lun block wl slot) = lun := by
  simp only [Pga.dieLun, Pga.mk, bitsOf_eq_div_mod]
  omega

/-- The channel and the LUN in the channel are the two parts of channel × 32 + LUN. -/
theorem Pga.channel_eq (a : Nat) : Pga.channel a = Pga.dieLun a / 32 := by
  simp only [Pga.channel, Pga.dieLun, bitsOf_eq_div_mod]
  omega

theorem Pga.lun_eq (a : Nat) : Pga.lun a = Pga.dieLun a % 32 := by
  simp only [Pga.lun, Pga.dieLun, bitsOf_eq_div_mod]
  omega

theorem Pga.set_mk (slotLt : slot < 16) : Pga.set (Pga.mk lun block wl slot) = Pga.mk lun block wl 0 := by
  rw [Pga.set, Pga.slot_mk slotLt, Pga.mk, Nat.add_sub_cancel, Pga.mk, Nat.add_zero]
end

/-! ### Map entries (R161) -/

theorem Ent.mk_fields (pga stamp : Nat) (t z b p : Bool) :
    ∀ f ∈ [(0, 40, pga), (40, 16, stamp), (56, 1, if t then 1 else 0), (57, 1, if z then 1 else 0), (58, 1, if b then 1 else 0),
      (59, 1, if p then 1 else 0)],
    fld (Ent.mk pga stamp t z b p) f.1 f.2.1 = f.2.2 % 2 ^ f.2.1 := fld_pack (by simp [FieldsFit])

/-- A flag packed as one bit is the bit that is read. -/
theorem flag_of_bit {n : Nat} {b : Bool} (h : n = (if b then 1 else 0) % 2 ^ 1) : decide (n = 1) = b := by
  cases b <;> simp [h]

theorem Ent.fields_mk {pga stamp : Nat} (t z b p : Bool) (pgaLt : pga < 2 ^ 40) (stampLt : stamp < 2 ^ 16) :
    Ent.pga (Ent.mk pga stamp t z b p) = pga ∧ Ent.stamp (Ent.mk pga stamp t z b p) = stamp ∧
    Ent.trimmed (Ent.mk pga stamp t z b p) = t ∧ Ent.zeroFilled (Ent.mk pga stamp t z b p) = z ∧
    Ent.sub (Ent.mk pga stamp t z b p) = b ∧ Ent.pinned (Ent.mk pga stamp t z b p) = p := by
  have fields := Ent.mk_fields pga stamp t z b p
  simp only [List.forall_mem_cons] at fields
  obtain ⟨pgaAt, stampAt, trimmed, zero, sub, pinned, -⟩ := fields
  exact ⟨pgaAt.trans (Nat.mod_eq_of_lt pgaLt), stampAt.trans (Nat.mod_eq_of_lt stampLt), flag_of_bit trimmed, flag_of_bit zero,
    flag_of_bit sub, flag_of_bit pinned⟩

/-! ### Stamps (R171) -/

theorem stampNewer_iff (a b : BitVec 16) : stampNewer a b = true ↔ 1 ≤ (a - b).toNat ∧ (a - b).toNat ≤ 32767 := by
  simp only [stampNewer, Bool.and_eq_true, decide_eq_true_eq]

theorem stampNewer_next (a : BitVec 16) : stampNewer (a + 1) a = true := by
  rw [stampNewer_iff, BitVec.add_comm, BitVec.add_sub_cancel]
  decide

theorem stampNewer_self (a : BitVec 16) : stampNewer a a = false := by
  rw [stampNewer, BitVec.sub_self]
  rfl

/-- The distances from a to b and from b to a are 2^16 together, so at most one lies below 2^15. -/
theorem stampNewer_asymm {a b : BitVec 16} (newer : stampNewer a b = true) : stampNewer b a = false := by
  rw [stampNewer_iff, BitVec.toNat_sub] at newer
  rw [Bool.eq_false_iff, Ne, stampNewer_iff, BitVec.toNat_sub]
  omega

/-! ### The statement -/

/-- Settles O6: each part is the rule of its layout, or of the serial order of stamps. -/
theorem mapFormats : Obligations.MapFormats := by
  refine ⟨fun lun block wl slot lunLt blockLt wlLt slotLt => ?_, fun pga stamp t z b p => Ent.fields_mk t z b p,
    fun a => ⟨stampNewer_next a, stampNewer_self a⟩, fun a b => stampNewer_asymm⟩
  have die := Pga.dieLun_mk lunLt blockLt wlLt slotLt
  exact ⟨die, by rw [Pga.channel_eq, die], by rw [Pga.lun_eq, die], Pga.block_mk blockLt wlLt slotLt, Pga.wl_mk wlLt slotLt,
    Pga.slot_mk slotLt, Pga.set_mk slotLt⟩

end Sys2Proof.Machine
end

section
/-! SUPPORT. Boot steps 6 to 10 (O39). -/

namespace Sys2Proof.Machine

/-! ### A fatal fault ends in Deadbolt (R427) -/

section
variable (d : Dev)

@[simp] theorem Dev.setCapture_pw (n : Nat) (c : Capture) : (d.setCapture n c).pw = d.pw := by
  rw [Dev.setCapture, Dev.put_pw]

@[simp] theorem Dev.follow_pw (n : Nat) : (d.follow n).pw = d.pw := by
  rw [Dev.follow, Dev.setCapture_pw]

@[simp] theorem Dev.countFault_pw (n : Nat) : (d.countFault n).pw = d.pw := by
  rw [Dev.countFault, Dev.addSat_pw]

theorem Dev.enterDeadbolt_phase (source kind : Nat) (privileged : Bool) : (d.enterDeadbolt source kind privileged).pw.phase = .deadbolt := by
  by_cases dead : d.isDead = true
  · rw [Dev.enterDeadbolt, if_pos dead]
    exact eq_of_beq dead
  · rw [Dev.enterDeadbolt, if_neg dead, Dev.modPw_pw]

theorem Dev.fatal_phase (source kind addr access : Nat) : (d.fatal source kind addr access).pw.phase = .deadbolt := by
  rw [Dev.fatal, Dev.faultMsg]
  by_cases dead : d.isDead = true
  · rw [if_pos dead]
    simpa using eq_of_beq dead
  · rw [if_neg dead]
    exact Dev.enterDeadbolt_phase _ _ _ _
end

/-! ### Room under the ceiling (R215) -/

theorem Dev.roomFor_of_fits {d : Dev} {costs : List Nat} (room : ∀ c ∈ costs, d.fits c = true) : d.roomFor costs = true :=
  List.all_eq_true.mpr room

/-! ### CHECKPOINT_LOAD (R185, R188, R201) -/

theorem exec_checkpointLoad (bad : Unreadable) (s : State) : exec (.checkpointLoad bad) s = execCheckpointLoad bad s := rfl

/-- What boot step 6 does with the highest record that decodes, or without one. -/
def Dev.loadHighest (d : Dev) (torn : List Nat) : Dev :=
  match d.highestRec with
  | none => d.noRecord
  | some r =>
    if d.nand.bits ≠ d.bitsPerCell then d.fatal Src.wardenFw Kind.formatMismatch 2 0
    else if d.nand.slots ≠ d.slotCount then d.fatal Src.wardenFw Kind.formatMismatch 3 0
    else (if r.stop then d else d.dropFooters r torn).loadRecord r

theorem checkpointLoad_gives {s : State} (bad : Unreadable) (step : s.dev.bootAt 6 = true) (waits : s.dev.get Reg.MP_STATUS.state = 1)
    (unformatted : s.dev.bit Reg.PW_STATE.format = false) (room : ∀ c ∈ s.dev.readCosts, s.dev.fits c = true) :
    Gives (.checkpointLoad bad) s ((s.dev.dropUnreadable bad).loadHighest bad.torn) := by
  rw [Gives, exec_checkpointLoad, execCheckpointLoad, act_true (by simp [step, waits, unformatted, Dev.roomFor_of_fits room])]
  rfl

theorem Dev.fixCause_nand (d : Dev) (c : Nat) : (d.fixCause c).nand = d.nand := rfl

theorem Dev.fixCause_image (d : Dev) (c : Nat) : (d.fixCause c).image = d.image := rfl

section
variable {d : Dev} {r : CkptRec} (torn : List Nat)

theorem Dev.loadHighest_matching (found : d.highestRec = some r) (bits : d.nand.bits = d.bitsPerCell) (slots : d.nand.slots = d.slotCount) :
    d.loadHighest torn = (if r.stop then d else d.dropFooters r torn).loadRecord r := by
  simp only [Dev.loadHighest, found, bits, slots, ne_eq, not_true_eq_false, if_false]

/-- A format of other bits per cell or other slots than the image's is fatal. -/
theorem Dev.loadHighest_mismatch (found : d.highestRec = some r) (other : d.nand.bits ≠ d.bitsPerCell ∨ d.nand.slots ≠ d.slotCount) :
    (d.loadHighest torn).pw.phase = .deadbolt := by
  simp only [Dev.loadHighest, found]
  by_cases bits : d.nand.bits = d.bitsPerCell
  · rw [if_neg (not_not_intro bits), if_pos (other.resolve_left (not_not_intro bits))]
    exact Dev.fatal_phase _ _ _ _ _
  · rw [if_pos bits]
    exact Dev.fatal_phase _ _ _ _ _

theorem Dev.loadHighest_formats (absent : d.highestRec = none) (permitted : d.image.permit.isSome = true) (blank : d.nand.formatted = false) :
    d.loadHighest torn = ((d.fixCause 1).put Reg.PW_STATE.format 1).applyBases 0 1 := by
  simp [Dev.loadHighest, absent, Dev.noRecord, Dev.fixCause_nand, Dev.fixCause_image, permitted, blank]

theorem Dev.loadHighest_unpermitted (absent : d.highestRec = none) (refused : d.image.permit = none ∨ d.nand.formatted = true) :
    (d.loadHighest torn).pw.phase = .deadbolt := by
  have closed : ((d.fixCause 1).image.permit.isSome && !(d.fixCause 1).nand.formatted) = false := by
    rw [Dev.fixCause_image, Dev.fixCause_nand]
    rcases refused with h | h <;> simp [h]
  simp only [Dev.loadHighest, absent, Dev.noRecord, closed, Bool.false_eq_true, if_false]
  exact Dev.fatal_phase _ _ _ _ _
end

/-! ### The highest record (R188) -/

/-- The later of a record found so far and the next one. -/
def laterRec (found : Option CkptRec) (r : CkptRec) : Option CkptRec :=
  match found with
  | none => some r
  | some x => if x.seq < r.seq then some r else some x

theorem Dev.highestRec_eq (d : Dev) : d.highestRec = d.nand.recs.foldl laterRec none := rfl

/-- The later of the two is one of them, and its sequence is below neither's. -/
theorem laterRec_spec (found : Option CkptRec) (r : CkptRec) :
    ∃ x, laterRec found r = some x ∧ (x = r ∨ found = some x) ∧ r.seq ≤ x.seq ∧ ∀ y, found = some y → y.seq ≤ x.seq := by
  cases found with
  | none => exact ⟨r, rfl, .inl rfl, le_rfl, fun y h => nomatch h⟩
  | some x =>
    by_cases older : x.seq < r.seq
    · exact ⟨r, if_pos older, .inl rfl, le_rfl, fun y h => Option.some.inj h ▸ older.le⟩
    · exact ⟨x, if_neg older, .inr rfl, not_lt.mp older, fun y h => Option.some.inj h ▸ le_rfl⟩

theorem foldl_laterRec_spec (l : List CkptRec) {found : Option CkptRec} {r : CkptRec} (h : l.foldl laterRec found = some r) :
    (r ∈ l ∨ found = some r) ∧ (∀ x ∈ l, x.seq ≤ r.seq) ∧ ∀ y, found = some y → y.seq ≤ r.seq := by
  induction l generalizing found with
  | nil => exact ⟨.inr h, List.forall_mem_nil _, fun y first => Option.some.inj (first.symm.trans h) ▸ le_rfl⟩
  | cons a l ih =>
    obtain ⟨x, later, from_, above, keeps⟩ := laterRec_spec found a
    rw [List.foldl_cons, later] at h
    obtain ⟨mem, most, least⟩ := ih h
    have top : x.seq ≤ r.seq := least x rfl
    refine ⟨?_, List.forall_mem_cons.mpr ⟨above.trans top, most⟩, fun y hy => (keeps y hy).trans top⟩
    rcases mem with mem | same
    · exact .inl (List.mem_cons_of_mem a mem)
    · obtain rfl := Option.some.inj same
      exact from_.imp (fun e => List.mem_cons.mpr (.inl e)) id

theorem Dev.highestRec_spec {d : Dev} {r : CkptRec} (found : d.highestRec = some r) :
    r ∈ d.nand.recs ∧ ∀ x ∈ d.nand.recs, x.seq ≤ r.seq := by
  obtain ⟨mem, most, -⟩ := foldl_laterRec_spec d.nand.recs (d.highestRec_eq ▸ found)
  exact ⟨mem.resolve_right (fun h => nomatch h), most⟩

/-! ### Replay, verdicts, samples, format and the ports (R188, R201, R247, R248, R296) -/

theorem exec_replay (s : State) : exec .replay s = execReplay s := rfl

theorem exec_verdictPhase (m : List Measure) (s : State) : exec (.verdictPhase m) s = execVerdictPhase m s := rfl

theorem exec_bankSampling (bank : Nat) (failed : List Nat) (s : State) :
    exec (.bankSampling bank failed) s = execBankSampling bank failed s := rfl

theorem exec_format (bad : List Nat) (s : State) : exec (.format bad) s = execFormat bad s := rfl

theorem exec_portsRunning (s : State) : exec .portsRunning s = execPortsRunning s := rfl

section
variable {s : State}

theorem replay_gives {r : CkptRec} (step : s.dev.bootAt 7 = true) (waits : s.dev.get Reg.MP_STATUS.state = 2)
    (room : ∀ c ∈ s.dev.readCosts, s.dev.fits c = true) (newest : s.dev.newestRec = some r) : Gives .replay s (s.dev.replayFromRec r) := by
  rw [Gives, exec_replay, execReplay, actOn_some (by simpa [step, waits, Dev.roomFor_of_fits room] using newest)]

theorem verdictPhase_gives (m : List Measure) (step : s.dev.bootAt 8 = true)
    (room : s.dev.toRemeasure = [] ∨ ∀ c ∈ s.dev.readCosts, s.dev.fits c = true) : Gives (.verdictPhase m) s (s.dev.verdicts m) := by
  have mayRead : (s.dev.toRemeasure.isEmpty || s.dev.roomFor s.dev.readCosts) = true := by
    rcases room with settled | room
    · simp [settled]
    · simp [Dev.roomFor_of_fits room]
  rw [Gives, exec_verdictPhase, execVerdictPhase, act_true (by simp [step, mayRead])]

/-- The bank is good where no codeword that failed lies in a set that its sampling reads. -/
theorem bankSampling_gives {bank : Nat} (failed : List Nat) (step : s.dev.bootAt 9 = true) (due : s.dev.cd.toSample.contains bank = true)
    (room : ∀ c ∈ s.dev.readCosts, s.dev.fits c = true) :
    Gives (.bankSampling bank failed) s
      (s.dev.bankSampled bank (failed.all (fun a => !(s.dev.sampledSets bank).contains (Pga.set (a / 16))))) := by
  rw [Gives, exec_bankSampling, execBankSampling, act_true (by simp only [step, due, Dev.roomFor_of_fits room, Bool.and_self])]

theorem Dev.bankSampled_lost (d : Dev) (bank : Nat) : (d.bankSampled bank false).pw.phase = .deadbolt := by
  simp only [Dev.bankSampled, Bool.not_false, if_true]
  exact Dev.fatal_phase _ _ _ _ _

theorem format_gives {c : Nat} (bad : List Nat) (step : s.dev.bootAt 6 = true) (formats : s.dev.bit Reg.PW_STATE.format = true)
    (undone : s.dev.pw.formatted = false) (free : s.dev.bit Reg.PW_STATE.prog_hold = false)
    (room : ∀ c ∈ s.dev.get Reg.MS_COST_PROG.prog_ma :: s.dev.bringUpCosts, s.dev.fits c = true) (permit : s.dev.image.permit = some c) :
    Gives (.format bad) s (s.dev.formatDevice c bad) := by
  rw [Gives, exec_format, execFormat, actOn_some (by simpa [step, formats, undone, free, Dev.roomFor_of_fits room] using permit)]

theorem portsRunning_gives (step : s.dev.bootAt 10 = true) : Gives .portsRunning s s.dev.enterRun := by
  rw [Gives, exec_portsRunning, execPortsRunning, act_true step]
end

/-! ### The statement -/

/-- Settles O39: each clause is the rule above of its command; a record that does not match, a missing format and a bank that does not
decode are fatal, and a fatal fault is Deadbolt. -/
theorem bootStepsSixToTenComplete : Obligations.BootStepsSixToTenComplete := by
  refine ⟨fun s bad d step waits unformatted room eq => ?_, fun d r => Dev.highestRec_spec, fun s r => replay_gives,
    fun s m => verdictPhase_gives m, fun s bank failed step due room => ?_, fun s c bad => format_gives bad, fun s => portsRunning_gives⟩
  · subst eq
    have gives := checkpointLoad_gives bad step waits unformatted room
    refine ⟨fun r found bits slots => ?_, fun r found other => ⟨_, gives, Dev.loadHighest_mismatch _ found other⟩,
      fun absent permitted blank => ?_, fun absent refused => ⟨_, gives, Dev.loadHighest_unpermitted _ absent refused⟩⟩
    · rwa [Dev.loadHighest_matching _ found bits slots] at gives
    · rwa [Dev.loadHighest_formats _ absent permitted blank] at gives
  · have gives := bankSampling_gives failed step due room
    refine ⟨fun good => ?_, fun ⟨a, mem, lost⟩ => ?_⟩
    · rwa [List.all_eq_true.mpr (fun a mem => by simpa using good a mem)] at gives
    · rw [List.all_eq_false.mpr ⟨a, mem, by simpa using lost⟩] at gives
      exact ⟨_, gives, Dev.bankSampled_lost _ _⟩

end Sys2Proof.Machine
end

section
/-! SUPPORT. What begins, advances and ends an operation of a LUN (O42). -/

namespace Sys2Proof.Machine

/-! ### What keeps the list of operations -/

section
variable (d : Dev)

@[simp] theorem Dev.issue_ops (lun entry : Nat) : (d.issue lun entry).ms.ops = d.ms.ops := by
  unfold Dev.issue
  dsimp only
  split <;> rfl

@[simp] theorem Dev.issue_qe (lun entry : Nat) : (d.issue lun entry).qe = d.qe := by
  unfold Dev.issue
  dsimp only
  split <;> rfl

@[simp] theorem Dev.issue_nand (lun entry : Nat) : (d.issue lun entry).nand = d.nand := by
  unfold Dev.issue
  dsimp only
  split <;> rfl

@[simp] theorem Dev.issue_get (lun entry : Nat) (f : Fld) : (d.issue lun entry).get f = d.get f := by
  unfold Dev.issue
  dsimp only
  split <;> rfl

theorem Dev.mem_modOp {o : FlashOp} (f : FlashOp → FlashOp) (mem : o ∈ d.ms.ops) : f o ∈ (d.modOp o.id f).ms.ops :=
  List.mem_map.mpr ⟨o, mem, if_pos rfl⟩
end

/-! ### NEXT_OPERATION (R210) -/

theorem exec_nextOperation (ch lun : Nat) (s : State) : exec (.nextOperation ch lun) s = execNextOperation ch lun s := rfl

section
variable {s : State} {ch lun : Nat} {o : FlashOp}

theorem nextOperation_busy_gives (works : s.dev.msWorks = true) (chLt : ch < 128) (lunLt : lun < 32)
    (good : s.dev.lunFailed (ch * 32 + lun) = false) (busy : s.dev.activeOp (ch * 32 + lun) = some o) :
    Gives (.nextOperation ch lun) s (s.dev.continueOp o) := by
  rw [Gives, exec_nextOperation, execNextOperation, act_true (by simp [works, chLt, lunLt, good])]
  simp only [busy]

theorem nextOperation_idle_gives (works : s.dev.msWorks = true) (chLt : ch < 128) (lunLt : lun < 32)
    (good : s.dev.lunFailed (ch * 32 + lun) = false) (idle : s.dev.activeOp (ch * 32 + lun) = none)
    (chosen : s.dev.chooseOp (ch * 32 + lun) = some o) : Gives (.nextOperation ch lun) s (s.dev.beginOp o) := by
  rw [Gives, exec_nextOperation, execNextOperation, act_true (by simp [works, chLt, lunLt, good])]
  simp only [idle, chosen]

/-! ### Ends (R204, R206, R208, R209) -/

theorem exec_lunReady (ch lun : Nat) (pass ok : Bool) (s : State) :
    exec (.lunReady ch lun pass ok) s = execLunReady ch lun pass ok s := rfl

theorem exec_dataTransferEnd (ch lun : Nat) (s : State) : exec (.dataTransferEnd ch lun) s = execDataTransferEnd ch lun s := rfl

theorem exec_opLimitExpiry (ch lun op : Nat) (s : State) : exec (.opLimitExpiry ch lun op) s = execOpLimitExpiry ch lun op s := rfl

theorem lunReady_gives (pass ok : Bool) (chLt : ch < 128) (lunLt : lun < 32) (alive : s.dev.isDead = false)
    (found : s.dev.ms.ops.find? (fun o => o.lun = ch * 32 + lun && (o.st == .array || o.st == .setting)) = some o) :
    Gives (.lunReady ch lun pass ok) s (s.dev.opReady o pass ok) := by
  rw [Gives, exec_lunReady, execLunReady, actOn_some (by simpa [chLt, lunLt, alive] using found)]

theorem dataTransferEnd_gives {n : FlashOp} {e : Dev} (chLt : ch < 128) (lunLt : lun < 32) (alive : s.dev.isDead = false)
    (found : s.dev.ms.ops.find? (fun o => o.lun = ch * 32 + lun && o.moving) = some o)
    (moved : n = { o with moving := false, kib := o.kib - 1, begun := o.kib != 1, held := none })
    (returned : e = (s.dev.unhold (s.dev.get Reg.MS_COST_XFER.xfer_ma)).modOp o.id (fun _ => n)) :
    Gives (.dataTransferEnd ch lun) s (if n.kib = 0 then e.transferDone n else e.startKib n) := by
  subst moved returned
  rw [Gives, exec_dataTransferEnd, execDataTransferEnd, actOn_some (by simpa [chLt, lunLt, alive] using found)]

/-- The operation, or the reset after it, has run for its limit; a calibration has none. -/
def Dev.overran (d : Dev) (o : FlashOp) : Bool :=
  match d.opLimit o with
  | some l => d.expired o.start l
  | none => false

theorem opLimitExpiry_gives {op : Nat} (chLt : ch < 128) (lunLt : lun < 32) (alive : s.dev.isDead = false)
    (found : s.dev.ms.ops.find? (fun o => o.id = op && o.lun = ch * 32 + lun && o.st == .array && s.dev.overran o) = some o) :
    Gives (.opLimitExpiry ch lun op) s (s.dev.opOverran o) := by
  rw [Gives, exec_opLimitExpiry, execOpLimitExpiry, actOn_some (a := o)]
  -- The operation is found among all of them as among those of a LUN that exists, on a device that works.
  rw [← found]
  simp only [chLt, lunLt, alive, decide_true, Bool.not_false, Bool.and_true]
  rfl

/-! ### Suspends (R212, R213) -/

theorem exec_eraseSuspend (ch lun : Nat) (complete : Bool) (s : State) :
    exec (.eraseSuspend ch lun complete) s = execEraseSuspend ch lun complete s := rfl

theorem exec_eraseResume (ch lun : Nat) (s : State) : exec (.eraseResume ch lun) s = execEraseResume ch lun s := rfl

theorem eraseSuspend_gives (complete : Bool) (chLt : ch < 128) (lunLt : lun < 32) (alive : s.dev.isDead = false)
    (found : s.dev.ms.ops.find? (fun o => o.lun = ch * 32 + lun && o.kind.isErase && !o.resetting && o.st == .array) = some o) :
    Gives (.eraseSuspend ch lun complete) s (s.dev.suspendOp o complete) := by
  rw [Gives, exec_eraseSuspend, execEraseSuspend, actOn_some (by simpa [chLt, lunLt, alive] using found)]

/-- An erase that the device suspends at its present tick. -/
def Dev.suspended (d : Dev) (o : FlashOp) : FlashOp :=
  { o with
    st := .suspended
    ran := o.ran + (d.now - o.start)
    suspends := o.suspends + 1
    readsLeft := ((d.waitingReads o.lun).take (d.get Reg.MS_SUSPEND_CFG.per_suspend)).map (fun r => r.id) }

theorem Dev.suspended_readsLeft_length (d : Dev) (o : FlashOp) :
    (d.suspended o).readsLeft.length ≤ d.get Reg.MS_SUSPEND_CFG.per_suspend := by
  rw [Dev.suspended, List.length_map]
  exact List.length_take_le _ _

@[simp] theorem Dev.issue_now (d : Dev) (lun entry : Nat) : (d.issue lun entry).now = d.now := Dev.issue_get d _ _ _

/-- An erase that goes on suspends where reads wait, it has run for its minimum, and it has suspends left. -/
theorem Dev.suspendOp_going {d : Dev} {o : FlashOp} (reads : d.waitingReads o.lun ≠ [])
    (ran : d.expired o.start (d.get Reg.MS_SUSPEND_CFG.resume_min_us) = true) (few : o.suspends < d.get Reg.MS_SUSPEND_CFG.max_suspends) :
    d.suspendOp o false =
      (((d.issue o.lun 13).unhold o.cost).modOp o.id (fun _ => d.suspended o)).add Reg.MS_SUSPENDS.suspends 1 := by
  have suspends : ¬((d.waitingReads o.lun).isEmpty || !d.expired o.start (d.get Reg.MS_SUSPEND_CFG.resume_min_us)
      || decide (d.get Reg.MS_SUSPEND_CFG.max_suspends ≤ o.suspends)) = true := by
    simp [reads, ran, few]
  rw [Dev.suspendOp, if_neg suspends]
  simp only [Bool.false_eq_true, if_false, Dev.issue_now, Dev.issue_get, Dev.suspended]

theorem Dev.suspended_mem {d : Dev} {o : FlashOp} (mem : o ∈ d.ms.ops) (reads : d.waitingReads o.lun ≠ [])
    (ran : d.expired o.start (d.get Reg.MS_SUSPEND_CFG.resume_min_us) = true) (few : o.suspends < d.get Reg.MS_SUSPEND_CFG.max_suspends) :
    d.suspended o ∈ (d.suspendOp o false).ms.ops := by
  rw [Dev.suspendOp_going reads ran few, Dev.add_ms]
  refine Dev.mem_modOp (f := fun _ => d.suspended o) _ ?_
  rwa [Dev.unhold, Dev.put_ms, Dev.issue_ops]

/-- A suspended erase that resumes at the device's present tick. -/
def Dev.resumed (d : Dev) (o : FlashOp) : FlashOp :=
  { o with
    st := .array
    start := d.now
    cost := d.get Reg.MS_COST_ERASE.erase_ma
    readsLeft := [] }

/-- The erase resumes: its cost is taken, and FC issues the resume. -/
def Dev.eraseGoesOn (d : Dev) (o : FlashOp) : Dev :=
  ((d.hold (d.get Reg.MS_COST_ERASE.erase_ma)).modOp o.id d.resumed).issue o.lun 14

theorem Dev.resumed_mem {d : Dev} {o : FlashOp} (mem : o ∈ d.ms.ops) : d.resumed o ∈ (d.eraseGoesOn o).ms.ops := by
  rw [Dev.eraseGoesOn, Dev.issue_ops]
  exact Dev.mem_modOp _ d.resumed mem

theorem Dev.eraseGoesOn_qe (d : Dev) (o : FlashOp) : (d.eraseGoesOn o).qe = d.qe := by
  rw [Dev.eraseGoesOn, Dev.issue_qe, Dev.modOp, Dev.modMs_qe, Dev.hold, Dev.put_qe]

theorem Dev.eraseGoesOn_nand (d : Dev) (o : FlashOp) : (d.eraseGoesOn o).nand = d.nand := by
  rw [Dev.eraseGoesOn, Dev.issue_nand, Dev.modOp, Dev.modMs_nand, Dev.hold, Dev.put_nand]

theorem eraseResume_gives (chLt : ch < 128) (lunLt : lun < 32) (alive : s.dev.isDead = false)
    (found : s.dev.suspendedOp (ch * 32 + lun) = some o) (may : s.dev.mayResume o = true) :
    Gives (.eraseResume ch lun) s (s.dev.eraseGoesOn o) := by
  rw [Gives, exec_eraseResume, execEraseResume,
    actOn_some (a := o) (by simp [alive, Nat.not_le.mpr chLt, Nat.not_le.mpr lunLt, found, may])]
  rfl

/-! ### Sealed sets that age, open sets that idle (R178, R211) -/

theorem exec_progAge (seq : Nat) (s : State) : exec (.progAge seq) s = execProgAge seq s := rfl

theorem exec_idlePad (stream : Nat) (s : State) : exec (.idlePad stream) s = execIdlePad stream s := rfl

theorem progAge_gives {seq : Nat} {x : WlSet} (alive : s.dev.isDead = false) (found : s.dev.setOf seq = some x)
    (aged : s.dev.expired x.sealedAt (msTicks (s.dev.get Reg.MS_PROG_CFG.prog_age_ms)) = true) :
    Gives (.progAge seq) s (s.dev.modSet seq (fun x => { x with aged := true })) := by
  rw [Gives, exec_progAge, execProgAge, actOn_some (by simpa [alive] using found), if_pos aged]

theorem idlePad_gives {stream : Nat} {o : OpenSet} (alive : s.dev.isDead = false) (found : s.dev.openSet stream = some o)
    (idle : s.dev.expired o.last (secTicks (s.dev.get Reg.MP_CKPT_CFG.idle_pad_s)) = true) :
    Gives (.idlePad stream) s (s.dev.modOpenSet stream (fun o => { o with sealing := true })).stir := by
  rw [Gives, exec_idlePad, execIdlePad, actOn_some (by simpa [alive] using found), if_pos idle]
end

/-! ### The statement -/

/-- Settles O42: each clause is the rule above of its command; the suspended and the resumed erase are in the list of operations. -/
theorem mediaOperationsComplete : Obligations.MediaOperationsComplete := by
  refine ⟨fun s ch lun o works chLt lunLt good => ⟨nextOperation_busy_gives works chLt lunLt good,
      nextOperation_idle_gives works chLt lunLt good⟩, fun s ch lun pass ok o => lunReady_gives pass ok,
    fun s ch lun o n e => dataTransferEnd_gives, fun s ch lun op o chLt lunLt alive found => opLimitExpiry_gives chLt lunLt alive found,
    fun s ch lun o chLt lunLt alive found reads ran few => ?_, fun s ch lun o chLt lunLt alive found may => ?_,
    fun s seq x => progAge_gives, fun s stream o => idlePad_gives⟩
  · exact ⟨_, eraseSuspend_gives false chLt lunLt alive found, rfl, s.dev.suspended o,
      Dev.suspended_mem (List.mem_of_find?_eq_some found) reads ran few, rfl, rfl, rfl, rfl, s.dev.suspended_readsLeft_length o⟩
  · exact ⟨_, eraseResume_gives chLt lunLt alive found may, s.dev.eraseGoesOn_qe o, s.dev.eraseGoesOn_nand o, s.dev.resumed o,
      Dev.resumed_mem (List.mem_of_find?_eq_some found), rfl, rfl, rfl, rfl⟩

end Sys2Proof.Machine
end

section
/-! SUPPORT. A Validate Set whose map page has yet to be read refutes O45: the statement answers every descriptor whose pages are not
lost, while one of a page outside the cache waits until its page has been read (R168, R191). -/

namespace Sys2Proof.Machine

theorem exec_validateSet (s : State) : exec .validateSet s = execValidateSet s := rfl

theorem onDesc_ready {s : State} {u : Unit4} {op i : Nat} {l : Line} (f : Dev → Nat → Line → Dev)
    (ready : s.dev.entryReady u op = some (i, l)) :
    onDesc s u op f = .next { s with dev := f (s.dev.takeDesc u i l) i l } := by
  rw [onDesc, actOn_some ready]

theorem validateSet_gives {s : State} {i : Nat} {l : Line} (ready : s.dev.entryReady .mp 2 = some (i, l)) :
    Gives .validateSet s ((s.dev.takeDesc .mp i l).validateSet i l) := by
  rw [Gives, exec_validateSet, execValidateSet, onDesc_ready _ ready]

theorem Gives.unique {c : Instr} {s : State} {d e : Dev} (one : Gives c s d) (other : Gives c s e) : d = e := by
  have same := one.symm.trans other
  simp only [Host.Outcome.next.injEq, State.mk.injEq, and_true] at same
  exact same

/-- The results of the descriptors in progress that are known. -/
def Dev.results (d : Dev) : List (Nat × Dword × Dword) := d.rings.desc.filterMap (fun x => x.result)

/-- An answer is the result of its descriptor. -/
theorem Dev.answer_results_ne_nil {d : Dev} {u : Unit4} {i : Nat} (st w0 w1 : Nat) (taken : (d.descOf u i).isSome = true) :
    (d.answer u i st w0 w1).results ≠ [] := by
  obtain ⟨x, found⟩ := Option.isSome_iff_exists.mp taken
  have unit : (x.unit == u) = true := (List.mem_filter.mp (List.mem_of_find?_eq_some found)).2
  have index : x.index = i := by simpa using List.find?_some found
  have mem : x ∈ d.rings.desc := (List.mem_filter.mp (List.mem_of_find?_eq_some found)).1
  refine List.ne_nil_of_mem (a := (st, BitVec.ofNat 32 w0, BitVec.ofNat 32 w1)) (List.mem_filterMap.mpr
    ⟨{ x with result := some (st, BitVec.ofNat 32 w0, BitVec.ofNat 32 w1) }, List.mem_map.mpr ⟨x, mem, ?_⟩, rfl⟩)
  simp only [unit, index, decide_true, Bool.and_self, if_true]

/-! ### The counterexample -/

/-- A data set of one granule: granule 0 of namespace 1. -/
def oneGranule : OnFlash :=
  { kind := .data, stream := 0, seq := 1, stripe := 0, successor := 0, ckptSeq := 0, opt := 0, slots := [{ kind := 1, key := gkey 1 0, stamp := 1 }] }

/-- A posted Validate Set of the word-line set at word line 1 of block group 0 of LUN 0. -/
def validateOne : Line := BitVec.ofNat 512 (pack [(0, 8, 1), (8, 8, 2), (96, 40, Pga.mk 0 0 1 0)])

/-- A device in Run on which that set is programmed, the directory names the page of its granule, which is not lost, and the page is not
in the cache; the descriptor is the first entry of MP's ring. -/
def pageUnread : Dev :=
  ({ State.reset.dev with
      pw := { phase := .running, wakeStep := 4, bootStep := 10, perstLow := false, fphy := true }
      mp := {
        ns := [(1, ⟨1000, 0, 0, 0, 0, []⟩)]
        dir := [(pageOf (gkey 1 0), { addrA := 0, addrB := 16 * Pga.mk 1 0 0 0, lost := false, pageSeq := 1 })] }
      nand := { sets := [(Pga.mk 0 0 1 0, oneGranule)] } }.put Reg.MP_STATUS.state 4).writeLine (entryAt .mp 0) validateOne

theorem pageUnread_ready : pageUnread.entryReady .mp 2 = some (0, validateOne) := by decide +kernel

/-- MP begins to read the page, and the descriptor has no result yet. -/
theorem pageUnread_waits : ((pageUnread.takeDesc .mp 0 validateOne).validateSet 0 validateOne).results = [] := by decide +kernel

/-- Refutes O45: the page that Validate Set needs is on flash, not lost and not in the cache, so the descriptor waits for it; the second
clause has it answered at once. -/
theorem not_mapDescriptorsComplete : ¬ Obligations.MapDescriptorsComplete := by
  intro h
  obtain ⟨-, validateSet, -⟩ := h
  have claimed := validateSet ⟨pageUnread, []⟩ 0 validateOne _ oneGranule pageUnread_ready rfl (by decide +kernel) (by decide +kernel)
    (by decide +kernel) (by decide +kernel)
  have gives := validateSet_gives (s := ⟨pageUnread, []⟩) pageUnread_ready
  exact Dev.answer_results_ne_nil _ _ _ (by decide +kernel) ((congrArg Dev.results (gives.unique claimed)).symm.trans pageUnread_waits)

end Sys2Proof.Machine
end

section
/-! SUPPORT. Relocation units, victims and checkpoints (O47). -/

namespace Sys2Proof.Machine

/-! ### Units (R268, R269) -/

theorem exec_reclaimUnitOffer (s : State) : exec .reclaimUnitOffer s = execReclaimUnitOffer s := rfl

theorem exec_reclaimUnitDone (n : Nat) (s : State) : exec (.reclaimUnitDone n) s = execReclaimUnitDone n s := rfl

section
variable {s : State}

/-- Urgent passes come first; without one the first pass with work left is taken. -/
theorem reclaimUnitOffer_gives {p : Pass} (runs : s.dev.rcRuns = true) (alive : s.dev.isDead = false) (run : s.dev.pw.phase = .running)
    (unsealed : s.dev.isSealed = false)
    (next : s.dev.rc.passes.find? (fun p => p.urgent && !p.left.isEmpty) = some p ∨
      s.dev.rc.passes.find? (fun p => p.urgent && !p.left.isEmpty) = none ∧ s.dev.rc.passes.find? (fun p => !p.left.isEmpty) = some p) :
    Gives .reclaimUnitOffer s (s.dev.offerUnit p) := by
  have taken : (s.dev.rc.passes.find? (fun p => p.urgent && !p.left.isEmpty)).or (s.dev.rc.passes.find? (fun p => !p.left.isEmpty)) = some p := by
    rcases next with urgent | ⟨calm, other⟩
    · rw [urgent, Option.some_or]
    · rw [calm, Option.none_or, other]
  rw [Gives, exec_reclaimUnitOffer, execReclaimUnitOffer, act_true (by simp [runs, alive, run])]
  simp only [unsealed, Bool.false_eq_true, if_false, taken]

theorem reclaimUnitDone_gives {n : Nat} {u : Unit_} (alive : s.dev.isDead = false)
    (settled : s.dev.rc.units.find? (fun u => u.id = n && u.started && u.copies.all (fun c => c.settled)) = some u) :
    Gives (.reclaimUnitDone n) s ((((s.dev.modRc (fun r => { r with units := r.units.filter (fun x => x.id != n) })).modPass u.pass (fun p => { p with
      rewritten := p.rewritten + ((u.copies.map (fun c => Pga.set c.pga)).eraseDups).length
      copied := p.copied + (u.copies.filter (fun c => c.recorded)).length })).endPasses).stir) := by
  rw [Gives, exec_reclaimUnitDone, execReclaimUnitDone, actOn_some (by simpa only [alive, Bool.not_false, Bool.and_true] using settled)]

/-! ### Victims (R187, R262, R270, R273, R274) -/

theorem exec_victimErase (id : Nat) (s : State) : exec (.victimErase id) s = execVictimErase id s := rfl

theorem exec_fallbackVictim (s : State) : exec .fallbackVictim s = execFallbackVictim s := rfl

theorem victimErase_gives {id c : Nat} (runs : s.dev.rcRuns = true) (alive : s.dev.isDead = false)
    (emptied : s.dev.rc.emptied.find? (fun p => p.1 = id) = some (id, c))
    (empty : ∀ e ∈ s.dev.stripeEntries id, (e.state = .closed ∨ e.state = .victim) ∧ e.valid = 0 ∧ e.pinned = 0)
    (unsealed : s.dev.isSealed = false) (twice : c + 2 ≤ s.dev.get Reg.MP_CKPT_SEQ.seq) (safe : s.dev.copiesSafe id = true)
    (superseded : s.dev.superseded id = true) (unused : s.dev.inUse id = false) :
    Gives (.victimErase id) s (((s.dev.each (s.dev.presentIn id) (fun e l => e.emptyGroup l (Pga.block id))).modRc (fun r => { r with
      emptied := r.emptied.filter (fun x => x.1 != id)
      victims := r.victims.filter (fun x => x != id) })).noteFree) := by
  have allEmpty : (s.dev.stripeEntries id).all (fun e => (e.state == .closed || e.state == .victim) && e.valid = 0 && e.pinned = 0) = true :=
    List.all_eq_true.mpr (fun e mem => by simpa [and_assoc] using empty e mem)
  rw [Gives, exec_victimErase, execVictimErase, actOn_some (a := (id, c)) (by simpa [runs, alive] using emptied)]
  simp only [allEmpty, unsealed, twice, safe, superseded, unused, Bool.not_false, Bool.true_or, Bool.and_self, decide_true, if_true]

theorem fallbackVictim_gives {t : Nat} {c : Candidate} (runs : s.dev.rcRuns = true) (alive : s.dev.isDead = false)
    (unsealed : s.dev.isSealed = false) (unheld : s.dev.qe.hold = none) (noReclaim : s.dev.reclaimWaits = false)
    (below : s.dev.rc.belowSince = some t)
    (late : s.dev.expired t (msTicks (10 * s.dev.get Reg.RC_VICTIM_CFG.fallback_ms)) = true)
    (choice : (s.dev.modRc (fun r => { r with belowSince := some s.dev.now })).fallbackChoice = some c) :
    Gives .fallbackVictim s (((s.dev.modRc (fun r => { r with belowSince := some s.dev.now })).makeVictim c.id none).raise (Irq.rc 6)) := by
  rw [Gives, exec_fallbackVictim, execFallbackVictim,
    actOn_some (a := t) (by simpa [runs, alive, unsealed, unheld, noReclaim] using below), if_pos late]
  simp only [choice]

/-! ### Checkpoints (R182, R183) -/

theorem exec_checkpointTrigger (s : State) : exec .checkpointTrigger s = execCheckpointTrigger s := rfl

theorem exec_checkpointDurable (seq place : Nat) (s : State) : exec (.checkpointDurable seq place) s = execCheckpointDurable seq place s := rfl

theorem checkpointTrigger_gives (runs : s.dev.mpRuns = true) (alive : s.dev.isDead = false) (due : s.dev.ckptDue = true)
    (noPrepare : s.dev.haspCkptDue = false) : Gives .checkpointTrigger s (s.dev.beginCkpt false) := by
  rw [Gives, exec_checkpointTrigger, execCheckpointTrigger, act_true (by simp [runs, alive, due])]
  simp only [noPrepare, Bool.false_eq_true, if_false]

theorem checkpointDurable_gives {place : Nat} {r : CkptRun} (running : s.dev.mp.ckpt = some r) (writing : r.writing = true)
    (copy : s.dev.copyAt r.seq place = true) (alive : s.dev.isDead = false) :
    Gives (.checkpointDurable r.seq place) s (if s.dev.mp.again then (s.dev.ckptDone r).beginCkpt false else s.dev.ckptDone r).stir := by
  rw [Gives, exec_checkpointDurable, execCheckpointDurable, actOn_some (a := r) (by simp [running, writing, copy, alive])]
end

/-! ### The statement -/

/-- Settles O47: each clause is the rule above of its command. -/
theorem reclaimAndCheckpointsComplete : Obligations.ReclaimAndCheckpointsComplete :=
  ⟨fun _ _ => reclaimUnitOffer_gives, fun _ _ _ => reclaimUnitDone_gives, fun _ _ _ => victimErase_gives,
    fun _ _ _ => fallbackVictim_gives, fun _ => checkpointTrigger_gives, fun _ _ _ => checkpointDurable_gives⟩

end Sys2Proof.Machine
end

section
/-! SUPPORT. Tokens, the ramp and calibration (O41). -/

namespace Sys2Proof.Machine

theorem exec_tokenClaim (op : Nat) (s : State) : exec (.tokenClaim op) s = execTokenClaim op s := rfl

theorem exec_tailReturn (s : State) : exec .tailReturn s = execTailReturn s := rfl

theorem exec_rampDelay (s : State) : exec .rampDelay s = execRampDelay s := rfl

theorem exec_rampTick (s : State) : exec .rampTick s = execRampTick s := rfl

theorem exec_zqShortCalibration (ch : Nat) (s : State) : exec (.zqShortCalibration ch) s = execZqShortCalibration ch s := rfl

/-! ### The claim and the ledger -/

section
variable (d : Dev)

theorem Dev.mem_claim_claims (op : Nat) : op ∈ (d.claim op).ms.claims := by
  by_cases claimed : d.ms.claims.contains op = true
  · rw [Dev.claim, if_pos claimed]
    exact List.contains_iff_mem.mp claimed
  · rw [Dev.claim, if_neg claimed, Dev.raise_ms]
    exact List.mem_append_right _ (List.mem_singleton_self op)

@[simp] theorem Dev.claim_ops (op : Nat) : (d.claim op).ms.ops = d.ms.ops := by
  by_cases claimed : d.ms.claims.contains op = true
  · rw [Dev.claim, if_pos claimed]
  · rw [Dev.claim, if_neg claimed, Dev.raise_ms, Dev.modMs_ms]

@[simp] theorem Dev.unhold_ms (n : Nat) : (d.unhold n).ms = d.ms := rfl

/-- What is taken off the ledger fits in its field, since it was read from there. -/
theorem Dev.unhold_held (n : Nat) : (d.unhold n).get Reg.MS_LEDGER.held_ma = d.get Reg.MS_LEDGER.held_ma - n := by
  have fits : d.get Reg.MS_LEDGER.held_ma - n < 2 ^ Reg.MS_LEDGER.held_ma.width :=
    (Nat.sub_le _ _).trans_lt (Nat.mod_lt _ (Nat.two_pow_pos _))
  rw [Dev.unhold, Dev.get_put_same _ _ _ (by decide), Nat.mod_eq_of_lt fits]
end

/-! ### The timers (R195, R215, R217, R219) -/

section
variable {s : State} {t : Nat}

theorem tokenClaim_gives {op : Nat} {o : FlashOp} (alive : s.dev.isDead = false)
    (found : s.dev.ms.ops.find? (fun o => o.id = op) = some o) (waits : o.tokenWait = some t)
    (late : s.dev.expired t (s.dev.get Reg.MS_PROG_CFG.token_wait_us) = true) : Gives (.tokenClaim op) s (s.dev.claim op) := by
  rw [Gives, exec_tokenClaim, execTokenClaim, actOn_some (a := t) (by simp [alive, found, waits]), if_pos late]

theorem tailReturn_gives {rest : List Nat} (alive : s.dev.isDead = false) (tails : s.dev.ms.tails = t :: rest)
    (ended : s.dev.expired t (s.dev.get Reg.MS_COST_TAIL.tail_us) = true) :
    Gives .tailReturn s ((s.dev.unhold (s.dev.get Reg.MS_COST_TAIL.tail_ma)).modMs (fun m => { m with tails := m.tails.tail })) := by
  rw [Gives, exec_tailReturn, execTailReturn, actOn_some (a := t) (by simp [alive, tails]), if_pos ended]

theorem rampDelay_gives (up : s.dev.ms.fphyAt = some t) (waits : s.dev.ms.rampAt = none)
    (ended : s.dev.expired t (msTicks (s.dev.get Reg.MS_RAMP_CFG.delay_ms)) = true) :
    Gives .rampDelay s ((s.dev.modMs (fun m => { m with rampAt := some s.dev.now })).setCeiling (s.dev.rampCeiling 0)) := by
  rw [Gives, exec_rampDelay, execRampDelay, actOn_some up, if_pos (by simp [waits, ended])]

theorem rampTick_gives (begun : s.dev.ms.rampAt = some t) (ramps : s.dev.bit Reg.MS_STATUS.ramp = true) :
    Gives .rampTick s
      (s.dev.setCeiling (max (s.dev.get Reg.MS_LEDGER.ceiling_ma) (s.dev.rampCeiling ((s.dev.now - t) / 1000)))) := by
  rw [Gives, exec_rampTick, execRampTick, actOn_some begun, if_pos ramps]

theorem zqShortCalibration_gives {ch : Nat} (last : s.dev.ms.zq.find ch = some t)
    (trained : s.dev.get (fcReg ch Reg.FC_STATUS.state) = 4) (works : s.dev.msWorks = true)
    (due : s.dev.expired t (msTicks (s.dev.get (fcReg ch Reg.FC_ZQ_CFG.zq_interval_ms))) = true) :
    Gives (.zqShortCalibration ch) s ((s.dev.modMs (fun m => { m with zq := m.zq.put ch s.dev.now })).each
      (s.dev.goodLuns.filter (fun l => l / 32 = ch && !s.dev.ms.ops.any (fun o => o.lun = l && o.kind == .zq)))
      (fun d l => d.queueOp l .zq 0 0)) := by
  rw [Gives, exec_zqShortCalibration, execZqShortCalibration, actOn_some last, if_pos (by simp [trained, works, due])]
end

/-! ### The statement -/

/-- Settles O41: each clause is the rule above of its timer; a claim keeps the operations, and the oldest tail gives back what it held. -/
theorem tokensAndTimersComplete : Obligations.TokensAndTimersComplete := by
  refine ⟨fun s op t o alive found waits late => ?_, fun s t rest alive tails ended => ?_, fun s t => rampDelay_gives,
    fun s t => rampTick_gives, fun s ch t => zqShortCalibration_gives⟩
  · exact ⟨_, tokenClaim_gives alive found waits late, rfl, s.dev.mem_claim_claims op, s.dev.claim_ops op⟩
  · refine ⟨_, tailReturn_gives alive tails ended, ?_, rfl, ?_⟩
    · rw [Dev.modMs_ms, Dev.unhold_ms, tails, List.tail_cons]
    · rw [Dev.modMs_get, Dev.unhold_held]

end Sys2Proof.Machine
end

section
/-! SUPPORT. The descriptors of MS and RC, and DESCRIPTOR_DONE (O46). -/

namespace Sys2Proof.Machine

/-- A command that is a descriptor of a unit takes the posted entry and does with it what the unit does. -/
theorem Gives.of_onDesc {c : Instr} {s : State} {u : Unit4} {op i : Nat} {l : Line} {f : Dev → Nat → Line → Dev} {e : Dev}
    (meaning : exec c s = onDesc s u op f) (ready : s.dev.entryReady u op = some (i, l)) (result : f (s.dev.takeDesc u i l) i l = e) :
    Gives c s e := by
  rw [Gives, meaning, onDesc_ready f ready, result]

theorem exec_lunQuery (s : State) : exec .lunQuery s = onDesc s .ms 1 (fun d i l => d.lunQuery i l) := rfl

theorem exec_rawRead (wrong : List Line) (s : State) : exec (.rawRead wrong) s = onDesc s .ms 2 (fun d i l => d.rawReadDesc i l wrong) := rfl

theorem exec_retireBlock (s : State) : exec .retireBlock s = onDesc s .ms 3 (fun d i l => d.retireDesc i l) := rfl

theorem exec_stripeQuery (s : State) : exec .stripeQuery s = onDesc s .rc 1 (fun d i l => d.stripeQuery i l) := rfl

theorem exec_reclaim (s : State) : exec .reclaim s = onDesc s .rc 2 (fun d i l => d.reclaimDesc i l) := rfl

theorem exec_refreshLun (s : State) : exec .refreshLun s = onDesc s .rc 3 (fun d i l => d.refreshDesc i l) := rfl

theorem exec_markSuspect (s : State) : exec .markSuspect s = onDesc s .rc 4 (fun d i l => d.markSuspect i l) := rfl

theorem exec_descriptorDone (n i : Nat) (s : State) : exec (.descriptorDone n i) s = execDescriptorDone n i s := rfl

/-! ### What MS does with a descriptor whose fields are right (R223) -/

section
variable {d : Dev} {i lun b : Nat} {l : Line}

/-- No operation of the LUN has begun, so it holds no tokens and has no suspends and no block group. -/
theorem Dev.lunQuery_idle (runs : d.msRuns = true) (named : lun = bodyAt l 0 7 * 32 + bodyAt l 1 5) (there : populated d lun = true)
    (queued : ∀ o ∈ d.ms.ops, o.lun = lun → o.st = .queued) (state : d.lunState lun = 0) (idle : d.activeOp lun = none)
    (unsuspended : d.suspendedOp lun = none) (good : d.lunFailed lun = false) : d.lunQuery i l = d.answer .ms i 0 0 0 := by
  have begun : d.ms.ops.filter (fun o => o.lun = lun && o.st != .queued) = [] :=
    List.filter_eq_nil_iff.mpr (fun o mem => by simpa using queued o mem)
  subst named
  simp [Dev.lunQuery, runs, there, begun, state, idle, unsuspended, good, pack]

theorem Dev.rawReadDesc_queues (wrong : List Line) (runs : d.msRuns = true) (named : lun = Pga.dieLun (bodyAt l 0 44 / 16))
    (there : populated d lun = true) (block : Pga.block (bodyAt l 0 44 / 16) < d.blockGroups)
    (wl : Pga.wl (bodyAt l 0 44 / 16) < d.wordLines) (cw : cwIndex (bodyAt l 0 44) < d.codewords) (good : d.lunFailed lun = false)
    (buffer : d.bufferOk (bodyAt l 16 64) 8192 = true) :
    d.rawReadDesc i l wrong =
      (d.modDesc .ms i (fun x => { x with wrong := wrong })).queueOp lun (.raw (bodyAt l 0 44) i) 0 0 := by
  subst named
  simp [Dev.rawReadDesc, runs, there, block, wl, cw, good, buffer]

theorem Dev.retireDesc_empties (runs : d.msRuns = true) (lunNamed : lun = Pga.dieLun (bodyAt l 0 40))
    (blockNamed : b = Pga.block (bodyAt l 0 40)) (wl : Pga.wl (bodyAt l 0 40) = 0) (slot : Pga.slot (bodyAt l 0 40) = 0)
    (there : populated d lun = true) (block : b < d.blockGroups) (unwitness : (d.entry lun b).state ≠ .witness)
    (unsystem : (d.entry lun b).state ≠ .system) (good : d.lunFailed lun = false) :
    d.retireDesc i l = (d.modDesc .ms i (fun x => { x with goal := blockKey lun b })).retireSoon lun b := by
  subst lunNamed blockNamed
  simp [Dev.retireDesc, runs, wl, slot, there, block, unwitness, unsystem, good]

/-! ### What RC does with a descriptor whose fields are right (R283) -/

/-- The descriptor names a stripe that exists and is not retired. -/
theorem Dev.onStripe_present {id : Nat} (f : Dev → Nat → Dev) (runs : d.rcRuns = true) (named : id = bodyAt l 0 40)
    (mem : id ∈ d.allStripes) (present : d.stripeRetired id = false) : d.onStripe i l f = f d id := by
  subst named
  simp [Dev.onStripe, runs, mem, present]

theorem pack_mod_lowest {w n v : Nat} {fields : List (Nat × Nat × Nat)} (fit : FieldsFit w ((0, n, v) :: fields)) :
    pack ((0, n, v) :: fields) % 2 ^ n = v % 2 ^ n := by
  have lowest := bitsOf_pack fit List.mem_cons_self
  rwa [bitsOf, Nat.shiftRight_zero] at lowest

theorem Dev.stripeQuery_answers {id : Nat} (runs : d.rcRuns = true) (named : id = bodyAt l 0 40) (mem : id ∈ d.allStripes)
    (present : d.stripeRetired id = false) :
    ∃ w0 w1, d.stripeQuery i l = d.answer .rc i 0 w0 w1 ∧ w0 % 2 ^ 16 = ((d.stripeEntries id).map (fun e => e.valid)).sum % 2 ^ 16 := by
  rw [Dev.stripeQuery, Dev.onStripe_present _ runs named mem present]
  -- The valid granules stand in the lowest 16 bits of word 0.
  exact ⟨_, _, rfl, pack_mod_lowest (w := 32) (by simp [FieldsFit])⟩

theorem Dev.reclaimDesc_closed {id : Nat} (runs : d.rcRuns = true) (named : id = bodyAt l 0 40) (mem : id ∈ d.allStripes)
    (present : d.stripeRetired id = false) (closed : ∀ e ∈ d.stripeEntries id, e.state = .closed) :
    d.reclaimDesc i l = d.makeVictim id (some i) := by
  have noVictim : ¬(d.stripeEntries id).any (fun e => e.state == .victim) = true := by
    simp only [List.any_eq_true, not_exists, not_and]
    exact fun e entry => by simp [closed e entry]
  have allClosed : (d.stripeEntries id).all (fun e => e.state == .closed) = true :=
    List.all_eq_true.mpr (fun e entry => beq_iff_eq.mpr (closed e entry))
  rw [Dev.reclaimDesc, Dev.onStripe_present _ runs named mem present, if_neg noVictim, if_pos allClosed]

theorem Dev.refreshDesc_begins (runs : d.rcRuns = true) (named : lun = bodyAt l 0 7 * 32 + bodyAt l 1 5)
    (there : populated d lun = true) (good : d.lunFailed lun = false) :
    d.refreshDesc i l = d.addPass { why := .refreshLun lun, left := d.setsIn lun none, urgent := false, desc := some i } := by
  subst named
  simp [Dev.refreshDesc, runs, there, good]

theorem Dev.markSuspect_marks (runs : d.rcRuns = true) (lunNamed : lun = Pga.dieLun (bodyAt l 0 40))
    (blockNamed : b = Pga.block (bodyAt l 0 40)) (wl : Pga.wl (bodyAt l 0 40) = 0) (slot : Pga.slot (bodyAt l 0 40) = 0)
    (there : populated d lun = true) (block : b < d.blockGroups) (present : (d.entry lun b).state.present = true) :
    d.markSuspect i l = (d.modEntry lun b (fun e => { e with suspect := true })).answer .rc i 0 0 0 := by
  subst lunNamed blockNamed
  simp [Dev.markSuspect, runs, wl, slot, there, block, present]
end

/-! ### The end of a descriptor (R350) -/

/-- A descriptor with a result has nothing left to do. -/
theorem Dev.resumeDesc_known {d : Dev} {x : Desc} {r : Nat × Dword × Dword} (known : x.result = some r) : d.resumeDesc x = d :=
  if_pos (by simp [known])

theorem descriptorDone_gives {s : State} {n i : Nat} {u : Unit4} {x : Desc} {r : Nat × Dword × Dword} (unit : unitOf n = some u)
    (awake : s.dev.awake = true) (alive : s.dev.isDead = false)
    (found : (s.dev.inProgress u).find? (fun x => x.index = i) = some x) (known : x.result = some r) :
    Gives (.descriptorDone n i) s (s.dev.endDesc x r) := by
  have taken : s.dev.descOf u i = some x := found
  rw [Gives, exec_descriptorDone, execDescriptorDone, actOn_some (a := u) (by simp [unit, awake, alive])]
  simp only [taken, Dev.resumeDesc_known known, known, Option.some_or]

/-! ### The statement -/

/-- Settles O46: a posted descriptor is taken, and what its unit does with right fields is the lemma above of its opcode. -/
theorem mediaDescriptorsComplete : Obligations.MediaDescriptorsComplete := by
  refine ⟨?lunQuery, ?rawRead, ?retireBlock, ?stripe, ?refreshLun, ?markSuspect, fun s n i u x r => descriptorDone_gives⟩
  case lunQuery =>
    rintro s i lun l _ ready rfl runs named there queued state idle unsuspended good
    exact .of_onDesc (exec_lunQuery s) ready (Dev.lunQuery_idle runs named there queued state idle unsuspended good)
  case rawRead =>
    rintro s i lun l _ wrong ready rfl runs named there block wl cw good buffer
    exact .of_onDesc (exec_rawRead wrong s) ready (Dev.rawReadDesc_queues wrong runs named there block wl cw good buffer)
  case retireBlock =>
    rintro s i lun b l _ ready rfl runs lunNamed blockNamed wl slot there block unwitness unsystem good
    exact .of_onDesc (exec_retireBlock s) ready
      (Dev.retireDesc_empties runs lunNamed blockNamed wl slot there block unwitness unsystem good)
  case stripe =>
    rintro s i id l _ rfl named runs mem present
    exact ⟨fun ready => ⟨.of_onDesc (exec_stripeQuery s) ready rfl, Dev.stripeQuery_answers runs named mem present⟩,
      fun ready closed => .of_onDesc (exec_reclaim s) ready (Dev.reclaimDesc_closed runs named mem present closed)⟩
  case refreshLun =>
    rintro s i lun l _ ready rfl runs named there good
    exact .of_onDesc (exec_refreshLun s) ready (Dev.refreshDesc_begins runs named there good)
  case markSuspect =>
    rintro s i lun b l _ ready rfl runs lunNamed blockNamed wl slot there block present
    exact .of_onDesc (exec_markSuspect s) ready (Dev.markSuspect_marks runs lunNamed blockNamed wl slot there block present)

end Sys2Proof.Machine
end

section
/-! SUPPORT. Boot steps 1 to 5 (O38). A projection of an update is read off by the law of the update, with rw: the kernel is not to compute
the registers. -/

namespace Sys2Proof.Machine

theorem Dev.bootAt_iff (d : Dev) (k : Nat) : d.bootAt k = true ↔ d.pw.phase = .booting ∧ d.pw.bootStep = k := by
  simp [Dev.bootAt]

/-! ### The end of a boot step -/

section
variable (d : Dev) (k : Nat)

theorem Dev.endBootStep_pw (at_ : d.bootAt k = true) :
    (d.endBootStep k).pw.phase = .booting ∧ (d.endBootStep k).pw.bootStep = k + 1 := by
  obtain ⟨booting, step⟩ := (d.bootAt_iff k).mp at_
  simp [Dev.endBootStep, booting, step]

/-- Of the registers, only the step's time is written. -/
theorem Dev.endBootStep_get {f : Fld} (other : f.addr ≠ (Reg.PW_BOOT_TIME.ms.at (4 * (k - 1))).addr) :
    (d.endBootStep k).get f = d.get f := by
  unfold Dev.endBootStep
  split
  · rw [Dev.modPw_get, Dev.raise_get, Dev.get_put_other _ _ _ _ other]
  · rfl

theorem Dev.endBootStep_portState (p : Nat) : ((d.endBootStep k).port p).state = (d.port p).state := by
  have kept : (d.endBootStep k).portFixed p = d.portFixed p := by
    unfold Dev.endBootStep
    split
    · exact Dev.raise_portFixed _ _ _
    · rfl
  exact (Dev.portFixed_eq kept).1
end

/-! ### CODEFLASH_SCAN and CONFIGURATION_LOAD (R292, R479) -/

theorem exec_codeflashScan (ok : Bool) (s : State) : exec (.codeflashScan ok) s = execCodeflashScan ok s := rfl

theorem exec_configurationLoad (nor : NorInfo) (image : List Byte) (s : State) :
    exec (.configurationLoad nor image) s = execConfigurationLoad nor image s := rfl

theorem codeflashScan_gives {s : State} (booting : s.dev.pw.phase = .booting) (unscanned : s.dev.bit Reg.CF_STATUS.scan_done = false) :
    Gives (.codeflashScan true) s (s.dev.scan.endBootStep 1) := by
  rw [Gives, exec_codeflashScan, execCodeflashScan, act_true (by simp [booting, unscanned])]
  rfl

theorem configurationLoad_gives {s : State} (nor : NorInfo) (image : List Byte) (booting : s.dev.pw.phase = .booting)
    (step : s.dev.pw.bootStep = 2) : Gives (.configurationLoad nor image) s (s.dev.readImage nor image) := by
  rw [Gives, exec_configurationLoad, execConfigurationLoad, act_true (by simp [booting, step])]

theorem Dev.noteNor_nand (d : Dev) (nor : NorInfo) : (d.noteNor nor).nand = d.nand := by
  unfold Dev.noteNor
  split
  · rfl
  · simp only [Dev.put_nand, Dev.flag_nand]

/-- The load-failed state: FAULT_N is asserted, and the NAND is as it was. -/
theorem Dev.loadFails_spec (d : Dev) (code off : Nat) :
    (d.loadFails code off).pw.phase = .loadFailed ∧ (d.loadFails code off).pw.faultN = true ∧ (d.loadFails code off).nand = d.nand := by
  refine ⟨?_, ?_, ?_⟩
  · rw [Dev.loadFails, Dev.emit_pw, Dev.modPw_pw]
  · rw [Dev.loadFails, Dev.emit_pw, Dev.modPw_pw]
  · rw [Dev.loadFails, Dev.emit_nand, Dev.modPw_nand, Dev.noteLoad, Dev.put_nand, Dev.put_nand, Dev.put_nand, Dev.put_nand]

/-- An image that the judgement refuses fails the load. -/
theorem Dev.readImage_refused {d : Dev} {nor : NorInfo} {image : List Byte} {code off : Nat}
    (refused : d.judgeImage nor image = .inl (code, off)) :
    ∃ e : Dev, d.readImage nor image = e.loadFails code off ∧ e.nand = d.nand := by
  refine ⟨(if norOk nor then d.noteNor nor else d).put Reg.CF_LOAD_INFO.records (if code ≤ 2 then 0 else norNum image 16 2), ?_, ?_⟩
  · rw [Dev.readImage, refused]
  · rw [Dev.put_nand]
    split
    · exact d.noteNor_nand nor
    · rfl

/-! ### IMAGE_AUTHENTICATION (R452, R456, R462) -/

theorem exec_imageAuthentication (kat march : Option Nat) (ok : Bool) (s : State) :
    exec (.imageAuthentication kat march ok) s = execImageAuthentication kat march ok s := rfl

theorem imageAuthentication_gives {s : State} (kat march : Option Nat) (ok : Bool) (step : s.dev.bootAt 3 = true) :
    Gives (.imageAuthentication kat march ok) s (s.dev.authenticateImages kat march ok) := by
  rw [Gives, exec_imageAuthentication, execImageAuthentication, act_true step]

/-! ### DDR5_TRAINING (R295, R409) -/

theorem exec_ddr5Training (failed : Option Nat) (r w : Nat) (s : State) :
    exec (.ddr5Training failed r w) s = execDdr5Training failed r w s := rfl

theorem ddr5Training_gives {s : State} (failed : Option Nat) (r w : Nat) (step : s.dev.bootAt 4 = true) :
    Gives (.ddr5Training failed r w) s (s.dev.trainDram failed r w) := by
  rw [Gives, exec_ddr5Training, execDdr5Training, act_true step]

/-- A channel that fails is fatal. -/
theorem Dev.trainDram_fails (d : Dev) {c : Nat} (r w : Nat) (lt : c < 6) : (d.trainDram (some c) r w).pw.phase = .deadbolt := by
  have bad : (some c).filter (fun c => decide (c < 6)) = some c := by simp [lt]
  simp only [Dev.trainDram, bad]
  exact Dev.fatal_phase _ _ _ _ _

/-- Every channel is trained: DRAM is in use, its end is Warden's, and the block table has its place in it. -/
def Dev.dramUsable (d : Dev) (r w : Nat) : Dev :=
  let d := (d.put Reg.DC_STATUS.state 1).each (List.range 6) (fun d c => d.trained c r w)
  let d := (d.put Reg.DC_STATUS.state 2).raise Irq.trainingDone
  (d.put Reg.BC_DRAM_LIMIT.limit (dramBase + d.dramSize - 2 ^ 28)).put Reg.RC_TABLE_BASE.base (d.allotAt 2)

theorem Dev.trainDram_passes (d : Dev) (r w : Nat) :
    d.trainDram none r w = ((d.dramUsable r w).each (d.dramUsable r w).portList (fun d p => d.openPort p)).endBootStep 4 := by
  have every : (List.range 6).filter (fun c => some c != none) = List.range 6 := by decide
  unfold Dev.trainDram
  dsimp only
  split
  next c failed => simp at failed
  next => rw [Option.filter_none, every, Dev.dramUsable]

section
variable (d : Dev) (r w : Nat)

theorem Dev.ports_eq_of_get {d e : Dev} (same : e.get Reg.PW_STRAPS.two_port = d.get Reg.PW_STRAPS.two_port) : e.ports = d.ports := by
  rw [Dev.ports, Dev.ports, Dev.bit, Dev.bit, same]

theorem Dev.trained_pw (c : Nat) : (d.trained c r w).pw = d.pw := by
  rw [Dev.trained, Dev.put_pw, Dev.put_pw, Dev.put_pw, Dev.put_pw]

/-- A channel's result stands in its own register and in DC_STATUS. -/
theorem Dev.trained_get (c : Nat) {f : Fld} (train : f.addr ≠ Reg.DC_TRAIN.pass.addr + 4 * c) (status : f.addr ≠ Reg.DC_STATUS.trained.addr) :
    (d.trained c r w).get f = d.get f := by
  rw [Dev.trained, Dev.get_put_other _ _ _ _ status, Dev.get_put_other _ _ _ _ train, Dev.get_put_other _ _ _ _ train,
    Dev.get_put_other _ _ _ _ train]

theorem Dev.trained_twoPort (c : Nat) : (d.trained c r w).get Reg.PW_STRAPS.two_port = d.get Reg.PW_STRAPS.two_port := by
  refine d.trained_get r w c ?_ (by decide)
  simp only [Reg.PW_STRAPS.two_port, Reg.DC_TRAIN.pass]
  omega

theorem Dev.dramUsable_pw : (d.dramUsable r w).pw = d.pw := by
  rw [Dev.dramUsable, Dev.put_pw, Dev.put_pw, Dev.raise_pw, Dev.put_pw, Dev.each_keeps Dev.pw _ (fun d c => d.trained_pw r w c), Dev.put_pw]

theorem Dev.dramUsable_state : (d.dramUsable r w).get Reg.DC_STATUS.state = 2 := by
  rw [Dev.dramUsable, Dev.get_put_other _ _ _ _ (by decide), Dev.get_put_other _ _ _ _ (by decide), Dev.raise_get,
    Dev.get_put_same _ _ _ (by decide)]
  rfl

theorem Dev.dramUsable_ports : (d.dramUsable r w).ports = d.ports := by
  refine Dev.ports_eq_of_get ?_
  rw [Dev.dramUsable, Dev.get_put_other _ _ _ _ (by decide), Dev.get_put_other _ _ _ _ (by decide), Dev.raise_get,
    Dev.get_put_other _ _ _ _ (by decide), Dev.each_keeps (fun d => d.get Reg.PW_STRAPS.two_port) _ (fun d c => d.trained_twoPort r w c),
    Dev.get_put_other _ _ _ _ (by decide)]

/-! ### The ports open (R139, R295) -/

@[simp] theorem Dev.openPort_pw (p : Nat) : (d.openPort p).pw = d.pw := by
  unfold Dev.openPort
  dsimp only
  split <;> simp

@[simp] theorem Dev.openPort_get (p : Nat) (f : Fld) : (d.openPort p).get f = d.get f := by
  unfold Dev.openPort
  dsimp only
  split <;> simp

theorem Dev.openPort_port (p q : Nat) : (d.openPort p).port q = (d.modPort p (fun t => { t with state := .holding })).port q := by
  unfold Dev.openPort
  dsimp only
  split <;> rfl

theorem Dev.openPort_holding (p : Nat) : ((d.openPort p).port p).state = .holding := by
  rw [Dev.openPort_port, Dev.modPort_port]

theorem Dev.modPort_port_cases (q p : Nat) (f : Port → Port) :
    (d.modPort q f).port p = f (d.port p) ∨ (d.modPort q f).port p = d.port p := by
  unfold Dev.modPort Dev.port
  split <;> split <;> simp

/-- Opening another port leaves an open one open. -/
theorem Dev.openPort_keeps {d : Dev} {p : Nat} (open_ : (d.port p).state = .holding) (q : Nat) :
    ((d.openPort q).port p).state = .holding := by
  rw [Dev.openPort_port]
  rcases d.modPort_port_cases q p (fun t => { t with state := .holding }) with opened | same
  · rw [opened]
  · rw [same, open_]

theorem Dev.each_openPort_keeps {d : Dev} {p : Nat} (open_ : (d.port p).state = .holding) (l : List Nat) :
    ((d.each l (fun d q => d.openPort q)).port p).state = .holding := by
  induction l generalizing d with
  | nil => exact open_
  | cons q l ih => exact ih (Dev.openPort_keeps open_ q)

theorem Dev.each_openPort_holding {p : Nat} {l : List Nat} (mem : p ∈ l) :
    ((d.each l (fun d q => d.openPort q)).port p).state = .holding := by
  obtain ⟨before, after, rfl⟩ := List.append_of_mem mem
  rw [Dev.each_append, Dev.each_cons]
  exact Dev.each_openPort_keeps (Dev.openPort_holding _ p) after
end

/-- With every channel trained the step ends and each port of the device holds its commands. -/
theorem Dev.trainDram_opens {d : Dev} (r w : Nat) (at_ : d.bootAt 4 = true) :
    (d.trainDram none r w).bootAt 5 = true ∧ (d.trainDram none r w).get Reg.DC_STATUS.state = 2 ∧
    ∀ p < d.ports, ((d.trainDram none r w).port p).state = .holding := by
  rw [Dev.trainDram_passes]
  have opened : ((d.dramUsable r w).each (d.dramUsable r w).portList (fun d p => d.openPort p)).pw = d.pw :=
    (Dev.each_keeps Dev.pw _ (fun d p => d.openPort_pw p) _ _).trans (d.dramUsable_pw r w)
  refine ⟨(Dev.bootAt_iff _ 5).mpr (Dev.endBootStep_pw _ 4 ?_), ?_, fun p lt => ?_⟩
  · rwa [Dev.bootAt, opened]
  · rw [Dev.endBootStep_get _ _ (by decide), Dev.each_keeps (fun d => d.get Reg.DC_STATUS.state) _ (fun d p => d.openPort_get p _)]
    exact d.dramUsable_state r w
  · rw [Dev.endBootStep_portState]
    exact Dev.each_openPort_holding _ (List.mem_range.mpr (lt.trans_eq (d.dramUsable_ports r w).symm))

theorem Dev.port_zero (d : Dev) : d.port 0 = d.port0 := rfl

theorem Dev.port_one (d : Dev) : d.port 1 = d.port1 := rfl

theorem Dev.ports_pos (d : Dev) : 0 < d.ports := by
  unfold Dev.ports
  split <;> decide

/-! ### Boot step 5 (R202, R203, R219, R245) -/

theorem exec_pwCmdReleaseFphy (s : State) : exec .pwCmdReleaseFphy s = execPwCmdReleaseFphy s := rfl

theorem exec_flashBringUp (n : Nat) (bad : BitVec 32) (ok : Bool) (r w : Nat) (s : State) :
    exec (.flashBringUp n bad ok r w) s = execFlashBringUp n bad ok r w s := rfl

theorem exec_wakeAuditMeasurement (m : List Measure) (s : State) :
    exec (.wakeAuditMeasurement m) s = execWakeAuditMeasurement m s := rfl

@[simp] theorem Dev.setChannel_pw (d : Dev) (n st : Nat) : (d.setChannel n st).pw = d.pw := by
  rw [Dev.setChannel, Dev.raise_pw, Dev.put_pw]

@[simp] theorem Dev.setCeiling_pw (d : Dev) (n : Nat) : (d.setCeiling n).pw = d.pw := by
  unfold Dev.setCeiling
  dsimp only
  split
  · simp
  · split <;> simp

theorem Dev.releaseFphy_fphy (d : Dev) : d.releaseFphy.pw.fphy = true := by
  rw [Dev.releaseFphy, Dev.each_keeps Dev.pw _ (fun d n => d.setChannel_pw n 1), Dev.setCeiling_pw, Dev.put_pw, Dev.modMs_pw, Dev.modPw_pw]

section
variable {s : State}

theorem pwCmdReleaseFphy_gives (step : s.dev.bootAt 5 = true) (held : s.dev.pw.fphy = false) (runs : s.dev.wardenRuns = true) :
    Gives .pwCmdReleaseFphy s s.dev.releaseFphy := by
  rw [Gives, exec_pwCmdReleaseFphy, execPwCmdReleaseFphy, act_true (by simp [step, held, runs])]

theorem flashBringUp_gives {n : Nat} (bad : BitVec 32) (ok : Bool) (r w : Nat) (step : s.dev.bootAt 5 = true)
    (released : s.dev.pw.fphy = true) (lt : n < 128) (waits : s.dev.get (fcReg n Reg.FC_STATUS.state) = 1)
    (room : ∀ c ∈ s.dev.bringUpCosts, s.dev.fits c = true) :
    Gives (.flashBringUp n bad ok r w) s (s.dev.channelOutcome n bad ok r w) := by
  rw [Gives, exec_flashBringUp, execFlashBringUp, act_true (by simp [step, released, lt, waits, Dev.roomFor_of_fits room])]

theorem wakeAuditMeasurement_gives (m : List Measure) (step : s.dev.bootAt 5 = true) (ready : s.dev.get Reg.MS_STATUS.state = 2)
    (measures : s.dev.get Reg.CD_STATUS.state = 1) (room : ∀ c ∈ s.dev.readCosts, s.dev.fits c = true) :
    Gives (.wakeAuditMeasurement m) s (s.dev.takeMeasures m) := by
  rw [Gives, exec_wakeAuditMeasurement, execWakeAuditMeasurement,
    act_true (by simp [step, ready, measures, Dev.roomFor_of_fits room])]
end

/-! ### The statement -/

/-- Settles O38: each clause is the rule above of its command; training opens the ports or is fatal, and a refused image fails the load. -/
theorem bootStepsOneToFiveComplete : Obligations.BootStepsOneToFiveComplete := by
  refine ⟨fun s => codeflashScan_gives, fun s nor image => configurationLoad_gives nor image, ?refused,
    fun s kat march ok => imageAuthentication_gives kat march ok, ?trained, fun s c r w step lt =>
      ⟨_, ddr5Training_gives (some c) r w step, s.dev.trainDram_fails r w lt⟩,
    fun s step held runs => ⟨_, pwCmdReleaseFphy_gives step held runs, rfl, s.dev.releaseFphy_fphy⟩,
    fun s n bad ok r w => flashBringUp_gives bad ok r w, fun s m => wakeAuditMeasurement_gives m⟩
  case refused =>
    intro s nor image code off booting step refused
    obtain ⟨e, fails, nand⟩ := Dev.readImage_refused refused
    obtain ⟨phase, fault, kept⟩ := e.loadFails_spec code off
    exact ⟨_, fails ▸ configurationLoad_gives nor image booting step, phase, fault, kept.trans nand⟩
  case trained =>
    intro s r w step
    obtain ⟨next, state, holding⟩ := Dev.trainDram_opens r w step
    obtain ⟨booting, five⟩ := (Dev.bootAt_iff _ 5).mp next
    refine ⟨_, ddr5Training_gives none r w step, five, booting, state, ?_, fun two => ?_⟩
    · rw [← Dev.port_zero, holding 0 s.dev.ports_pos]
    · rw [← Dev.port_one, holding 1 (by rw [two]; decide)]

end Sys2Proof.Machine
end

section
/-! SUPPORT. Decodes, the ladder's fallback and the witness interval (O43). -/

namespace Sys2Proof.Machine

/-! ### DECODE_RESULT (R227, R250 to R252) -/

theorem exec_decodeResult (id : Nat) (f : Check) (unsat : Nat) (s : State) :
    exec (.decodeResult id f unsat) s = execDecodeResult id f unsat s := rfl

/-- What a decoder found passes for a request: its tier lost nothing, and the codeword is on flash. -/
def Dev.passes (d : Dev) (q : CwReq) (f : Check) : Bool :=
  (f.syndromeZero && (d.isParity q.addr || (f.crcOk && f.address = q.addr))) && !q.dead && d.onFlash q.addr

section
variable {d : Dev} {q : CwReq} {f : Check}

theorem Dev.passes_iff : d.passes q f = true ↔
    f.syndromeZero = true ∧ (d.isParity q.addr = true ∨ f.crcOk = true ∧ f.address = q.addr) ∧ q.dead = false ∧ d.onFlash q.addr = true := by
  simp only [Dev.passes, Bool.and_eq_true, Bool.or_eq_true, decide_eq_true_eq, Bool.not_eq_true', and_assoc]

/-- One of the four conditions fails. -/
theorem Dev.passes_false (fails : f.syndromeZero = false ∨ d.isParity q.addr = false ∧ (f.crcOk = false ∨ f.address ≠ q.addr) ∨
    q.dead = true ∨ d.onFlash q.addr = false) : d.passes q f = false := by
  rw [Bool.eq_false_iff, Ne, Dev.passes_iff]
  rintro ⟨zero, right, live, there⟩
  rcases fails with syndrome | ⟨unparity, wrong⟩ | dead | gone
  · simp [syndrome] at zero
  · obtain ⟨crc, address⟩ := right.resolve_left (by simp [unparity])
    rcases wrong with crcBad | elsewhere
    · simp [crcBad] at crc
    · exact elsewhere address
  · simp [dead] at live
  · simp [gone] at there
end

/-- A request whose reads are all in notes the unsatisfied checks, and ends or fails its tier. -/
theorem decodeResult_gives {s : State} {id unsat : Nat} {r q : CwReq} {e : Dev} (f : Check) (found : s.dev.req id = some r)
    (awaits : r.awaits = true) (alive : s.dev.isDead = false) (noted : q = r.noteUnsat (unsat % 2 ^ 32))
    (kept : e = s.dev.modReq id (fun _ => q)) :
    Gives (.decodeResult id f unsat) s (if e.passes q f then (e.noteAdjust q).reqEnded q true else e.decodeFailed q) := by
  subst noted kept
  rw [Gives, exec_decodeResult, execDecodeResult, actOn_some (a := r) (by simp [found, awaits, alive])]
  rfl

/-! ### LADDER_FALLBACK (R251) -/

theorem exec_ladderFallback (id : Nat) (s : State) : exec (.ladderFallback id) s = execLadderFallback id s := rfl

theorem ladderFallback_gives {s : State} {id : Nat} {r : CwReq} (found : s.dev.req id = some r) (waits : r.st = .waitingStep)
    (unheld : s.dev.qe.hold = none) (alive : s.dev.isDead = false)
    (late : s.dev.expired r.timer (msTicks (s.dev.get Reg.CD_LADDER_CFG.policy_ms) + r.paused) = true) :
    Gives (.ladderFallback id) s (s.dev.nextTier r) := by
  rw [Gives, exec_ladderFallback, execLadderFallback, actOn_some (a := r) (by simp [found, waits, unheld, alive]), if_pos late]

/-! ### WITNESS_INTERVAL (R244) -/

theorem exec_witnessInterval (ch l valley : Nat) (s : State) :
    exec (.witnessInterval ch l valley) s = execWitnessInterval ch l valley s := rfl

/-- What CD does for a LUN whose interval has passed. -/
def Dev.renewLine (d : Dev) (lun valley : Nat) : Dev :=
  match d.witnessPlace lun with
  | some w => d.startSweep w d.sweepLevel valley (.interval lun)
  | none => d.queueWitness lun 1

theorem Dev.renewLine_sweeps {d : Dev} {lun w : Nat} (valley : Nat) (line : d.witnessPlace lun = some w) :
    d.renewLine lun valley = d.startSweep w d.sweepLevel valley (.interval lun) := by
  rw [Dev.renewLine, line]

theorem Dev.renewLine_queues {d : Dev} {lun : Nat} (valley : Nat) (unlined : d.witnessPlace lun = none) :
    d.renewLine lun valley = d.queueWitness lun 1 := by
  rw [Dev.renewLine, unlined]

theorem witnessInterval_gives {s : State} {ch l lun valley : Nat} (named : lun = ch * 32 + l) (good : lun ∈ s.dev.goodLuns)
    (run : s.dev.inRun = true) (uncommitted : s.dev.pw.phase ≠ .committing) (step : valley < 16) (alive : s.dev.isDead = false)
    (idle : s.dev.lineUnderway lun = false)
    (due : s.dev.optExpired (s.dev.drift lun).lastWitness (hourTicks (s.dev.get Reg.CD_WITNESS_CFG.interval_h)) = true) :
    Gives (.witnessInterval ch l valley) s
      ((s.dev.modDrift lun (fun x => { x with lastWitness := s.dev.optTicks })).renewLine lun valley) := by
  subst named
  rw [Gives, exec_witnessInterval, execWitnessInterval, act_true (by simp [good, run, uncommitted, step, alive, idle, due])]
  rfl

/-! ### The statement -/

/-- Settles O43: each clause is the rule above of its command. -/
theorem decodesAndWitnessesComplete : Obligations.DecodesAndWitnessesComplete := by
  refine ⟨?decode, fun s id r => ladderFallback_gives, ?interval⟩
  case decode =>
    intro s id unsat f r q e found awaits alive noted kept
    have gives := decodeResult_gives f found awaits alive noted kept
    refine ⟨fun zero right live there => ?_, fun fails => ?_⟩
    · rwa [if_pos (Dev.passes_iff.mpr ⟨zero, right, live, there⟩)] at gives
    · rwa [Dev.passes_false fails, if_neg Bool.false_ne_true] at gives
  case interval =>
    rintro s ch l lun valley _ named good run uncommitted step alive idle due rfl
    have gives := witnessInterval_gives named good run uncommitted step alive idle due
    exact ⟨fun w line => Dev.renewLine_sweeps valley line ▸ gives, fun unlined => Dev.renewLine_queues valley unlined ▸ gives⟩

end Sys2Proof.Machine
end

section
/-! SUPPORT. CD's descriptors (O44). -/

namespace Sys2Proof.Machine

theorem exec_ladderStep (s : State) : exec .ladderStep s = onDesc s .cd 1 (fun d i l => d.ladderStep i l) := rfl

theorem exec_witnessSweep (counts : List Dword) (s : State) : exec (.witnessSweep counts) s = execWitnessSweep counts s := rfl

theorem exec_referenceQuery (s : State) : exec .referenceQuery s = onDesc s .cd 3 (fun d i l => d.referenceQuery i l) := rfl

theorem exec_sample (place limit : Nat) (s : State) : exec (.sample place limit) s = execSample place limit s := rfl

/-- The operand holds one count for each threshold and step of the sweep. -/
theorem exec_witnessSweep_counted {s : State} {counts : List Dword} (counted : counts.length = 16 * s.dev.thresholds) :
    exec (.witnessSweep counts) s = onDesc s .cd 2 (fun d i l => d.witnessSweep i l counts) := if_pos counted

/-- SAMPLE names the set and the tier of the posted descriptor. -/
theorem sample_gives {s : State} {i : Nat} {l : Line} (ready : s.dev.entryReady .cd 4 = some (i, l)) :
    Gives (.sample (bodyAt l 0 40) (bodyAt l 5 8)) s ((s.dev.takeDesc .cd i l).sampleSet i l) := by
  rw [Gives, exec_sample, execSample, actOn_some (a := (i, l)) (by simp [ready])]

/-! ### What CD does with a descriptor whose fields are right (R260) -/

section
variable {d : Dev} {i lun b : Nat} {l : Line} (done : d.cdDone = true)
include done

/-- The request waits for the tier that the descriptor orders. -/
theorem Dev.ladderStep_climbs {r : CwReq} (found : d.req (bodyAt l 0 32) = some r) (waits : r.st = .waitingStep)
    (next : r.tier + 1 = bodyAt l 4 8) : d.ladderStep i l = d.nextTier r := by
  have ordered : (d.req (bodyAt l 0 32)).filter (fun r => r.st == .waitingStep && r.tier + 1 = bodyAt l 4 8) = some r := by
    simp [found, waits, next]
  simp only [Dev.ladderStep, done, ordered, Bool.not_true, Bool.false_eq_true, if_false]

theorem Dev.witnessSweep_begins {w : Nat} (counts : List Dword) (there : populated d (bodyAt l 0 7 * 32 + bodyAt l 1 5) = true)
    (level : bodyAt l 2 8 < d.bitsPerCell) (good : d.lunFailed (bodyAt l 0 7 * 32 + bodyAt l 1 5) = false)
    (buffer : d.bufferOk (bodyAt l 16 64) 2048 = true) (line : d.witnessPlace (bodyAt l 0 7 * 32 + bodyAt l 1 5) = some w) :
    d.witnessSweep i l counts =
      (d.modDesc .cd i (fun x => { x with counts := counts })).startSweep w (bodyAt l 2 8) 0 (.sweep i) := by
  simp [Dev.witnessSweep, done, there, level, good, buffer, line]

theorem Dev.referenceQuery_answers (lunNamed : lun = Pga.dieLun (bodyAt l 0 44 / 16)) (blockNamed : b = Pga.block (bodyAt l 0 44 / 16))
    (there : populated d lun = true) (block : b < d.blockGroups) (wl : Pga.wl (bodyAt l 0 44 / 16) < d.wordLines)
    (cw : cwIndex (bodyAt l 0 44) < d.codewords) (good : d.lunFailed lun = false)
    (buffer : d.bufferOk (bodyAt l 16 64) d.thresholds = true) :
    d.referenceQuery i l = (d.writeBuffer (bodyAt l 16 64)
      ((List.range d.thresholds).map (fun t =>
        (d.baseRef lun (d.levelOf (cwIndex (bodyAt l 0 44))) (d.binsOf lun b).1 (d.binsOf lun b).2 t % 256).toNat)) 0x36).answer .cd i 0
        ((d.binsOf lun b).2 + 16 * (d.binsOf lun b).1 +
          (if (d.adjustment lun (d.levelOf (cwIndex (bodyAt l 0 44))) (d.binsOf lun b).2).isSome then 128 else 0)) 0 := by
  subst lunNamed blockNamed
  simp [Dev.referenceQuery, done, there, block, wl, cw, good, buffer]

theorem Dev.sampleSet_requests (there : populated d (Pga.dieLun (bodyAt l 0 40)) = true)
    (block : Pga.block (bodyAt l 0 40) < d.blockGroups) (wl : Pga.wl (bodyAt l 0 40) < d.wordLines) (tier : bodyAt l 5 8 ≤ 4)
    (good : d.lunFailed (Pga.dieLun (bodyAt l 0 40)) = false) :
    d.sampleSet i l = d.each (List.range d.codewords) (fun e k =>
      e.oneReq (Pga.set (bodyAt l 0 40) * 16 + k) (.sample i (bodyAt l 5 8)) 0 0) := by
  simp [Dev.sampleSet, done, there, block, wl, tier, good]
end

/-! ### The statement -/

/-- Settles O44: a posted descriptor is taken, and what CD does with right fields is the lemma above of its opcode. -/
theorem codecDescriptorsComplete : Obligations.CodecDescriptorsComplete := by
  refine ⟨?ladderStep, ?witnessSweep, ?referenceQuery, ?sample⟩
  case ladderStep =>
    rintro s i l _ r ready rfl done found waits next
    exact .of_onDesc (exec_ladderStep s) ready (Dev.ladderStep_climbs done found waits next)
  case witnessSweep =>
    rintro s i l _ counts w ready rfl counted done there level good buffer line
    exact .of_onDesc (exec_witnessSweep_counted counted) ready (Dev.witnessSweep_begins done counts there level good buffer line)
  case referenceQuery =>
    rintro s i lun b l _ ready rfl lunNamed blockNamed done there block wl cw good buffer
    exact .of_onDesc (exec_referenceQuery s) ready
      (Dev.referenceQuery_answers done lunNamed blockNamed there block wl cw good buffer)
  case sample =>
    rintro s i l _ ready rfl done there block wl tier good
    rw [← Dev.sampleSet_requests done there block wl tier good]
    exact sample_gives ready

end Sys2Proof.Machine
end

section
/-! SUPPORT. What an enabled or disabled command gives, and how a sequencing fault ends: used for the wake order, the power pins and Hasp
(O36, O37, O40). -/

namespace Sys2Proof.Machine

/-! ### What a command gives -/

section
variable {c : Instr} {s : State}

/-- A command whose condition holds has its effect. -/
theorem Gives.of_act {enabled : Dev → Bool} {f : Dev → Dev} (arm : exec c s = act s enabled f) (holds : enabled s.dev = true) :
    Gives c s (f s.dev) := arm.trans (act_true holds)

/-- A command whose condition does not hold changes nothing. -/
theorem Gives.of_act_disabled {enabled : Dev → Bool} {f : Dev → Dev} (arm : exec c s = act s enabled f)
    (fails : enabled s.dev = false) : Gives c s s.dev := arm.trans (act_false fails)

variable {α : Type} {item : Dev → Option α} {f : Dev → α → Dev}

theorem Gives.of_actOn {a : α} (arm : exec c s = actOn s item f) (found : item s.dev = some a) : Gives c s (f s.dev a) :=
  arm.trans (actOn_some found)

theorem Gives.of_actOn_absent (arm : exec c s = actOn s item f) (absent : item s.dev = none) : Gives c s s.dev :=
  arm.trans (actOn_none absent)
end

/-! ### A privileged signal ends in Deadbolt (R422, R427) -/

theorem Dev.captureMsg_pw (d : Dev) (m : FaultMsg) (final : Nat) (escalated privileged : Bool) :
    (d.captureMsg m final escalated privileged).pw = d.pw := by
  unfold Dev.captureMsg
  dsimp only
  split
  · rw [Dev.follow_pw]
  · split
    · rw [Dev.raise_pw, Dev.setCapture_pw]
    · split
      · rw [Dev.raise_pw, Dev.setCapture_pw]
      · rw [Dev.setCapture_pw]

section
variable {d : Dev} (alive : d.isDead = false)
include alive

theorem Dev.enterDeadbolt_faultN (source kind : Nat) (privileged : Bool) : (d.enterDeadbolt source kind privileged).pw.faultN = true := by
  rw [Dev.enterDeadbolt, if_neg (by simp [alive]), Dev.modPw_pw]

/-- A device that is not in Deadbolt enters it with FAULT_N asserted. -/
theorem Dev.privileged_deadbolt (m : FaultMsg) : (d.privileged m).pw.phase = .deadbolt ∧ (d.privileged m).pw.faultN = true := by
  have entered : ∃ e : Dev, e.pw = d.pw ∧ d.privileged m = e.enterDeadbolt m.source m.kind true := by
    rw [Dev.privileged, if_neg (by simp [alive])]
    refine ⟨_, ?_, rfl⟩
    split
    · rw [Dev.captureMsg_pw, Dev.recordFault, Dev.record_pw, Dev.countFault_pw]
    · rfl
  obtain ⟨e, same, eq⟩ := entered
  have living : e.isDead = false := by rw [Dev.isDead, same]; exact alive
  rw [eq]
  exact ⟨e.enterDeadbolt_phase _ _ _, Dev.enterDeadbolt_faultN living _ _ _⟩
end

end Sys2Proof.Machine
end

section
/-! SUPPORT. Arrivals and the wake order (O36). -/

namespace Sys2Proof.Machine

/-! ### Power domains -/

section
variable (d : Dev) (f : Nat → Domain → Domain)

/-- What setting one domain's flags keeps, changing every domain keeps. -/
theorem Dev.allDomains_keeps {β : Type} (π : Dev → β) (one : ∀ d k x, π (Dev.setPowerDomain d k x) = π d) :
    π (d.allDomains f) = π d :=
  Dev.each_keeps π _ (fun d k => one d k _) d _

theorem Dev.allDomains_regs : (d.allDomains f).regs = d.regs := d.allDomains_keeps f Dev.regs (fun _ _ _ => rfl)

theorem Dev.allDomains_phase : (d.allDomains f).pw.phase = d.pw.phase := d.allDomains_keeps f (fun d => d.pw.phase) (fun _ _ _ => rfl)

theorem Dev.allDomains_wakeStep : (d.allDomains f).pw.wakeStep = d.pw.wakeStep :=
  d.allDomains_keeps f (fun d => d.pw.wakeStep) (fun _ _ _ => rfl)

theorem Dev.allDomains_perstLow : (d.allDomains f).pw.perstLow = d.pw.perstLow :=
  d.allDomains_keeps f (fun d => d.pw.perstLow) (fun _ _ _ => rfl)

theorem Dev.setPowerDomain_powerDomain (j k : Nat) (x : Domain) :
    (d.setPowerDomain j x).powerDomain k = if k = j then x else d.powerDomain k := by
  rw [Dev.powerDomain, Dev.setPowerDomain, Dev.modPw_pw]
  split
  next same => rw [same, Tbl.find_put_same, Option.getD_some]
  next other => rw [Tbl.find_put_other _ _ _ _ other, Dev.powerDomain]

theorem Dev.modPw_powerDomain {g : Pw → Pw} (k : Nat) (same : ∀ w, (g w).domains = w.domains) :
    (d.modPw g).powerDomain k = d.powerDomain k := by
  rw [Dev.powerDomain, Dev.modPw_pw, same, Dev.powerDomain]

/-- Changing each domain of a list once changes those domains, and no other. -/
theorem Dev.each_setPowerDomain {l : List Nat} (distinct : l.Nodup) (d : Dev) (k : Nat) :
    (d.each l (fun e j => e.setPowerDomain j (f j (e.powerDomain j)))).powerDomain k =
      if k ∈ l then f k (d.powerDomain k) else d.powerDomain k := by
  induction l generalizing d with
  | nil => simp
  | cons j l ih =>
    obtain ⟨fresh, rest⟩ := List.nodup_cons.mp distinct
    rw [Dev.each_cons, ih rest, Dev.setPowerDomain_powerDomain]
    by_cases same : k = j
    · subst same
      simp [fresh]
    · simp [same]

theorem switchOrder_range : ∀ k ∈ switchOrder, k ∈ (List.range 23).map (fun i => i + 2) := by decide

/-- PW switches every domain of step 1's order. -/
theorem Dev.allDomains_powerDomain {k : Nat} (switched : k ∈ switchOrder) :
    (d.allDomains f).powerDomain k = f k (d.powerDomain k) := by
  rw [Dev.allDomains, Dev.each_setPowerDomain f (by decide), if_pos (switchOrder_range k switched)]
end

/-! ### Arrivals (R286, R291, R490) -/

theorem exec_powerOn (straps : BitVec 8) (s : State) : exec (.powerOn straps) s = execPowerOn straps s := rfl

theorem exec_wakeN (us : Nat) (s : State) : exec (.wakeN us) s = execWakeN us s := rfl

theorem execPowerOn_legal {straps : BitVec 8} (legal : straps.toNat / 16 = 0) (s : State) :
    execPowerOn straps s = act s (fun d => d.mayPowerOn) (fun d => d.powerUp straps false) := if_neg (not_not_intro legal)

theorem powerOn_gives {s : State} {straps : BitVec 8} (legal : straps.toNat / 16 = 0) (off : s.dev.mayPowerOn = true) :
    Gives (.powerOn straps) s (s.dev.powerUp straps false) :=
  .of_act ((exec_powerOn straps s).trans (execPowerOn_legal legal s)) off

/-- A WAKE_N of 10 microseconds or more is seen. -/
theorem Dev.wakeSeen_long (d : Dev) {us : Nat} (long : 10 ≤ us) : d.wakeSeen us = d.powerUp d.pw.straps true := by
  rw [Dev.wakeSeen, if_neg (by omega), if_pos long]

theorem wakeN_gives {s : State} {us : Nat} (stopped : s.dev.pw.phase = .stopped) (long : 10 ≤ us) :
    Gives (.wakeN us) s (s.dev.powerUp s.dev.pw.straps true) := by
  rw [Gives, exec_wakeN, execWakeN, act_true (by simp [stopped])]
  simp only [stopped, beq_self_eq_true, if_true, Dev.wakeSeen_long _ long]

theorem Dev.powerUp_straps (d : Dev) (straps : BitVec 8) (wake : Bool) :
    (d.powerUp straps wake).get ⟨Reg.PW_STRAPS.spare.addr, 0, 8⟩ = straps.toNat := by
  rw [Dev.get, Dev.powerUp, Dev.reg_setReg_same _ _ _ (by omega), Nat.shiftRight_zero, Nat.mod_eq_of_lt straps.isLt]

/-! ### The wake order (R288, R289) -/

theorem exec_pwrGood (s : State) : exec .pwrGood s = execPwrGood s := rfl

theorem exec_clkReady (s : State) : exec .clkReady s = execClkReady s := rfl

theorem exec_memReady (s : State) : exec .memReady s = execMemReady s := rfl

theorem exec_perstNRelease (s : State) : exec .perstNRelease s = execPerstNRelease s := rfl

theorem exec_sequencingFault (s : State) : exec .sequencingFault s = execSequencingFault s := rfl

theorem Dev.wakeAt_iff (d : Dev) (n : Nat) : d.wakeAt n = true ↔ d.pw.phase = .waking ∧ d.pw.wakeStep = n := by
  simp [Dev.wakeAt]

/-- The switch output of domain k has settled. -/
def Dev.switchSettled (d : Dev) (k : Nat) : Dev :=
  let d := d.setPowerDomain k { d.powerDomain k with pwrGood := true }
  if d.nextSwitch.isNone then d.modPw (fun w => { w with wakeStep := 2 }) else d

theorem pwrGood_gives {s : State} {k : Nat} (step : s.dev.wakeAt 1 = true) (next : s.dev.nextSwitch = some k) :
    Gives .pwrGood s (s.dev.switchSettled k) := by
  have awaited : (if s.dev.wakeAt 1 then s.dev.nextSwitch else none) = some k := by rw [if_pos step, next]
  exact .of_actOn (exec_pwrGood s) awaited

/-- The next domain is awaited, or step 2 begins. -/
theorem Dev.switchSettled_spec {d : Dev} (k : Nat) (step : d.pw.wakeStep = 1) :
    ((d.switchSettled k).powerDomain k).pwrGood = true ∧ (d.switchSettled k).nand = d.nand ∧ (d.switchSettled k).regs = d.regs ∧
    ((d.switchSettled k).nextSwitch = none → (d.switchSettled k).pw.wakeStep = 2) ∧
    ((d.switchSettled k).nextSwitch ≠ none → (d.switchSettled k).pw.wakeStep = 1) := by
  have settled : ((d.setPowerDomain k { d.powerDomain k with pwrGood := true }).powerDomain k).pwrGood = true := by
    rw [Dev.setPowerDomain_powerDomain, if_pos rfl]
  unfold Dev.switchSettled
  dsimp only
  split
  next last => exact ⟨settled, rfl, rfl, fun _ => rfl, fun more => absurd (Option.isNone_iff_eq_none.mp last) more⟩
  next more => exact ⟨settled, rfl, rfl, fun last => absurd (Option.isNone_iff_eq_none.mpr last) more, fun _ => step⟩

/-- Step 2 of the wake order, done: every domain's clock runs. -/
def Dev.clocksUp (d : Dev) : Dev :=
  (d.allDomains (fun _ x => { x with clkReady := true })).modPw (fun w => { w with wakeStep := 3 })

theorem clkReady_gives {s : State} (step : s.dev.wakeAt 2 = true) : Gives .clkReady s s.dev.clocksUp :=
  .of_act (exec_clkReady s) step

theorem Dev.clocksUp_spec {d : Dev} (step : d.wakeAt 2 = true) :
    d.clocksUp.pw.wakeStep = 3 ∧ d.clocksUp.pw.phase = .waking ∧ d.clocksUp.regs = d.regs ∧
    ∀ k ∈ switchOrder, (d.clocksUp.powerDomain k).clkReady = true := by
  refine ⟨rfl, ?_, ?_, fun k switched => ?_⟩
  · rw [Dev.clocksUp, Dev.modPw_pw, Dev.allDomains_phase, ((d.wakeAt_iff 2).mp step).1]
  · rw [Dev.clocksUp, Dev.modPw_regs, Dev.allDomains_regs]
  · rw [Dev.clocksUp, Dev.modPw_powerDomain (g := fun w => { w with wakeStep := 3 }) _ _ (fun _ => rfl),
      Dev.allDomains_powerDomain _ _ switched]

/-- Step 3 of the wake order, done: every domain's arrays are ready. -/
def Dev.arraysUp (d : Dev) : Dev :=
  d.allDomains (fun _ x => { x with
    pwrGood := true
    clkReady := true
    memReady := true })

theorem Dev.arraysUp_spec {d : Dev} (step : d.wakeAt 3 = true) :
    d.arraysUp.arraysReady = true ∧ d.arraysUp.pw.wakeStep = 3 ∧ d.arraysUp.pw.phase = .waking ∧ d.arraysUp.regs = d.regs := by
  obtain ⟨waking, three⟩ := (d.wakeAt_iff 3).mp step
  refine ⟨List.all_eq_true.mpr (fun k switched => ?_), ?_, ?_, ?_⟩
  · rw [Dev.arraysUp, Dev.allDomains_powerDomain _ _ switched]
  · rw [Dev.arraysUp, Dev.allDomains_wakeStep, three]
  · rw [Dev.arraysUp, Dev.allDomains_phase, waking]
  · rw [Dev.arraysUp, Dev.allDomains_regs]

theorem memReady_gives {s : State} (step : s.dev.wakeAt 3 = true) (waits : s.dev.arraysReady = false)
    (low : s.dev.pw.perstLow = true) : Gives .memReady s s.dev.arraysUp := by
  have still : s.dev.arraysUp.pw.perstLow = true := (s.dev.allDomains_perstLow _).trans low
  rw [Gives, exec_memReady, execMemReady, act_true (by simp [step, waits])]
  exact congrArg (fun d => Host.Outcome.next { s with dev := d }) (if_pos still)

/-! ### Step 4 (R288, R291) -/

/-- Every domain but those of FPHY is released, and PW has noted when. -/
def Dev.domainsReleased (d : Dev) (up : Nat) : Dev :=
  (d.allDomains (fun k x => { x with released := !(17 ≤ k && k ≤ 20) })).each (switchOrder.filter (fun k => !(17 ≤ k && k ≤ 20)))
    (fun e k => e.put (Reg.PW_DOMAIN.up_time.at (4 * (k - 1))) up)

/-- The phase is the boot sequence's, at its first step. -/
def Dev.bootPhase (d : Dev) : Dev :=
  d.modPw (fun w => { w with
    phase := .booting
    wakeStep := 4
    bootStep := 1
    stepStart := d.now
    step4 := d.now
    optSub := 0 })

/-- OPT counts from 0, and the watchdogs, EV and the boot cause follow the release. -/
def Dev.noteRelease (d : Dev) : Dev :=
  let d := (d.put Reg.PW_OPT.opt 0).modCores (fun c => { c with wdogStart := d.now })
  let d := d.modEv (fun e => { e with lastWrite := d.now })
  d.put Reg.PW_BOOT_CAUSE.cause
    (d.get Reg.PW_BOOT_CAUSE.cause + (if d.pw.latchPower then 16 else 0) + (if d.pw.latchWake then 32 else 0))

/-- Step 4 but for a PWR_FAIL_N that is low. -/
def Dev.bootBegun (d : Dev) : Dev :=
  (d.draw.2.domainsReleased ((Config.freeWord d.draw.1).toNat % 2 ^ 16)).bootPhase.noteRelease

theorem Dev.releaseLogic_eq (d : Dev) :
    d.releaseLogic = if d.bootBegun.pw.pwrFailLow then d.bootBegun.pwrFail else d.bootBegun := rfl

theorem Dev.noteRelease_pw (d : Dev) : d.noteRelease.pw = d.pw := by
  rw [Dev.noteRelease, Dev.put_pw, Dev.modEv_pw, Dev.modCores_pw, Dev.put_pw]

theorem Dev.noteRelease_nand (d : Dev) : d.noteRelease.nand = d.nand := by
  rw [Dev.noteRelease, Dev.put_nand, Dev.modEv_nand, Dev.modCores_nand, Dev.put_nand]

section
variable (d : Dev) (up : Nat)

/-- What setting a domain's flags and writing a field both keep, the release of the domains keeps. -/
theorem Dev.domainsReleased_keeps {β : Type} (π : Dev → β) (flags : ∀ d k x, π (Dev.setPowerDomain d k x) = π d)
    (field : ∀ d f v, π (Dev.put d f v) = π d) : π (d.domainsReleased up) = π d :=
  (Dev.each_keeps π _ (fun e _ => field e _ _) _ _).trans (d.allDomains_keeps _ π flags)

theorem Dev.domainsReleased_pwrFailLow : (d.domainsReleased up).pw.pwrFailLow = d.pw.pwrFailLow :=
  d.domainsReleased_keeps up (fun d => d.pw.pwrFailLow) (fun _ _ _ => rfl) (fun _ _ _ => rfl)

theorem Dev.domainsReleased_perstLow : (d.domainsReleased up).pw.perstLow = d.pw.perstLow :=
  d.domainsReleased_keeps up (fun d => d.pw.perstLow) (fun _ _ _ => rfl) (fun _ _ _ => rfl)

theorem Dev.domainsReleased_nand : (d.domainsReleased up).nand = d.nand :=
  d.domainsReleased_keeps up Dev.nand (fun _ _ _ => rfl) (fun _ _ _ => rfl)
end

theorem Dev.bootBegun_spec (d : Dev) :
    d.bootBegun.pw.phase = .booting ∧ d.bootBegun.pw.bootStep = 1 ∧ d.bootBegun.pw.wakeStep = 4 ∧
      d.bootBegun.pw.pwrFailLow = d.pw.pwrFailLow ∧ d.bootBegun.pw.perstLow = d.pw.perstLow ∧ d.bootBegun.nand = d.nand := by
  rw [Dev.bootBegun, Dev.noteRelease_pw, Dev.noteRelease_nand, Dev.bootPhase, Dev.modPw_pw, Dev.modPw_nand]
  simp only [Dev.domainsReleased_pwrFailLow, Dev.domainsReleased_perstLow, Dev.domainsReleased_nand, Dev.draw_pw, Dev.draw_nand, and_self]

/-- Logic is released with PWR_FAIL_N high. -/
theorem Dev.releaseLogic_high {d : Dev} (high : d.pw.pwrFailLow = false) : d.releaseLogic = d.bootBegun := by
  obtain ⟨_, _, _, same, _, _⟩ := d.bootBegun_spec
  rw [Dev.releaseLogic_eq, if_neg (by simp [same, high])]

/-- PERST_N is high. -/
def Dev.perstHigh (d : Dev) : Dev := d.modPw (fun w => { w with perstLow := false })

theorem perstNRelease_gives {s : State} (step : s.dev.wakeAt 3 = true) (ready : s.dev.arraysReady = true)
    (low : s.dev.pw.perstLow = true) : Gives .perstNRelease s s.dev.perstHigh.releaseLogic := by
  have begun : s.dev.perstHigh.wakeAt 0 = false := by simp [Dev.wakeAt, Dev.perstHigh, ((s.dev.wakeAt_iff 3).mp step).2]
  have third : s.dev.perstHigh.wakeAt 3 = true := step
  have still : s.dev.perstHigh.arraysReady = true := ready
  rw [Gives, exec_perstNRelease, execPerstNRelease, act_true low, ← Dev.perstHigh]
  simp only [begun, third, still, Bool.false_and, Bool.and_self, Bool.false_eq_true, if_false, if_true]

/-! ### A ready signal that does not come (R289) -/

/-- A step of the wake order is awaited before logic is released, so not in Deadbolt. -/
theorem Dev.awaits_waking {d : Dev} (awaits : d.awaits = true) : d.pw.phase = .waking := by
  have steps : d.wakeAt 1 = true ∨ d.wakeAt 2 = true ∨ d.wakeAt 3 = true ∧ d.arraysReady = false := by
    simpa [Dev.awaits, or_assoc] using awaits
  rcases steps with h | h | ⟨h, _⟩ <;> exact ((d.wakeAt_iff _).mp h).1

theorem sequencingFault_gives {s : State} (awaits : s.dev.awaits = true) : Gives .sequencingFault s s.dev.sequenceFailed :=
  .of_act (exec_sequencingFault s) awaits

theorem Dev.sequenceFailed_deadbolt {d : Dev} (alive : d.isDead = false) :
    d.sequenceFailed.pw.phase = .deadbolt ∧ d.sequenceFailed.pw.faultN = true := by
  unfold Dev.sequenceFailed
  dsimp only
  refine Dev.privileged_deadbolt ?_ _
  rw [Dev.isDead, Dev.put_pw, Dev.put_pw, Dev.put_pw]
  split
  · exact alive
  · exact alive

/-! ### The statement -/

/-- Settles O36: an arrival is Dev.powerUp, each ready signal is the rule above of its command, and a fault of the
sequence is a privileged signal. -/
theorem wakeCommandsComplete : Obligations.WakeCommandsComplete := by
  refine ⟨fun s straps => powerOn_gives, fun s us => wakeN_gives, fun d straps w => ⟨rfl, rfl, rfl, rfl, rfl, rfl, rfl, rfl, rfl,
    d.powerUp_straps straps w⟩, ?settled,
    fun s step => ⟨_, clkReady_gives step, Dev.clocksUp_spec step⟩,
    fun s step waits low => ⟨_, memReady_gives step waits low, Dev.arraysUp_spec step⟩, ?released, ?fault⟩
  case settled =>
    intro s k step next
    exact ⟨_, pwrGood_gives step next, Dev.switchSettled_spec k ((s.dev.wakeAt_iff 1).mp step).2⟩
  case released =>
    intro s step ready low high
    obtain ⟨booting, first, fourth, _, perst, nand⟩ := s.dev.perstHigh.bootBegun_spec
    exact ⟨_, Dev.releaseLogic_high (d := s.dev.perstHigh) high ▸ perstNRelease_gives step ready low, booting, first, fourth, perst,
      nand⟩
  case fault =>
    intro s awaits
    have alive : s.dev.isDead = false := by rw [Dev.isDead, Dev.awaits_waking awaits]; rfl
    exact ⟨_, sequencingFault_gives awaits, Dev.sequenceFailed_deadbolt alive⟩

end Sys2Proof.Machine
end

section
/-! SUPPORT. PERST_N, VDD_AON and PWR_FAIL_N (O37). -/

namespace Sys2Proof.Machine

theorem exec_perstNAssert (us : Nat) (s : State) : exec (.perstNAssert us) s = execPerstNAssert us s := rfl

theorem exec_vddAonLoss (s : State) : exec .vddAonLoss s = execVddAonLoss s := rfl

theorem exec_pwrFailNAssert (ns : Nat) (s : State) : exec (.pwrFailNAssert ns) s = execPwrFailNAssert ns s := rfl

theorem exec_pwrFailNRelease (s : State) : exec .pwrFailNRelease s = execPwrFailNRelease s := rfl

theorem exec_pwrFailResume (s : State) : exec .pwrFailResume s = execPwrFailResume s := rfl

/-! ### What a cut leaves of PW: everything (R177, R290, R383) -/

section
variable (d : Dev)

theorem Dev.cutLog_pw : d.cutLog.pw = d.pw := by
  unfold Dev.cutLog
  split
  · rfl
  · dsimp only
    split <;> rfl

theorem Dev.cutRecord_pw (x : WlSet) : (d.cutRecord x).pw = d.pw := by
  unfold Dev.cutRecord
  split <;> rfl

theorem Dev.cutWitness_pw (x : WlSet) : (d.cutWitness x).pw = d.pw := by
  unfold Dev.cutWitness
  split <;> rfl

theorem Dev.forgetBlocks_pw (l : List (Nat × Nat)) : (d.forgetBlocks l).pw = d.pw := rfl

theorem Dev.cutFlash_pw : d.cutFlash.pw = d.pw := by
  rw [Dev.cutFlash, Dev.modMs_pw, Dev.each_keeps Dev.pw _ (fun d x => d.cutWitness_pw x), Dev.forgetBlocks_pw,
    Dev.each_keeps Dev.pw _ (fun d x => d.cutRecord_pw x), Dev.modNand_pw, Dev.cutLog_pw]

theorem Dev.cutLine_pw (p i : Nat) (ok : Sector → Bool) : (d.cutLine p i ok).pw = d.pw := by
  unfold Dev.cutLine
  dsimp only
  split <;> rfl

theorem Dev.cutCodeFlash_pw : d.cutCodeFlash.pw = d.pw := by
  unfold Dev.cutCodeFlash
  split
  · exact d.cutLine_pw _ _ _
  · exact d.cutLine_pw _ _ _
  · rfl
  · rfl

theorem Dev.cut_pw : d.cut.pw = d.pw := by
  rw [Dev.cut, Dev.cutCodeFlash_pw, Dev.cutFlash_pw]

theorem Dev.cut_straps : d.cut.pw.straps = d.pw.straps := by rw [Dev.cut_pw]
end

/-! ### PERST_N (R290, R291, R495) -/

theorem Dev.alive_of_awake {d : Dev} (awake : d.awake = true) : d.isDead = false := by
  refine beq_eq_false_iff_ne.mpr (fun dead => ?_)
  simp [Dev.awake, Dev.inRun, dead] at awake

theorem Dev.perstAssert_awake {d : Dev} (awake : d.awake = true) : d.perstAssert = d.perstReset := by
  rw [Dev.perstAssert, if_neg (by simp [Dev.alive_of_awake awake]), if_pos (by simp [awake])]

/-- A reset in Run: AON keeps the straps and the latch, and the flash parts and the code flash what a cut leaves; all else is reset. -/
theorem Dev.perstReset_spec (d : Dev) :
    d.perstReset.pw.phase = .waking ∧ d.perstReset.pw.perstLow = true ∧ d.perstReset.pw.perstReset = true ∧
      d.perstReset.pw.latchPower = d.pw.latchPower ∧ d.perstReset.pw.latchWake = d.pw.latchWake ∧
      d.perstReset.pw.straps = d.pw.straps ∧ d.perstReset.nand = d.cut.nand ∧
      d.perstReset.cf = { sectors := d.cut.cf.sectors } ∧ d.perstReset.qe = {} ∧ d.perstReset.cx = {} ∧ d.perstReset.mem = {} ∧
      d.perstReset.bm = {} ∧ d.perstReset.mp = {} ∧ d.perstReset.ms = {} ∧ d.perstReset.cd = {} ∧ d.perstReset.rc = {} ∧
      d.perstReset.cores = {} ∧ d.perstReset.ft = {} ∧ d.perstReset.mt = {} :=
  ⟨rfl, rfl, rfl, rfl, rfl, d.cut_straps, rfl, rfl, rfl, rfl, rfl, rfl, rfl, rfl, rfl, rfl, rfl, rfl, rfl⟩

section
variable {s : State} {us : Nat} (high : s.dev.pw.perstLow = false)
include high

theorem perstNAssert_gives (us : Nat) : Gives (.perstNAssert us) s
    (if 100 ≤ us then s.dev.perstAssert
      else if Config.freeBool s.dev.draw.1 then s.dev.draw.2.perstAssert else s.dev.draw.2) :=
  .of_act (exec_perstNAssert us s) (by simp [high])

theorem perstNAssert_long_gives (long : 100 ≤ us) : Gives (.perstNAssert us) s s.dev.perstAssert := by
  have given := perstNAssert_gives high us
  rwa [if_pos long] at given

/-- A shorter pulse acts or does not. -/
theorem perstNAssert_short_gives (short : us < 100) :
    Gives (.perstNAssert us) s s.dev.draw.2.perstAssert ∨ Gives (.perstNAssert us) s s.dev.draw.2 := by
  have given := perstNAssert_gives high us
  rw [if_neg (by omega)] at given
  split at given
  · exact .inl given
  · exact .inr given
end

/-! ### Loss of VDD_AON (R493) -/

theorem vddAonLoss_gives {s : State} (powered : s.dev.pw.phase ≠ .unpowered) : Gives .vddAonLoss s s.dev.lose :=
  .of_act (exec_vddAonLoss s) (bne_iff_ne.mpr powered)

theorem Dev.lose_spec (d : Dev) :
    d.lose.pw.phase = .unpowered ∧ d.lose.regs = [] ∧ d.lose.nand = d.cut.nand ∧ d.lose.cf = { sectors := d.cut.cf.sectors } ∧
      d.lose.qe = {} ∧ d.lose.cx = {} ∧ d.lose.mem = {} ∧ d.lose.bm = {} ∧ d.lose.mp = {} ∧ d.lose.ms = {} ∧ d.lose.cd = {} ∧
      d.lose.rc = {} ∧ d.lose.cores = {} ∧ d.lose.ft = {} ∧ d.lose.mt = {} ∧ d.lose.pw.straps = d.pw.straps :=
  ⟨rfl, rfl, rfl, rfl, rfl, rfl, rfl, rfl, rfl, rfl, rfl, rfl, rfl, rfl, rfl, d.cut_straps⟩

/-! ### PWR_FAIL_N (R305, R495) -/

/-- PWR_FAIL_N is low. -/
def Dev.pwrFailPinLow (d : Dev) : Dev := d.modPw (fun w => { w with pwrFailLow := true })

/-- PWR_FAIL_N is high. -/
def Dev.pwrFailPinHigh (d : Dev) : Dev := d.modPw (fun w => { w with pwrFailLow := false })

/-- PWR_FAIL_N has gone low, and PW acts on it where it does. -/
def Dev.pwrFailSeen (d : Dev) : Dev := if d.pwrFailActs then d.pwrFailPinLow.pwrFail else d.pwrFailPinLow

theorem Dev.pwrFailSeen_acts {d : Dev} (acts : d.pwrFailActs = true) : d.pwrFailSeen = d.pwrFailPinLow.pwrFail := if_pos acts

theorem Dev.pwrFailSeen_idle {d : Dev} (idle : d.pwrFailActs = false) : d.pwrFailSeen = d.pwrFailPinLow := if_neg (by simp [idle])

section
variable {s : State} {ns : Nat} (high : s.dev.pw.pwrFailLow = false) (powered : s.dev.pw.phase ≠ .unpowered)
include high powered

theorem pwrFailNAssert_long_gives (long : 1000 ≤ ns) : Gives (.pwrFailNAssert ns) s s.dev.pwrFailSeen := by
  rw [Gives, exec_pwrFailNAssert, execPwrFailNAssert, act_true (by simp [high, powered])]
  simp only [long, decide_true, Bool.true_or, if_true]
  rfl

/-- A shorter pulse acts or does not. -/
theorem pwrFailNAssert_short_gives (short : ns < 1000) :
    Gives (.pwrFailNAssert ns) s s.dev.draw.2.pwrFailSeen ∨ Gives (.pwrFailNAssert ns) s s.dev.draw.2 := by
  have brief : ¬1000 ≤ ns := by omega
  rw [Gives, Gives, exec_pwrFailNAssert, execPwrFailNAssert, act_true (by simp [high, powered])]
  simp only [brief, decide_false, Bool.false_or, if_false]
  cases Config.freeBool s.dev.draw.1
  · exact .inr rfl
  · exact .inl rfl
end

theorem OpKind.not_zq_not_read {k : OpKind} (changes : k.isProgram = true ∨ k.isErase = true) :
    (k == .zq) = false ∧ k.isRead = false := by
  cases k <;> simp_all [OpKind.isProgram, OpKind.isErase, OpKind.isRead]

/-- While confirms are withheld no program and no erase begins. -/
theorem Dev.mayStart_held {d : Dev} {k : OpKind} (held : d.bit Reg.PW_STATE.prog_hold = true)
    (changes : k.isProgram = true ∨ k.isErase = true) : d.mayStart k = false := by
  obtain ⟨notZq, notRead⟩ := OpKind.not_zq_not_read changes
  simp [Dev.mayStart, notZq, notRead, held]

theorem Dev.bit_of_get {d : Dev} {f : Fld} (set : d.get f = 1) : d.bit f = true := by
  rw [Dev.bit, set]
  rfl

/-- An assertion but for what Prepare makes of it. -/
def Dev.holdPrograms (d : Dev) : Dev :=
  let d := ((d.put Reg.PW_STATE.pwr_fail 1).put Reg.PW_STATE.prog_hold 1).addSat Reg.PW_PWRFAIL.count 1
  let d := d.modPw (fun w => { w with
    failSince := d.now
    highSince := none })
  (d.event 0x0103 Src.pw (d.get Reg.PW_PWRFAIL.count) 0 0).raise Irq.pwrFail

theorem Dev.pwrFail_eq (d : Dev) :
    d.pwrFail = if d.holdPrograms.pw.phase == .preparing then d.holdPrograms.haspRelease 8 false else d.holdPrograms := rfl

theorem Dev.holdPrograms_phase (d : Dev) : d.holdPrograms.pw.phase = d.pw.phase := by
  rw [Dev.holdPrograms, Dev.raise_pw, Dev.event_pw, Dev.modPw_pw, Dev.addSat_pw, Dev.put_pw, Dev.put_pw]

theorem Dev.event_get (d : Dev) {f : Fld} (h : Unrecorded f) (code src p0 p1 p2 : Nat) : (d.event code src p0 p1 p2).get f = d.get f :=
  d.record_get h code src 0 false p0 p1 p2

/-- No event record writes PW_STATE. -/
theorem progHold_unrecorded : Unrecorded Reg.PW_STATE.prog_hold := ⟨by decide, by decide, by decide⟩

theorem Dev.holdPrograms_bits (d : Dev) :
    d.holdPrograms.bit Reg.PW_STATE.prog_hold = true ∧ d.holdPrograms.bit Reg.PW_STATE.pwr_fail = true := by
  constructor
  · refine Dev.bit_of_get ?_
    rw [Dev.holdPrograms, Dev.raise_get, Dev.event_get _ progHold_unrecorded, Dev.modPw_get, Dev.get_addSat_other _ _ (by decide),
      Dev.get_put_same _ _ _ (by decide)]
    rfl
  · refine Dev.bit_of_get ?_
    rw [Dev.holdPrograms, Dev.raise_get, Dev.event_get _ (f := Reg.PW_STATE.pwr_fail) progHold_unrecorded, Dev.modPw_get,
      Dev.get_addSat_other _ _ (by decide), Dev.get_put_apart _ _ _ _ (by decide) (by decide), Dev.get_put_same _ _ _ (by decide)]
    rfl

/-- The end of an assertion: its length is recorded, and the hold timer starts. -/
def Dev.pwrFailEnds (d : Dev) : Dev :=
  let ms := (d.now - d.pw.failSince) / 1000
  let d := (d.put Reg.PW_STATE.pwr_fail 0).put Reg.PW_PWRFAIL.longest_ms (max (d.get Reg.PW_PWRFAIL.longest_ms) (min ms 65535))
  let d := d.modPw (fun w => { w with highSince := some d.now })
  (d.event 0x0104 Src.pw ms 0 0).raise Irq.pwrFailEnd

/-- PWR_FAIL_N has gone high, and PW acts on it where it does. -/
def Dev.pwrFailOver (d : Dev) : Dev := if d.pwrFailActs then d.pwrFailPinHigh.pwrFailEnds else d.pwrFailPinHigh

theorem Dev.pwrFailOver_acts {d : Dev} (acts : d.pwrFailActs = true) : d.pwrFailOver = d.pwrFailPinHigh.pwrFailEnds := if_pos acts

theorem Dev.pwrFailOver_idle {d : Dev} (idle : d.pwrFailActs = false) : d.pwrFailOver = d.pwrFailPinHigh := if_neg (by simp [idle])

theorem pwrFailNRelease_gives {s : State} (low : s.dev.pw.pwrFailLow = true) : Gives .pwrFailNRelease s s.dev.pwrFailOver :=
  .of_act (exec_pwrFailNRelease s) low

theorem Dev.now_put (d : Dev) {f : Fld} (v : Nat) (other : Reg.PW_TIMEBASE.ticks.addr ≠ f.addr) : (d.put f v).now = d.now :=
  d.get_put_other f _ v other

theorem Dev.pwrFailEnds_spec (d : Dev) :
    d.pwrFailEnds.pw.pwrFailLow = d.pw.pwrFailLow ∧ d.pwrFailEnds.pw.highSince = some d.now ∧
      d.pwrFailEnds.pw.phase = d.pw.phase ∧ d.pwrFailEnds.nand = d.nand := by
  have power : d.pwrFailEnds.pw = { d.pw with highSince := some d.now } := by
    rw [Dev.pwrFailEnds, Dev.raise_pw, Dev.event_pw, Dev.modPw_pw, Dev.now_put _ _ (by decide), Dev.now_put _ _ (by decide),
      Dev.put_pw, Dev.put_pw]
  refine ⟨by rw [power], by rw [power], by rw [power], ?_⟩
  rw [Dev.pwrFailEnds, Dev.raise_nand, Dev.event_nand, Dev.modPw_nand, Dev.put_nand, Dev.put_nand]

theorem pwrFailResume_gives {s : State} {t : Nat} (acts : s.dev.pwrFailActs = true) (high : s.dev.pw.pwrFailLow = false)
    (held : s.dev.bit Reg.PW_STATE.prog_hold = true) (since : s.dev.pw.highSince = some t) :
    Gives .pwrFailResume s (if s.dev.expired t (msTicks 10) then
      ((s.dev.put Reg.PW_STATE.prog_hold 0).modPw (fun w => { w with highSince := none })).stir else s.dev) := by
  have waits : (if s.dev.pwrFailActs && !s.dev.pw.pwrFailLow && s.dev.bit Reg.PW_STATE.prog_hold then s.dev.pw.highSince
      else none) = some t := by
    simp [acts, high, held, since]
  exact .of_actOn (exec_pwrFailResume s) waits

/-! ### The statement -/

/-- Settles O37: each clause is the rule above of its pin's level or pulse. -/
theorem powerPinsComplete : Obligations.PowerPinsComplete := by
  refine ⟨?perst, fun s us => perstNAssert_short_gives, fun s powered => ⟨_, vddAonLoss_gives powered, s.dev.lose_spec⟩, ?failLong,
    ?failShort, fun d k => Dev.mayStart_held, ?holds, ?release, ?resume⟩
  case perst =>
    intro s us high long
    refine ⟨_, perstNAssert_long_gives high long, rfl, fun awake => ?_⟩
    rw [Dev.perstAssert_awake awake]
    exact s.dev.perstReset_spec
  case failLong =>
    intro s ns high powered long
    have given := pwrFailNAssert_long_gives high powered long
    exact ⟨fun acts => Dev.pwrFailSeen_acts acts ▸ given,
      fun idle => (Dev.pwrFailSeen_idle idle ▸ given : Gives _ s s.dev.pwrFailPinLow)⟩
  case failShort =>
    intro s ns high powered acts short
    have drawn : s.dev.draw.2.pwrFailActs = true := acts
    exact Dev.pwrFailSeen_acts drawn ▸ pwrFailNAssert_short_gives high powered short
  case holds =>
    intro d other
    have kept : (d.holdPrograms.pw.phase == .preparing) = false := by
      rw [d.holdPrograms_phase]
      exact beq_eq_false_iff_ne.mpr other
    rw [Dev.pwrFail_eq, kept]
    exact d.holdPrograms_bits
  case release =>
    intro s low
    have given := pwrFailNRelease_gives low
    exact ⟨fun acts => ⟨_, Dev.pwrFailOver_acts acts ▸ given, s.dev.pwrFailPinHigh.pwrFailEnds_spec⟩,
      fun idle => (Dev.pwrFailOver_idle idle ▸ given : Gives _ s s.dev.pwrFailPinHigh)⟩
  case resume =>
    intro s t acts high held since
    have given := pwrFailResume_gives acts high held since
    refine ⟨fun late => ?_, fun early => ?_⟩
    · rwa [if_pos late] at given
    · rwa [if_neg (by simp [early])] at given

end Sys2Proof.Machine
end

section
/-! SUPPORT. Hasp: Prepare, the answers, Commit's step 7 and its overrun (O40). -/

namespace Sys2Proof.Machine

theorem exec_pwCmdBeginPrepare (s : State) : exec .pwCmdBeginPrepare s = execPwCmdBeginPrepare s := rfl

theorem exec_pwCmdRelease (s : State) : exec .pwCmdRelease s = execPwCmdRelease s := rfl

theorem exec_haspPrepareTimeout (s : State) : exec .haspPrepareTimeout s = execHaspPrepareTimeout s := rfl

theorem exec_haspReadyAnswer (unit : Nat) (bad : List Nat) (ok : Bool) (s : State) :
    exec (.haspReadyAnswer unit bad ok) s = execHaspReadyAnswer unit bad ok s := rfl

theorem exec_pwCmdCommitStep7 (s : State) : exec .pwCmdCommitStep7 s = execPwCmdCommitStep7 s := rfl

theorem exec_haspCommitOverrun (s : State) : exec .haspCommitOverrun s = execHaspCommitOverrun s := rfl

/-! ### Prepare begins and ends (R299, R300, R303) -/

theorem Dev.mayPrepare_false {d : Dev}
    (busy : d.pw.phase ≠ .running ∨ d.pw.hasp.isSome = true ∨ d.cores.act.isSome = true ∨ d.qe.hold.isSome = true) :
    d.mayPrepare = false := by
  rw [Dev.mayPrepare]
  rcases busy with other | hasp | act | hold
  · simp [other]
  · simp [Option.isNone_eq_false_iff.mpr hasp]
  · simp [Option.isNone_eq_false_iff.mpr act]
  · simp [Option.isNone_eq_false_iff.mpr hold]

section
variable {s : State}

theorem pwCmdBeginPrepare_gives (free : s.dev.mayPrepare = true) (runs : s.dev.wardenRuns = true) :
    Gives .pwCmdBeginPrepare s ((s.dev.put Reg.PW_CMD.cmd 2).beginPrepare none) :=
  .of_act (exec_pwCmdBeginPrepare s) (by simp [free, runs])

theorem pwCmdBeginPrepare_busy_gives (busy : s.dev.mayPrepare = false) : Gives .pwCmdBeginPrepare s s.dev :=
  .of_act_disabled (exec_pwCmdBeginPrepare s) (by simp [busy])

theorem stop_busy_gives (acc : Nat) (busy : s.dev.mayPrepare = false) : Gives (.stop acc) s s.dev :=
  .of_actOn_absent (exec_stop acc s) (if_neg (by simp [busy]))

theorem pwCmdRelease_gives (preparing : s.dev.pw.phase = .preparing) (runs : s.dev.wardenRuns = true) :
    Gives .pwCmdRelease s ((s.dev.put Reg.PW_CMD.cmd 3).haspRelease (s.dev.get Reg.PW_HASP_STATUS.refused) false) :=
  .of_act (exec_pwCmdRelease s) (by simp [preparing, runs])

theorem haspPrepareTimeout_gives {h : Hasp} (preparing : s.dev.pw.phase = .preparing) (hasp : s.dev.pw.hasp = some h)
    (late : s.dev.expired h.start (msTicks (s.dev.get Reg.PW_HASP_CFG.prepare_ms)) = true) :
    Gives .haspPrepareTimeout s (s.dev.haspRelease (255 - s.dev.get Reg.PW_HASP_STATUS.ready) true) := by
  have found : (if s.dev.pw.phase == .preparing then s.dev.pw.hasp else none) = some h := by simp [preparing, hasp]
  rw [Gives, exec_haspPrepareTimeout, execHaspPrepareTimeout, actOn_some found, if_pos late]
end

section
variable (d : Dev)

theorem Dev.msRunning_pw : d.msRunning.pw = d.pw := by
  unfold Dev.msRunning
  split
  · rfl
  · rw [Dev.raise_pw, Dev.put_pw, Dev.put_pw]

theorem Dev.owe_pw (kind reason : Nat) : (d.owe kind reason).pw = d.pw := rfl

theorem Dev.owe_qe (kind reason : Nat) : (d.owe kind reason).qe = d.qe := rfl

/-- After a release the device is in Run without a Hasp, and QE accepts packets. -/
theorem Dev.resumeUnits_spec :
    d.resumeUnits.pw.phase = .running ∧ d.resumeUnits.pw.hasp = none ∧ d.resumeUnits.qe.haspDrop = false := by
  have power : d.resumeUnits.pw = { d.pw with phase := .running, hasp := none } := by
    rw [Dev.resumeUnits, Dev.raise_pw, Dev.owe_pw, Dev.put_pw, Dev.modCores_pw, Dev.modQe_pw, Dev.put_pw, Dev.put_pw, Dev.msRunning_pw,
      Dev.modPw_pw]
  refine ⟨by rw [power], by rw [power], ?_⟩
  rw [Dev.resumeUnits, Dev.raise_qe, Dev.owe_qe, Dev.put_qe, Dev.modCores_qe, Dev.modQe_qe]
end

/-! ### The answers (R299, R300) -/

section
variable {s : State} {h : Hasp} {unit : Nat} (bad : List Nat) (ok : Bool)

/-- What a participant's answer does. -/
def Dev.takeAnswer (d : Dev) (unit : Nat) (bad : List Nat) (ok : Bool) : Ready → Dev
  | .yes => if (d.unitReady unit).get Reg.PW_HASP_STATUS.ready = 255 then (d.unitReady unit).beginCommit bad ok else d.unitReady unit
  | .no => d.haspRelease (2 ^ unit) false
  | .notYet => d

theorem haspReadyAnswer_again_gives (answered : (s.dev.get Reg.PW_HASP_STATUS.ready).testBit unit = true) :
    Gives (.haspReadyAnswer unit bad ok) s s.dev :=
  .of_actOn_absent (exec_haspReadyAnswer unit bad ok s) (if_neg (by simp [answered]))

theorem haspReadyAnswer_gives (preparing : s.dev.pw.phase = .preparing) (hasp : s.dev.pw.hasp = some h)
    (first : (s.dev.get Reg.PW_HASP_STATUS.ready).testBit unit = false) :
    Gives (.haspReadyAnswer unit bad ok) s (s.dev.takeAnswer unit bad ok (s.dev.haspAnswer h unit)) := by
  have found : (if s.dev.pw.phase == .preparing && !(s.dev.get Reg.PW_HASP_STATUS.ready).testBit unit then s.dev.pw.hasp
      else none) = some h := by
    simp [preparing, first, hasp]
  rw [Gives, exec_haspReadyAnswer, execHaspReadyAnswer, actOn_some found]
  cases s.dev.haspAnswer h unit <;> rfl
end

/-! ### Commit (R151, R301, R302) -/

section
variable {s : State} {h : Hasp} (committing : s.dev.pw.phase = .committing) (hasp : s.dev.pw.hasp = some h)
include committing hasp

theorem pwCmdCommitStep7_gives :
    Gives .pwCmdCommitStep7 s (if h.commitStep = 6 && s.dev.stopPosted h then s.dev.enterStop else s.dev) := by
  have found : (if s.dev.pw.phase == .committing then s.dev.pw.hasp else none) = some h := by simp [committing, hasp]
  exact .of_actOn (exec_pwCmdCommitStep7 s) found

theorem pwCmdCommitStep7_due_gives (six : h.commitStep = 6) (posted : s.dev.stopPosted h = true) :
    Gives .pwCmdCommitStep7 s s.dev.enterStop := by
  have given := pwCmdCommitStep7_gives committing hasp
  rwa [if_pos (by simp [six, posted])] at given

theorem pwCmdCommitStep7_early_gives (early : h.commitStep ≠ 6 ∨ s.dev.stopPosted h = false) : Gives .pwCmdCommitStep7 s s.dev := by
  have given := pwCmdCommitStep7_gives committing hasp
  rwa [if_neg (by rcases early with other | waits <;> simp [*])] at given
end

/-- The device dark in Stop with the wake detector armed. -/
def Dev.stopDark (d : Dev) : Dev := (d.cut.dark .stopped).modPw (fun w => { w with detectorArmed := true })

/-- With WAKE_N high the device stays in Stop. -/
theorem Dev.enterStop_high {d : Dev} (high : d.pw.wakeUntil ≤ d.now) : d.enterStop = d.stopDark := by
  rw [Dev.enterStop, Nat.sub_eq_zero_of_le high, Dev.wakeSeen, if_pos rfl, Dev.stopDark]

/-- With WAKE_N low for long enough a wake begins. -/
theorem Dev.enterStop_low {d : Dev} (low : d.now + 10 ≤ d.pw.wakeUntil) :
    d.enterStop = d.stopDark.powerUp d.stopDark.pw.straps true :=
  Dev.wakeSeen_long _ (by omega)

/-- A sequencing fault of step 3 and domain 0 (R289, R301). -/
def Dev.commitOverrun (d : Dev) : Dev :=
  ((d.put Reg.PW_SEQ_FAULT.valid 1).put Reg.PW_SEQ_FAULT.step 3).privileged
    { source := Src.pw, kind := Kind.sequencing, cls := 2, addr := 3 * 32, access := 11 }

theorem haspCommitOverrun_gives {s : State} {h : Hasp} {t : Nat} (committing : s.dev.pw.phase = .committing)
    (hasp : s.dev.pw.hasp = some h) (begun : h.commitStart = some t)
    (late : s.dev.expired t (msTicks (s.dev.get Reg.PW_HASP_CFG.commit_ms)) = true) :
    Gives .haspCommitOverrun s s.dev.commitOverrun := by
  have found : (if s.dev.pw.phase == .committing then s.dev.pw.hasp.bind (fun h => h.commitStart) else none) = some t := by
    simp [committing, hasp, begun]
  rw [Gives, exec_haspCommitOverrun, execHaspCommitOverrun, actOn_some found, if_pos late, Dev.commitOverrun]

theorem Dev.commitOverrun_deadbolt {d : Dev} (alive : d.isDead = false) :
    d.commitOverrun.pw.phase = .deadbolt ∧ d.commitOverrun.pw.faultN = true := by
  refine Dev.privileged_deadbolt ?_ _
  rwa [Dev.isDead, Dev.put_pw, Dev.put_pw]

/-! ### The statement -/

/-- Settles O40: each clause is the rule above of its command, or what a release and an answer make of the device. -/
theorem haspCommandsComplete : Obligations.HaspCommandsComplete := by
  refine ⟨fun s => pwCmdBeginPrepare_gives, ?busy, fun s => pwCmdRelease_gives, fun s h => haspPrepareTimeout_gives,
    Dev.resumeUnits_spec, ?answers, ?stepSeven, ?overrun⟩
  case busy =>
    intro s busy
    have closed := Dev.mayPrepare_false busy
    exact ⟨pwCmdBeginPrepare_busy_gives closed, fun acc => stop_busy_gives acc closed⟩
  case answers =>
    intro s h unit bad ok preparing hasp
    refine ⟨haspReadyAnswer_again_gives bad ok, fun first => ?_⟩
    have given := haspReadyAnswer_gives bad ok preparing hasp first
    refine ⟨fun notYet => ?_, fun no => ?_, fun yes more => ?_, fun yes all => ?_⟩
    · rwa [notYet] at given
    · rwa [no] at given
    · rwa [yes, Dev.takeAnswer, if_neg more] at given
    · rwa [yes, Dev.takeAnswer, if_pos all] at given
  case stepSeven =>
    intro s h committing hasp
    refine ⟨fun six posted high => ?_, fun six posted low => ?_, pwCmdCommitStep7_early_gives committing hasp⟩
    · refine ⟨_, pwCmdCommitStep7_due_gives committing hasp six posted, rfl, ?_⟩
      rw [Dev.enterStop_high high]
      exact ⟨rfl, rfl, rfl, rfl, rfl, rfl⟩
    · refine ⟨_, pwCmdCommitStep7_due_gives committing hasp six posted, rfl, ?_⟩
      rw [Dev.enterStop_low low]
      exact ⟨rfl, rfl, rfl, rfl, rfl⟩
  case overrun =>
    intro s h t committing hasp begun late
    have alive : s.dev.isDead = false := by rw [Dev.isDead, committing]; rfl
    exact ⟨_, haspCommitOverrun_gives committing hasp begun late, Dev.commitOverrun_deadbolt alive⟩

end Sys2Proof.Machine
end

section
/-! SUPPORT. MSI-X vectors that are sent or held (O23). -/

namespace Sys2Proof.Machine

theorem exec_msixUnmask (p v : Nat) (s : State) : exec (.msixUnmask p v) s = execMsixUnmask p v s := rfl

section
variable {d : Dev} {p v : Nat} (on : (d.port p).msixEnable = true)
include on

/-- A message that nothing withholds is sent at once (R336). -/
theorem Dev.signal_sent (fn : (d.port p).msixFnMask = false) (clear : ((d.port p).vector v).masked = false) (may : d.mayIssue p = true) :
    d.signal p v = d.emit (.msix p v) := by
  simp [Dev.signal, on, fn, clear, may]

/-- A mask, or Bus Master Enable and an FLR, hold the message in the PBA (R313, R336). -/
theorem Dev.signal_held (held : (d.port p).msixFnMask = true ∨ ((d.port p).vector v).masked = true ∨ d.mayIssue p = false) :
    d.signal p v = d.modPort p (fun q => { q with msixPending := q.msixPending ||| BitVec.ofNat 513 (2 ^ v) }) := by
  rcases held with fn | masked | withheld
  · simp [Dev.signal, on, fn]
  · simp [Dev.signal, on, masked]
  · simp [Dev.signal, on, withheld]

/-- A held message goes once nothing withholds it (R336). -/
theorem Dev.resend_out (pending : (d.port p).msixPending.getLsbD v = true) (fn : (d.port p).msixFnMask = false)
    (clear : ((d.port p).vector v).masked = false) (may : d.mayIssue p = true) : (d.resend p v).out = d.out ++ [.msix p v] := by
  have goes : ((d.port p).msixPending.getLsbD v && (d.port p).msixEnable && !(d.port p).msixFnMask && !((d.port p).vector v).masked
      && d.mayIssue p) = true := by
    simp only [pending, on, fn, clear, may, Bool.not_false, Bool.and_self]
  rw [Dev.resend, if_pos goes, Dev.emit, Dev.modPort_out]
end

theorem msixUnmask_gives {s : State} {p v : Nat} (mem : s.dev.takesMemory p = true) (lt : v < 513) :
    Gives (.msixUnmask p v) s
      ((s.dev.modPort p (fun q => { q with msixTable := q.msixTable.put v { q.vector v with masked := false } })).resend p v) :=
  .of_act (exec_msixUnmask p v s) (by simp [mem, lt])

/-- Settles O23: a signal sends its message or holds it, and the unmask that clears what held it sends it. -/
theorem msixHeldAndSent : Obligations.MsixHeldAndSent :=
  ⟨fun _ _ _ => Dev.signal_sent, fun _ _ _ => Dev.signal_held, fun _ _ _ => msixUnmask_gives,
    fun _ _ _ pending on => Dev.resend_out on pending⟩

end Sys2Proof.Machine
end

section
/-! SUPPORT. The endpoint: requests, Bus Master Enable, FLR, the link and dropped writes (O34). -/

namespace Sys2Proof.Machine

theorem exec_configurationRequest (p : Nat) (w : Bool) (r : CfgReg) (v : Qword) (s : State) :
    exec (.configurationRequest p w r v) s = execConfigurationRequest p w r v s := rfl

theorem exec_unsupportedRequest (p : Nat) (s : State) : exec (.unsupportedRequest p) s = execUnsupportedRequest p s := rfl

theorem exec_busMasterEnableCleared (p : Nat) (s : State) :
    exec (.busMasterEnableCleared p) s = execBusMasterEnableCleared p s := rfl

theorem exec_busMasterEnableSet (p : Nat) (s : State) : exec (.busMasterEnableSet p) s = execBusMasterEnableSet p s := rfl

theorem exec_flr (p : Nat) (s : State) : exec (.flr p) s = execFlr p s := rfl

theorem exec_flrComplete (p : Nat) (s : State) : exec (.flrComplete p) s = execFlrComplete p s := rfl

theorem exec_linkStateChange (p state speed width : Nat) (flit : Bool) (s : State) :
    exec (.linkStateChange p state speed width flit) s = execLinkStateChange p state speed width flit s := rfl

theorem exec_unmappedBarWrite (p bar off : Nat) (f : WriteForm) (s : State) :
    exec (.unmappedBarWrite p bar off f) s = execUnmappedBarWrite p bar off f s := rfl

/-! ### Configuration requests (R312, R314, R334) -/

section
variable {s : State} {p : Nat} (r : CfgReg) (v : Qword) (on : s.dev.endpointOn p = true)
include on

theorem configurationRequest_retry_gives (w : Bool) (retry : s.dev.cfgRetry p = true) :
    Gives (.configurationRequest p w r v) s (s.dev.emit (.cfgReply p .retry 0)) := by
  rw [Gives, exec_configurationRequest, execConfigurationRequest, act_true on, if_pos retry]

theorem unsupportedRequest_gives :
    Gives (.unsupportedRequest p) s ((s.dev.aerError p .unsupportedRequest).emit (.requestReply p .unsupportedRequest)) :=
  .of_act (exec_unsupportedRequest p s) on

variable (ready : s.dev.cfgRetry p = false)
include ready

theorem configurationRequest_read_gives :
    Gives (.configurationRequest p false r v) s (s.dev.emit (.cfgReply p .successful (s.dev.cfgRead p r))) := by
  rw [Gives, exec_configurationRequest, execConfigurationRequest, act_true on]
  simp [ready]

theorem configurationRequest_bus_gives :
    Gives (.configurationRequest p true .busMasterEnable v) s ((s.dev.setBus p (v.getLsbD 0)).emit (.cfgReply p .successful 0)) := by
  rw [Gives, exec_configurationRequest, execConfigurationRequest, act_true on]
  simp [ready]

theorem configurationRequest_write_gives (other : r ≠ .busMasterEnable) :
    Gives (.configurationRequest p true r v) s
      ((((s.dev.modPort p (cfgWrite s.dev.image.bar2Log2 s.dev.image.bar4 r v)).noteCto p).resendAll p).emit
        (.cfgReply p .successful 0)) := by
  rw [Gives, exec_configurationRequest, execConfigurationRequest, act_true on]
  simp [ready, other]

/-! ### Bus Master Enable and FLR (R332 to R334) -/

theorem busMasterEnableCleared_gives (bme : (s.dev.port p).bme = true) : Gives (.busMasterEnableCleared p) s (s.dev.busOff p) := by
  rw [Gives, exec_busMasterEnableCleared, execBusMasterEnableCleared, act_true (by simp [on, ready, bme])]

theorem busMasterEnableSet_gives (bme : (s.dev.port p).bme = false) : Gives (.busMasterEnableSet p) s (s.dev.busOn p) := by
  rw [Gives, exec_busMasterEnableSet, execBusMasterEnableSet, act_true (by simp [on, ready, bme])]

theorem flr_gives : Gives (.flr p) s (s.dev.functionReset p) := .of_act (exec_flr p s) (by simp [on, ready])
end

theorem flrComplete_gives {s : State} {p : Nat} (lt : p < s.dev.ports) (begun : (s.dev.port p).flrStart.isSome = true) :
    Gives (.flrComplete p) s (s.dev.modPort p (fun t => { t with flrStart := none })) :=
  .of_act (exec_flrComplete p s) (by simp [lt, begun])

/-! ### The link (R45, R309, R313) -/

/-- The fields of HP_LINK that report the link. -/
def Dev.putLink (d : Dev) (p state speed width : Nat) (flit : Bool) : Dev :=
  (((d.put (hpReg p Reg.HP_LINK.state) state).put (hpReg p Reg.HP_LINK.speed) speed).put (hpReg p Reg.HP_LINK.width) width).flag
    (hpReg p Reg.HP_LINK.flit) flit

theorem Dev.linkMay_of {d : Dev} {p state : Nat} {flit : Bool}
    (h : state ≤ 2 ∨ state = 3 ∧ (d.port p).aspm % 2 = 1 ∧ flit = false ∨ state = 4 ∧ 2 ≤ (d.port p).aspm) :
    d.linkMay p state flit = true := by
  rcases h with low | ⟨rfl, enabled, rfl⟩ | ⟨rfl, enabled⟩
  · have three : state ≠ 3 := by omega
    have four : state ≠ 4 := by omega
    simp [Dev.linkMay, three, four, low]
  · simp [Dev.linkMay, enabled]
  · simp [Dev.linkMay, enabled]

theorem linkStateChange_gives {s : State} {p state speed : Nat} (width : Nat) {flit : Bool} (on : s.dev.endpointOn p = true)
    (may : s.dev.linkMay p state flit = true) (le : speed ≤ 6) :
    Gives (.linkStateChange p state speed width flit) s ((s.dev.putLink p state speed width flit).raise (Irq.hp p 0)) :=
  .of_act (exec_linkStateChange p state speed width flit s) (by simp [on, may, le])

section
variable (d : Dev) (p : Nat)

/-- A field of HP set to a value it can hold reads as that value. -/
theorem Dev.get_put_hp_same (f : Fld) {v : Nat} (fits : f.lsb + f.width ≤ 64) (lt : v < 2 ^ f.width) :
    (d.put (hpReg p f) v).get (hpReg p f) = v :=
  (d.get_put_same ⟨f.addr + p * 0x1000000, f.lsb, f.width⟩ v fits).trans (Nat.mod_eq_of_lt lt)

theorem Dev.get_put_hp_apart (f g : Fld) (v : Nat) (fits : f.lsb + f.width ≤ 64)
    (apart : f.lsb + f.width ≤ g.lsb ∨ g.lsb + g.width ≤ f.lsb) : (d.put (hpReg p f) v).get (hpReg p g) = d.get (hpReg p g) :=
  d.get_put_apart ⟨f.addr + p * 0x1000000, f.lsb, f.width⟩ ⟨g.addr + p * 0x1000000, g.lsb, g.width⟩ v fits apart

/-- A one-bit field set or cleared reads as it was set. -/
theorem Dev.bit_flag_same {f : Fld} (b : Bool) (one : f.width = 1) (fits : f.lsb + f.width ≤ 64) : (d.flag f b).bit f = b := by
  rw [Dev.bit, Dev.flag, Dev.get_put_same _ _ _ fits, one]
  cases b <;> rfl

theorem Dev.raise_bit (n : Nat) (f : Fld) : (d.raise n).bit f = d.bit f := by rw [Dev.bit, Dev.bit, Dev.raise_get]

/-- The link's fields of HP_LINK share no bit, so each reads as it was put. -/
theorem Dev.putLink_reads {state speed width : Nat} (flit : Bool) (stateLt : state < 2 ^ 8) (speedLt : speed < 2 ^ 4)
    (widthLt : width < 2 ^ 6) :
    (d.putLink p state speed width flit).get (hpReg p Reg.HP_LINK.state) = state ∧
    (d.putLink p state speed width flit).get (hpReg p Reg.HP_LINK.speed) = speed ∧
    (d.putLink p state speed width flit).get (hpReg p Reg.HP_LINK.width) = width ∧
    (d.putLink p state speed width flit).bit (hpReg p Reg.HP_LINK.flit) = flit := by
  rw [Dev.putLink]
  refine ⟨?_, ?_, ?_, Dev.bit_flag_same _ flit rfl (show 31 + 1 ≤ 64 by decide)⟩
  · rw [Dev.flag, Dev.get_put_hp_apart _ p _ _ _ (by decide) (by decide), Dev.get_put_hp_apart _ p _ _ _ (by decide) (by decide),
      Dev.get_put_hp_apart _ p _ _ _ (by decide) (by decide), Dev.get_put_hp_same _ p _ (by decide) stateLt]
  · rw [Dev.flag, Dev.get_put_hp_apart _ p _ _ _ (by decide) (by decide), Dev.get_put_hp_apart _ p _ _ _ (by decide) (by decide),
      Dev.get_put_hp_same _ p _ (by decide) speedLt]
  · rw [Dev.flag, Dev.get_put_hp_apart _ p _ _ _ (by decide) (by decide), Dev.get_put_hp_same _ p _ (by decide) widthLt]

theorem Dev.putLink_qe (state speed width : Nat) (flit : Bool) : (d.putLink p state speed width flit).qe = d.qe := by
  simp only [Dev.putLink, Dev.flag_qe, Dev.put_qe]

theorem Dev.putLink_nand (state speed width : Nat) (flit : Bool) : (d.putLink p state speed width flit).nand = d.nand := by
  simp only [Dev.putLink, Dev.flag_nand, Dev.put_nand]
end

/-! ### Dropped writes (R315, R319, R320) -/

/-- Which window an offset lies in is a matter of the image. -/
theorem Dev.writeDropped_of_image {d e : Dev} (same : e.image = d.image) (p bar off len : Nat) :
    e.writeDropped p bar off len = d.writeDropped p bar off len := by
  rw [Dev.writeDropped, Dev.writeDropped, Dev.barWin, Dev.barWin, same]

theorem Dev.aerError_image (d : Dev) (p : Nat) (e : AerError) : (d.aerError p e).image = d.image := by
  obtain ⟨-, -, -, -, -, -, -, -, -, image, -⟩ :=
    Dev.inner_eq ((d.modPort p (fun t => { t with aer := t.aer ++ [e] })).raise_inner (Irq.hp p 3))
  rw [Dev.modPort_image] at image
  exact image

theorem Dev.dropWrite_clean {d : Dev} {p bar off len : Nat} (dropped : d.writeDropped p bar off len = true) :
    d.dropWrite p bar off ⟨len, false⟩ = d.addSat (hpReg p Reg.HP_BAR_DROPS.unmapped) 1 := if_pos dropped

/-- A poisoned write to a window that takes writes is recorded, and not counted. -/
theorem Dev.dropWrite_poisoned {d : Dev} {p bar off len : Nat} (window : d.writeDropped p bar off len = false) :
    d.dropWrite p bar off ⟨len, true⟩ = d.aerError p .poisonedTlp :=
  if_neg (by simp [Dev.writeDropped_of_image (d.aerError_image p _), window])

section
variable {s : State} {p bar off : Nat} {f : WriteForm}

theorem unmappedBarWrite_off_gives (bar off : Nat) (f : WriteForm) (windowsOff : s.dev.memoryOff p = true) :
    Gives (.unmappedBarWrite p bar off f) s (s.dev.aerError p .unsupportedRequest) := by
  rw [Gives, exec_unmappedBarWrite, execUnmappedBarWrite, act_true (by simp [windowsOff]), if_pos windowsOff]

theorem unmappedBarWrite_gives (mem : s.dev.takesMemory p = true) (windowsOn : s.dev.memoryOff p = false)
    (drops : s.dev.writeDropped p bar off f.len = true ∨ f.poisoned = true ∧ s.dev.poisonDropped p bar off f.len = true) :
    Gives (.unmappedBarWrite p bar off f) s (s.dev.dropWrite p bar off f) := by
  rw [Gives, exec_unmappedBarWrite, execUnmappedBarWrite, act_true (by simpa [mem, windowsOn] using drops), if_neg (by simp [windowsOn])]
end

/-! ### The statement -/

/-- Settles O34: each clause is the rule above of its command; the fields that report the link are apart, so each reads as it was put. -/
theorem endpointCommandsComplete : Obligations.EndpointCommandsComplete := by
  refine ⟨fun s p w r v on retry => configurationRequest_retry_gives r v on w retry, ?configured,
    fun s p => unsupportedRequest_gives, ?cleared, fun s p => busMasterEnableSet_gives, fun s p => flr_gives, fun s p => flrComplete_gives,
    ?link, fun s p => unmappedBarWrite_off_gives, ?counted, ?poisoned⟩
  case configured =>
    intro s p r v on ready
    refine ⟨configurationRequest_read_gives r v on ready, ?_, configurationRequest_write_gives r v on ready⟩
    rintro rfl
    exact configurationRequest_bus_gives v on ready
  case cleared =>
    rintro s p _ on ready bme rfl
    exact busMasterEnableCleared_gives on ready bme
  case link =>
    intro s p state speed width flit on _ speedLe widthLt may
    obtain ⟨stateAt, speedAt, widthAt, flitAt⟩ := s.dev.putLink_reads p flit (state := state) (speed := speed) (width := width)
      (by omega) (by omega) (by omega)
    refine ⟨_, linkStateChange_gives width on (Dev.linkMay_of may) speedLe, ?_⟩
    exact ⟨(Dev.raise_get _ _ _).trans stateAt, (Dev.raise_get _ _ _).trans speedAt, (Dev.raise_get _ _ _).trans widthAt,
      (Dev.raise_bit _ _ _).trans flitAt, (Dev.raise_qe _ _).trans (s.dev.putLink_qe p _ _ _ _),
      (Dev.raise_nand _ _).trans (s.dev.putLink_nand p _ _ _ _)⟩
  case counted =>
    intro s p bar off len mem windowsOn dropped
    rw [← Dev.dropWrite_clean dropped]
    exact unmappedBarWrite_gives mem windowsOn (.inl dropped)
  case poisoned =>
    intro s p bar off len mem windowsOn window dropped
    rw [← Dev.dropWrite_poisoned window]
    exact unmappedBarWrite_gives mem windowsOn (.inr ⟨rfl, dropped⟩)

end Sys2Proof.Machine
end

section
/-! SUPPORT. What a claim of the interrupt controller returns (O52). -/

namespace Sys2Proof.Machine

/-- A source's priority, as its route gives it. -/
def Dev.icPriority (d : Dev) (n : Nat) : Nat := d.get (routeReg Reg.IC_ROUTE.priority n)

/-- The sources that a claim of target t may return, from the lowest number up. -/
def Dev.claimables (d : Dev) (t : Nat) : List Nat :=
  (List.range 320).filter (fun n => d.icIsPending n && !d.inService n && d.routedTo n t && d.icPriority n ≠ 0)

/-- A claim keeps the first of the sources with the highest priority. -/
theorem Dev.claimable_eq_argmax (d : Dev) (t : Nat) : d.claimable t = (d.claimables t).argmax d.icPriority := by
  unfold Dev.claimable List.argmax
  dsimp only
  congr
  funext best n
  cases best <;> rfl

theorem Dev.mem_claimables {d : Dev} {t n : Nat} : n ∈ d.claimables t ↔
    n < 320 ∧ d.icIsPending n = true ∧ d.inService n = false ∧ d.routedTo n t = true ∧ d.icPriority n ≠ 0 := by
  simp [Dev.claimables, and_assoc]

theorem Dev.claimables_sortedLT (d : Dev) (t : Nat) : (d.claimables t).SortedLT := ((List.sortedLT_range 320).pairwise.filter _).sortedLT

/-- In a sorted list the member that comes first is the lower one. -/
theorem le_of_idxOf_le {l : List Nat} {a b : Nat} (sorted : l.SortedLT) (ha : a ∈ l) (hb : b ∈ l) (first : l.idxOf a ≤ l.idxOf b) :
    a ≤ b := by
  have ordered := (sorted.getElem_le_getElem_iff (hi := List.idxOf_lt_length_of_mem ha) (hj := List.idxOf_lt_length_of_mem hb)).mpr first
  rwa [List.getElem_idxOf, List.getElem_idxOf] at ordered

/-- A claim returns one of the sources it may return; none of those has a higher priority, and none of the same priority a lower number. -/
theorem Dev.claimable_spec {d : Dev} {t n : Nat} (claim : d.claimable t = some n) :
    n ∈ d.claimables t ∧ ∀ m ∈ d.claimables t, d.icPriority m ≤ d.icPriority n ∧ (d.icPriority m = d.icPriority n → n ≤ m) := by
  rw [d.claimable_eq_argmax, List.argmax_eq_some_iff] at claim
  obtain ⟨mem, highest, first⟩ := claim
  exact ⟨mem, fun m other => ⟨highest m other, fun same => le_of_idxOf_le (d.claimables_sortedLT t) mem other (first m other same.ge)⟩⟩

/-- Settles O52: the claim takes the first of the highest priority; a source of priority 0 is not among them, and its
priority is below any that is claimed (R355). -/
theorem claimTakesTheHighestPriority : Obligations.ClaimTakesTheHighestPriority := by
  intro d t n claim
  obtain ⟨mem, best⟩ := Dev.claimable_spec claim
  obtain ⟨below, pending, idle, routed, weighs⟩ := Dev.mem_claimables.mp mem
  refine ⟨below, pending, idle, routed, weighs, fun m mBelow mPending mIdle mRouted => ?_⟩
  by_cases silent : d.icPriority m = 0
  · exact ⟨silent.trans_le (Nat.zero_le _), fun same => absurd (same.symm.trans silent) weighs⟩
  · exact best m (Dev.mem_claimables.mpr ⟨mBelow, mPending, mIdle, mRouted, silent⟩)

end Sys2Proof.Machine
end

section
/-! SUPPORT. The watchdogs, the machine timer and the interrupt controller's registers (O51). -/

namespace Sys2Proof.Machine

/-! ### Watchdogs and the machine timer (R346, R358, R359) -/

theorem exec_wardenWatchdogKick (v : Dword) (s : State) : exec (.wardenWatchdogKick v) s = execWardenWatchdogKick v s := rfl

theorem exec_wardenWatchdogExpiry (s : State) : exec .wardenWatchdogExpiry s = execWardenWatchdogExpiry s := rfl

theorem exec_boltWatchdogKick (w : Who) (n : Nat) (v : Dword) (s : State) :
    exec (.boltWatchdogKick w n v) s = execBoltWatchdogKick w n v s := rfl

theorem exec_boltWatchdogExpiry (n : Nat) (s : State) : exec (.boltWatchdogExpiry n) s = execBoltWatchdogExpiry n s := rfl

theorem exec_machineTimerInterrupt (n : Nat) (s : State) :
    exec (.machineTimerInterrupt n) s = execMachineTimerInterrupt n s := rfl

section
variable {s : State} {n : Nat}

/-- The key starts Warden's watchdog again, with the limit that its register holds now. -/
theorem wardenWatchdogKick_gives (awake : s.dev.awake = true) :
    Gives (.wardenWatchdogKick 0x4b1c) s (s.dev.modCores (fun c => { c with
      wdogStart := s.dev.now
      wdogLimit := s.dev.get Reg.WD_WDOG.limit_ms })) := by
  rw [Gives, exec_wardenWatchdogKick, execWardenWatchdogKick, act_true awake, Dev.kickWarden, if_pos rfl]

theorem wardenWatchdogExpiry_gives (awake : s.dev.awake = true) (unarmed : s.dev.armedFor Src.wdog = false)
    (expired : s.dev.expired s.dev.cores.wdogStart (msTicks s.dev.cores.wdogLimit) = true) :
    Gives .wardenWatchdogExpiry s (s.dev.fatal Src.wdog Kind.wardenWatchdog 0 11) := by
  rw [Gives, exec_wardenWatchdogExpiry, execWardenWatchdogExpiry, act_true (by simp [awake, expired])]
  simp only [Dev.injectAt_unarmed unarmed, Dev.fatal]

/-- Warden and the core itself may restart core n's watchdog. -/
theorem boltWatchdogKick_gives {w : Who} (awake : s.dev.awake = true) (core : n < 16) (who : w = .warden ∨ w = .bolt n) :
    Gives (.boltWatchdogKick w n 0x4b1c) s
      ((s.dev.modCore n (fun c => { c with dogRan := 0, dogSince := s.dev.now })).served w 0) := by
  rw [Gives, exec_boltWatchdogKick]
  unfold execBoltWatchdogKick
  rw [act_true (by rcases who with rfl | rfl <;> simp [awake, core]), if_pos (by simpa using who), Dev.kickBolt, if_pos rfl]

/-- Core n's watchdog expires: the core halts, its register says so, its source is raised and a contained fault is recorded (R359). -/
def Dev.dogExpired (d : Dev) (n : Nat) : Dev :=
  (((d.settleDogs.modCore n (fun c => { c with halted := true })).put (Reg.BC_CORE.state.at (4 * n)) 3).raise (Irq.boltWdog n)).contained
    (Src.boltCore n) Kind.boltWatchdog n 0x3f 11

theorem boltWatchdogExpiry_gives (runs : s.dev.dogRuns n = true)
    (reached : s.dev.get (Reg.BC_WDOG.limit_ms.at (8 * n)) * 1000 + 1 ≤ s.dev.dogTicks n) (alive : (s.dev.dogExpired n).isDead = false)
    (idle : (s.dev.dogExpired n).cores.act = none) :
    Gives (.boltWatchdogExpiry n) s (((s.dev.dogExpired n).modCores (fun c => { c with
      act := some ⟨none, .sendHalt, (s.dev.dogExpired n).now, (s.dev.dogExpired n).boltSlot, (s.dev.dogExpired n).boltSlot⟩ })).owe 4 0) := by
  rw [Gives, exec_boltWatchdogExpiry, execBoltWatchdogExpiry, act_true (by simp [runs, reached])]
  dsimp only
  rw [← Dev.dogExpired, if_neg (by simp [alive, idle])]

theorem machineTimerInterrupt_gives (runs : s.dev.coreRuns n = true)
    (reached : s.dev.get (Reg.BC_MTIMECMP.cmp.at (8 * n)) ≤ s.dev.now) :
    Gives (.machineTimerInterrupt n) s (s.dev.modCore n (fun c => { c with timerIrq := true })) := by
  rw [Gives, exec_machineTimerInterrupt, execMachineTimerInterrupt, act_true (by simp [runs, reached])]
end

/-! ### The interrupt controller's registers (R354 to R357) -/

theorem exec_icClaim (w : Who) (t : Nat) (s : State) : exec (.icClaim w t) s = execIcClaim w t s := rfl

theorem exec_icComplete (w : Who) (t n : Nat) (s : State) : exec (.icComplete w t n) s = execIcComplete w t n s := rfl

theorem exec_icRaise (w : Who) (n : Nat) (s : State) : exec (.icRaise w n) s = execIcRaise w n s := rfl

theorem exec_icRoute (w : Who) (n : Nat) (v : Dword) (s : State) : exec (.icRoute w n v) s = execIcRoute w n v s := rfl

section
variable {s : State} {w : Who} {t n : Nat} (awake : s.dev.awake = true) (core : isCore w = true)
include awake core

/-- A read of IC_CLAIM: a claim for who may use the target's registers, else a closed access. -/
theorem icClaim_gives (target : t < 17) : Gives (.icClaim w t) s
    (if icOwner w t = true then s.dev.claimIrq w t else s.dev.closed w (Reg.IC_CLAIM.source.addr + 8 * t) 2) := by
  rw [Gives, exec_icClaim, execIcClaim, act_true (by simp [awake, core, target])]

theorem icComplete_gives (n : Nat) (target : t < 17) (owner : icOwner w t = true) :
    Gives (.icComplete w t n) s ((s.dev.completeIrq t n).served w 0) := by
  rw [Gives, exec_icComplete, execIcComplete, act_true (by simp [awake, core, target]), if_pos owner]

theorem icRaise_gives (may : mayRaise w n = true) : Gives (.icRaise w n) s ((s.dev.raise n).served w 0) := by
  rw [Gives, exec_icRaise, execIcRaise, act_true (by simp [awake, core]), if_pos may]

theorem icRoute_gives (v : Dword) (source : n < 320) (may : w = .warden ∨ s.dev.boltRouteOk n v = true) :
    Gives (.icRoute w n v) s ((s.dev.writeRoute w n v).served w 0) := by
  rw [Gives, exec_icRoute, execIcRoute, act_true (by simp [awake, core, source]), if_pos (by simpa using may)]
end

theorem Dev.claimIrq_none {d : Dev} {t : Nat} (w : Who) (nothing : d.claimable t = none) : d.claimIrq w t = d.served w 0x3ff := by
  simp only [Dev.claimIrq, nothing]

theorem Dev.claimIrq_some {d : Dev} {t n : Nat} (w : Who) (claim : d.claimable t = some n) :
    d.claimIrq w t = ((d.setIcPending n false).modCores (fun c => { c with service := c.service ++ [(n, t)] })).served w n := by
  simp only [Dev.claimIrq, claim]

/-- A Bolt core does not own another target's registers. -/
theorem icOwner_bolt_other {n t : Nat} (other : t ≠ n + 1) : icOwner (.bolt n) t = false := decide_eq_false other

/-! ### The statement -/

/-- Settles O51: each clause is the rule above of its command; a claim is served with what it may return or with 0x3FF, and a core that
does not own the target is turned away. -/
theorem watchdogsAndInterruptsComplete : Obligations.WatchdogsAndInterruptsComplete := by
  refine ⟨fun s => wardenWatchdogKick_gives, ?expiry, ?kicks, ?bites, fun s n => machineTimerInterrupt_gives, ?claims,
    fun s w t n awake core => icComplete_gives awake core n, fun s w n => icRaise_gives,
    fun s w n v awake core => icRoute_gives awake core v, ?closed⟩
  case expiry =>
    intro s awake unarmed expired
    exact ⟨_, wardenWatchdogExpiry_gives awake unarmed expired, rfl, Dev.fatal_phase _ _ _ _ _⟩
  case kicks =>
    intro s n awake core
    exact ⟨boltWatchdogKick_gives awake core (.inl rfl), boltWatchdogKick_gives awake core (.inr rfl)⟩
  case bites =>
    rintro s n _ runs reached rfl
    exact boltWatchdogExpiry_gives runs reached
  case claims =>
    intro s w t awake core target owner
    have claimed := icClaim_gives awake core target
    rw [if_pos owner] at claimed
    exact ⟨fun nothing => Dev.claimIrq_none w nothing ▸ claimed, fun n claim => Dev.claimIrq_some w claim ▸ claimed⟩
  case closed =>
    intro s n t awake target other
    have refused := icClaim_gives (w := .bolt n) awake rfl target
    rwa [if_neg (by simp [icOwner_bolt_other other])] at refused

end Sys2Proof.Machine
end

section
/-! SUPPORT. What every command answers (O1, O2, O4). -/

namespace Sys2Proof.Machine

/-! ### Every command but a power-on outside specification goes on -/

/-- Each arm but POWER_ON's and WITNESS_SWEEP's is one run, act or actOn, and these answer a next state with the queue as it was. -/
theorem exec_goesOn (c : Instr) (s : State) (legal : ∀ straps, c = .powerOn straps → straps.toNat / 16 = 0) : ∃ d, Gives c s d := by
  cases c
  case powerOn straps =>
    have zero : ¬ straps.toNat / 16 ≠ 0 := not_not.mpr (legal straps rfl)
    exact ⟨_, (if_neg zero).trans rfl⟩
  case witnessSweep counts =>
    by_cases counted : counts.length = 16 * s.dev.thresholds
    · exact ⟨_, (if_pos counted).trans rfl⟩
    · exact ⟨s.dev, if_neg counted⟩
  all_goals exact ⟨_, rfl⟩

theorem exec_powerOn_outside (straps : BitVec 8) (s : State) (outside : straps.toNat / 16 ≠ 0) :
    exec (.powerOn straps) s = .fault .outsideSpecification := if_pos outside

/-- A command leaves the commands that wait as they are. -/
theorem exec_next_pending {c : Instr} {s t : State} (next : exec c s = .next t) : t.pending = s.pending := by
  have legal : ∀ straps, c = .powerOn straps → straps.toNat / 16 = 0 := by
    rintro straps rfl
    by_contra outside
    rw [exec_powerOn_outside straps s outside] at next
    cases next
  obtain ⟨d, gives⟩ := exec_goesOn c s legal
  cases next.symm.trans gives
  rfl

/-! ### Steps -/

@[simp] theorem step_nil (d : Dev) : step ⟨d, []⟩ = .next ⟨d, []⟩ := rfl

@[simp] theorem step_cons (c : Instr) (rest : List Instr) (d : Dev) : step ⟨d, c :: rest⟩ = exec c ⟨d, rest⟩ := rfl

/-- The commands that wait after a step waited before it. -/
theorem step_next_pending {s t : State} (next : step s = .next t) : t.pending = s.pending.tail := by
  obtain ⟨d, _ | ⟨c, rest⟩⟩ := s
  · cases next
    rfl
  · exact exec_next_pending next

/-! ### The statements -/

/-- Settles O1: a step unfolds to the front command's meaning. -/
theorem stepRunsTheFrontCommand : Obligations.StepRunsTheFrontCommand := ⟨step_cons, step_nil⟩

/-- Settles O2: every arm goes on, but for POWER_ON's stop at its straps. -/
theorem everyCommandGoesOn : Obligations.EveryCommandGoesOn := ⟨exec_goesOn, exec_powerOn_outside⟩

/-- Settles O4: a step only takes the front command from the queue. -/
theorem waitingCommandsStayWellFormed : Obligations.WaitingCommandsStayWellFormed := by
  intro s t wf next c waits
  rw [step_next_pending next] at waits
  exact wf c (List.mem_of_mem_tail waits)

end Sys2Proof.Machine
end

section
/-! SUPPORT. What no step changes in Deadbolt: the phase, FAULT_N and what the NAND holds (O3). -/

namespace Sys2Proof.Machine

/-! ### What Deadbolt locks (R429, R430) -/

/-- What no step changes in Deadbolt: the phase, FAULT_N and what the NAND holds. -/
def Dev.lock (d : Dev) : PwPhase × Bool × Nand := (d.pw.phase, d.pw.faultN, d.nand)

theorem Dev.lock_of_inner {d e : Dev} (h : d.inner = e.inner) : d.lock = e.lock :=
  congrArg (fun i => (i.1.phase, i.1.faultN, i.2.2.2.2.2.2.2.2.2.2.2.2.2)) h

theorem Dev.lock_eq_iff {d e : Dev} : d.lock = e.lock ↔ d.pw.phase = e.pw.phase ∧ d.pw.faultN = e.pw.faultN ∧ d.nand = e.nand := by
  simp [Dev.lock]

theorem Dev.isDead_iff (d : Dev) : d.isDead = true ↔ d.lock.1 = .deadbolt := beq_iff_eq

section
variable (d : Dev)

@[simp] theorem Dev.setReg_lock (a v : Nat) : (d.setReg a v).lock = d.lock := Dev.lock_of_inner (d.setReg_inner a v)
@[simp] theorem Dev.put_lock (f : Fld) (v : Nat) : (d.put f v).lock = d.lock := Dev.lock_of_inner (d.put_inner f v)
@[simp] theorem Dev.flag_lock (f : Fld) (b : Bool) : (d.flag f b).lock = d.lock := Dev.lock_of_inner (d.flag_inner f b)
@[simp] theorem Dev.add_lock (f : Fld) (n : Nat) : (d.add f n).lock = d.lock := Dev.lock_of_inner (d.add_inner f n)
@[simp] theorem Dev.addSat_lock (f : Fld) (n : Nat) : (d.addSat f n).lock = d.lock := Dev.lock_of_inner (d.addSat_inner f n)
@[simp] theorem Dev.emit_lock (e : Emit) : (d.emit e).lock = d.lock := Dev.lock_of_inner (d.emit_inner e)
@[simp] theorem Dev.draw_lock : d.draw.2.lock = d.lock := rfl
@[simp] theorem Dev.modPort_lock (p : Nat) (f : Port → Port) : (d.modPort p f).lock = d.lock := Dev.lock_of_inner (d.modPort_inner p f)
@[simp] theorem Dev.modQe_lock (f : Qe → Qe) : (d.modQe f).lock = d.lock := Dev.lock_of_inner (d.modQe_inner f)
@[simp] theorem Dev.modCmd_lock (a : Nat) (f : Command → Command) : (d.modCmd a f).lock = d.lock := Dev.lock_of_inner (d.modCmd_inner a f)
@[simp] theorem Dev.dropCmd_lock (a : Nat) : (d.dropCmd a).lock = d.lock := rfl
@[simp] theorem Dev.modQueue_lock (p q : Nat) (f : Queue → Queue) : (d.modQueue p q f).lock = d.lock := Dev.lock_of_inner (d.modQueue_inner p q f)
@[simp] theorem Dev.toRing_lock (p q : Nat) (r : RingPkt) : (d.toRing p q r).lock = d.lock := Dev.lock_of_inner (d.toRing_inner p q r)
@[simp] theorem Dev.modMs_lock (f : Ms → Ms) : (d.modMs f).lock = d.lock := rfl
@[simp] theorem Dev.modCd_lock (f : Cd → Cd) : (d.modCd f).lock = d.lock := rfl
@[simp] theorem Dev.modRc_lock (f : Rc → Rc) : (d.modRc f).lock = d.lock := rfl
@[simp] theorem Dev.modCf_lock (f : Cf → Cf) : (d.modCf f).lock = d.lock := rfl
@[simp] theorem Dev.modCores_lock (f : Cores → Cores) : (d.modCores f).lock = d.lock := rfl
@[simp] theorem Dev.modCore_lock (n : Nat) (f : Core → Core) : (d.modCore n f).lock = d.lock := rfl
@[simp] theorem Dev.modMem_lock (f : Mem → Mem) : (d.modMem f).lock = d.lock := rfl
@[simp] theorem Dev.modMt_lock (f : Mt → Mt) : (d.modMt f).lock = d.lock := rfl
@[simp] theorem Dev.modPw_lock {f : Pw → Pw} (phase : ∀ w, (f w).phase = w.phase) (faultN : ∀ w, (f w).faultN = w.faultN) :
    (d.modPw f).lock = d.lock := congrArg₂ (fun a b => (a, b, d.nand)) (phase d.pw) (faultN d.pw)
@[simp] theorem Dev.zeroDeficits_lock : d.zeroDeficits.lock = d.lock := rfl
@[simp] theorem Dev.endGrants_lock (a : Nat) : (d.endGrants a).lock = d.lock := rfl
@[simp] theorem Dev.signal_lock (p v : Nat) : (d.signal p v).lock = d.lock := Dev.lock_of_inner (d.signal_inner p v)
@[simp] theorem Dev.resend_lock (p v : Nat) : (d.resend p v).lock = d.lock := Dev.lock_of_inner (d.resend_inner p v)
@[simp] theorem Dev.resendAll_lock (p : Nat) : (d.resendAll p).lock = d.lock := Dev.lock_of_inner (d.resendAll_inner p)
@[simp] theorem Dev.raise_lock (n : Nat) : (d.raise n).lock = d.lock := Dev.lock_of_inner (d.raise_inner n)
@[simp] theorem Dev.notice_lock (c x y z : Nat) : (d.notice c x y z).lock = d.lock := Dev.lock_of_inner (d.notice_inner c x y z)
@[simp] theorem Dev.event_lock (c src x y z : Nat) : (d.event c src x y z).lock = d.lock := Dev.lock_of_inner (d.event_inner c src x y z)
@[simp] theorem Dev.dropPacket_lock (p q : Nat) (r : BitVec 16) : (d.dropPacket p q r).lock = d.lock :=
  Dev.lock_of_inner (d.dropPacket_inner p q r)
@[simp] theorem Dev.releaseParts_lock (c : Command) : (d.releaseParts c).lock = d.lock := Dev.lock_of_inner (d.releaseParts_inner c)
@[simp] theorem Dev.fail_lock (a : Nat) (st : BitVec 16) : (d.fail a st).lock = d.lock := Dev.lock_of_inner (d.fail_inner a st)
@[simp] theorem Dev.failWith_lock (a : Nat) (r : Done) (n : Nat) : (d.failWith a r n).lock = d.lock :=
  Dev.lock_of_inner (d.failWith_inner a r n)
@[simp] theorem Dev.succeed_lock (a r q : Nat) : (d.succeed a r q).lock = d.lock := Dev.lock_of_inner (d.succeed_inner a r q)
@[simp] theorem Dev.settleDelete_lock (p q : Nat) : (d.settleDelete p q).lock = d.lock := Dev.lock_of_inner (d.settleDelete_inner p q)
@[simp] theorem Dev.disableAq_lock (p : Nat) : (d.disableAq p).lock = d.lock := Dev.lock_of_inner (d.disableAq_inner p)
end
/-! ### Folds and branches -/

@[simp] theorem Dev.ite_lock (c : Prop) [Decidable c] (d e : Dev) : (if c then d else e).lock = if c then d.lock else e.lock :=
  apply_ite Dev.lock c d e

theorem Dev.each_lock {α : Type} {f : Dev → α → Dev} (h : ∀ d a, (f d a).lock = d.lock) (d : Dev) (l : List α) :
    (d.each l f).lock = d.lock := Dev.each_keeps Dev.lock f h d l

/-! ### Faults in Deadbolt are counted only (R429) -/

section
variable {d : Dev} (dead : d.lock.1 = .deadbolt)

@[simp] theorem Dev.setCapture_lock (d : Dev) (n : Nat) (c : Capture) : (d.setCapture n c).lock = d.lock := by
  rw [Dev.setCapture, Dev.put_lock]
  rfl
@[simp] theorem Dev.follow_lock (d : Dev) (n : Nat) : (d.follow n).lock = d.lock := by
  rw [Dev.follow, Dev.setCapture_lock]
@[simp] theorem Dev.countFault_lock (d : Dev) (n : Nat) : (d.countFault n).lock = d.lock := by
  rw [Dev.countFault, Dev.addSat_lock]
@[simp] theorem Dev.disarm_lock (d : Dev) : d.disarm.lock = d.lock := by
  rw [Dev.disarm, Dev.flag_lock, Dev.put_lock]

@[simp] theorem Dev.injectAt_lock (d : Dev) (src : Nat) : (d.injectAt src).2.lock = d.lock := by
  unfold Dev.injectAt
  split
  · exact d.disarm_lock
  · rfl

include dead

@[simp] theorem Dev.faultMsg_lock (m : FaultMsg) : (d.faultMsg m).lock = d.lock := by
  rw [Dev.faultMsg, if_pos (d.isDead_iff.mpr dead)]
  simp

@[simp] theorem Dev.privileged_lock (m : FaultMsg) : (d.privileged m).lock = d.lock := by
  rw [Dev.privileged, if_pos (d.isDead_iff.mpr dead)]
  simp

@[simp] theorem Dev.contained_lock (src kind a master access : Nat) : (d.contained src kind a master access).lock = d.lock :=
  Dev.faultMsg_lock dead _

@[simp] theorem Dev.enterDeadbolt_lock (src kind : Nat) (p : Bool) : (d.enterDeadbolt src kind p).lock = d.lock := by
  rw [Dev.enterDeadbolt, if_pos (d.isDead_iff.mpr dead)]

@[simp] theorem Dev.unitLine_lock (src cls master : Nat) : (d.unitLine src cls master).lock = d.lock := by
  simp [Dev.unitLine, dead]

@[simp] theorem Dev.unitActs_lock (src kind cls : Nat) : (d.unitActs src kind cls).lock = d.lock := by
  rw [Dev.unitActs, if_pos (by simp [d.isDead_iff.mpr dead])]

/-! ### Nothing that waits moves on (R429; log 50) -/

@[simp] theorem Dev.stir_lock : d.stir.lock = d.lock := by rw [Dev.stir, if_pos (d.isDead_iff.mpr dead)]

@[simp] theorem Dev.serveAll_lock : d.serveAll.lock = d.lock := by rw [Dev.serveAll, if_pos (d.isDead_iff.mpr dead)]

theorem Dev.runningCmd_dead (a : Nat) : d.runningCmd a = none := by
  simp [Dev.runningCmd, d.isDead_iff.mpr dead]

theorem Dev.startedOp_dead (a op : Nat) : d.startedOp a op = none := by
  simp [Dev.startedOp, d.isDead_iff.mpr dead]

theorem Dev.serialCmd_dead (a op : Nat) (f : Nat → Bool) : d.serialCmd a op f = none := by
  simp [Dev.serialCmd, Dev.startedOp_dead dead]

theorem Dev.inRun_dead : d.inRun = false := by
  simp [Dev.inRun, show d.pw.phase = .deadbolt from dead]

theorem Dev.awake_dead : d.awake = false := by
  simp [Dev.awake, Dev.inRun_dead dead, show d.pw.phase = .deadbolt from dead]

theorem Dev.entryReady_dead (u : Unit4) (op : Nat) : d.entryReady u op = none := by
  simp [Dev.entryReady, Dev.mayTake, Dev.awake_dead dead]

theorem Dev.wardenWrites_dead : d.wardenWrites = false := by simp [Dev.wardenWrites, Dev.awake_dead dead]

theorem Dev.wardenRuns_dead : d.wardenRuns = false := by simp [Dev.wardenRuns, d.isDead_iff.mpr dead]

theorem Dev.coreRuns_dead (n : Nat) : d.coreRuns n = false := by simp [Dev.coreRuns, d.isDead_iff.mpr dead]

theorem Dev.owes_dead (k r : Nat) : d.owes k r = false := by simp [Dev.owes, Dev.wardenRuns_dead dead]

theorem Dev.bootAt_dead (k : Nat) : d.bootAt k = false := by simp [Dev.bootAt, show d.pw.phase = .deadbolt from dead]

theorem Dev.wakeAt_dead (k : Nat) : d.wakeAt k = false := by simp [Dev.wakeAt, show d.pw.phase = .deadbolt from dead]

theorem Dev.optRuns_dead : d.optRuns = false := by
  simp [Dev.optRuns, Dev.awake_dead dead, show d.pw.phase = .deadbolt from dead]

theorem Dev.pwrFailActs_dead : d.pwrFailActs = false := Dev.optRuns_dead dead
end

/-! ### What QE and HP still do in Deadbolt (R50 to R52, R124, R312 to R334) -/

section
variable (d : Dev)

@[simp] theorem Dev.setHost_lock (f : Host_ → Host_) : (d.modHost f).lock = d.lock := rfl
@[simp] theorem Dev.aerError_lock (p : Nat) (e : AerError) : (d.aerError p e).lock = d.lock := by simp [Dev.aerError]
@[simp] theorem Dev.stray_lock (p : Nat) : (d.stray p).lock = d.lock := by simp [Dev.stray]
@[simp] theorem Dev.countUnmapped_lock (p : Nat) : (d.countUnmapped p).lock = d.lock := d.addSat_lock _ _
@[simp] theorem Dev.accept_lock (p q : Nat) (pkt : Packet) (peer : Option PeerSrc) : (d.accept p q pkt peer).lock = d.lock := rfl
@[simp] theorem Dev.loseDeficits_lock : d.loseDeficits.lock = d.lock := by
  rw [Dev.loseDeficits, Dev.modQe_lock, Dev.draw_lock]
@[simp] theorem Dev.startPullTimer_lock (p g a : Nat) : (d.startPullTimer p g a).lock = d.lock := rfl
@[simp] theorem Dev.quarantineTag_lock (p t : Nat) : (d.quarantineTag p t).lock = d.lock := rfl
@[simp] theorem Dev.flrTags_lock (p : Nat) : (d.flrTags p).lock = d.lock := rfl
@[simp] theorem Dev.tapInstr_lock (i : Nat) : (d.tapInstr i).lock = d.lock := rfl
@[simp] theorem Dev.tapSample_lock : d.tapSample.lock = d.lock := rfl

@[simp] theorem Dev.commitWith_lock (a : Nat) (r : Done) (l : List Nat) : (d.commitWith a r l).lock = d.lock :=
  Dev.lock_of_inner (d.commitWith_inner a r l)

@[simp] theorem Dev.freezeWith_lock (p q : Nat) (c : Option Command) (st : BitVec 16) (l : Option Qword) (n : Nat) (src : Option Nat) :
    (d.freezeWith p q c st l n src).lock = d.lock := Dev.lock_of_inner (d.freezeWith_inner p q c st l n src)

@[simp] theorem Dev.lineFails_lock (a src : Nat) : (d.lineFails a src).lock = d.lock := by
  rw [Dev.lineFails, Dev.failWith]
  split
  · rfl
  · simp

@[simp] theorem Dev.ringRelease_lock (p q : Nat) (pkt : Packet) : (d.ringRelease p q pkt).lock = d.lock := by
  unfold Dev.ringRelease
  split <;> simp

@[simp] theorem Dev.writeAqCfg_lock (p : Nat) (v : Dword) : (d.writeAqCfg p v).lock = d.lock := by simp [Dev.writeAqCfg]
@[simp] theorem Dev.enableAq_lock (p : Nat) : (d.enableAq p).lock = d.lock := by simp [Dev.enableAq]
@[simp] theorem Dev.writeAq_lock (p : Nat) (v : Dword) : (d.writeAq p v).lock = d.lock := by simp [Dev.writeAq]
@[simp] theorem Dev.msixWrite_lock (p o : Nat) (v : Dword) : (d.msixWrite p o v).lock = d.lock := by simp [Dev.msixWrite]

@[simp] theorem Dev.signalQueue_lock (p q : Nat) : (d.signalQueue p q).lock = d.lock := by
  unfold Dev.signalQueue
  split <;> simp

@[simp] theorem Dev.judge_lock (p q : Nat) : (d.judge p q).lock = d.lock := by
  unfold Dev.judge
  split <;> simp

@[simp] theorem Dev.settleRestart_lock (c : Command) : (d.settleRestart c).lock = d.lock := by
  unfold Dev.settleRestart
  split
  · rfl
  · simp [Dev.each_lock (fun d x => Dev.modCmd_lock d _ _), Dev.unfreeze]

@[simp] theorem Dev.settleDeadPort_lock (p : Nat) : (d.settleDeadPort p).lock = d.lock := by simp [Dev.settleDeadPort]

@[simp] theorem Dev.settleRestarts_lock (p : Nat) : (d.settleRestarts p).lock = d.lock := Dev.each_lock (fun d c => d.settleRestart_lock c) _ _

@[simp] theorem Dev.posted_lock (p q : Nat) (r : RingPkt) : (d.posted p q r).lock = d.lock := by
  unfold Dev.posted
  dsimp only
  cases r.grant <;> cases r.cmd <;> simp

@[simp] theorem Dev.postHost_lock (p q : Nat) (u : Queue) (r : RingPkt) : (d.postHost p q u r).lock = d.lock := by simp [Dev.postHost]

@[simp] theorem Dev.postPeer_lock (p : Nat) (r : RingPkt) (dest : Qword) : (d.postPeer p r dest).lock = d.lock := by
  rw [Dev.postPeer, Dev.posted_lock, Dev.modQueue_lock, Dev.emit_lock]
  rfl

theorem Dev.choose_lock (l : List Nat) : (d.choose l).2.lock = d.lock := by
  unfold Dev.choose
  split <;> rfl

@[simp] theorem Dev.issueRequest_lock (r : Request) : (d.issueRequest r).lock = d.lock := by
  unfold Dev.issueRequest
  dsimp only
  split
  · rfl
  · simp [Dev.choose_lock]

@[simp] theorem Dev.withdraw_lock (c : Command) : (d.withdraw c).lock = d.lock := by
  simp [Dev.withdraw, Dev.each_lock (fun d (r : Request) => d.quarantineTag_lock r.port r.tag)]

@[simp] theorem Dev.dropWrite_lock (p bar off : Nat) (f : WriteForm) : (d.dropWrite p bar off f).lock = d.lock := by simp [Dev.dropWrite]

@[simp] theorem Dev.flrQueues_lock (p : Nat) : (d.flrQueues p).lock = d.lock := by
  unfold Dev.flrQueues
  exact (Dev.each_lock (fun d f => d.setReg_lock _ _) _ _).trans (by simp)

@[simp] theorem Dev.flrFeatures_lock (p : Nat) : (d.flrFeatures p).lock = d.lock := by
  simp [Dev.flrFeatures, Dev.each_lock (fun d (r : Nat × Nat) => d.setReg_lock r.1 r.2)]

@[simp] theorem Dev.flrConfig_lock (p : Nat) : (d.flrConfig p).lock = d.lock := by
  unfold Dev.flrConfig
  exact (Dev.each_lock (fun d o => d.setReg_lock _ _) _ _).trans (by simp)

@[simp] theorem Dev.resetHp_lock (p : Nat) : (d.resetHp p).lock = d.lock := Dev.each_lock (fun d _ => d.setReg_lock _ _) _ _

@[simp] theorem Dev.perstDead_lock : d.perstDead.lock = d.lock := by
  have ports : ∀ l : List Nat, (d.each l (fun s p => (s.modPort p Port.configReset).resetHp p)).lock = d.lock := fun l =>
    Dev.each_lock (fun d p => by simp) d l
  exact ports _

/-! ### Reads that relocation units wait for -/

@[simp] theorem Dev.claim_lock (id : Nat) : (d.claim id).lock = d.lock := by simp [Dev.claim]

@[simp] theorem Dev.claimMasters_lock : d.claimMasters.lock = d.lock := Dev.each_lock (fun d (o : FlashOp) => d.claim_lock o.id) _ _

theorem Dev.issueAt_lock (place level planes : Nat) (refs : Tbl Int) (r : CwReq) : (d.issueAt place level planes refs r).lock = d.lock := by
  simp [Dev.issueAt, Dev.queueOp]

theorem Dev.memberReq_lock (r : CwReq) (a : Nat) : (d.memberReq r a).lock = d.lock := Dev.issueAt_lock _ _ _ _ _ _

theorem Dev.startRebuild_lock (id : Nat) : (d.startRebuild id).lock = d.lock := by
  unfold Dev.startRebuild
  split
  · rfl
  · dsimp only
    split
    · rfl
    · exact Dev.each_lock (fun d m => d.memberReq_lock _ _) _ _

theorem Dev.oneReq_lock (a : Nat) (w : Requester) (acc n : Nat) : (d.oneReq a w acc n).lock = d.lock := by
  have asked : (d.addReq (d.makeReq a w acc n)).lock = d.lock := rfl
  rw [Dev.oneReq, Dev.ite_lock, Dev.startRebuild_lock, Dev.issueRead, Dev.issueAt_lock, ite_self, asked]

theorem Dev.raceReplica_lock (w : Requester) (acc n : Nat) : (d.raceReplica w acc n).lock = d.lock := by
  unfold Dev.raceReplica
  split
  · split <;> simp [Dev.oneReq_lock]
  · rfl

theorem Dev.newReq_lock (a : Nat) (w : Requester) (acc n : Nat) : (d.newReq a w acc n).lock = d.lock := by
  simp [Dev.newReq, Dev.raceReplica_lock, Dev.oneReq_lock]

theorem Dev.readCopy_lock (u : Unit_) (c : Copy) : (d.readCopy u c).lock = d.lock := by
  rw [Dev.readCopy, Dev.ite_lock, Dev.each_lock (fun d i => (Dev.ite_lock ..).trans (by rw [d.newReq_lock, ite_self])), ite_self]

@[simp] theorem Dev.readUnits_lock : d.readUnits.lock = d.lock :=
  Dev.each_lock (fun d (u : Unit_) => Dev.each_lock (fun d c => d.readCopy_lock u c) d u.copies) _ _

@[simp] theorem Dev.startUnit_lock (u : Unit_) : (d.startUnit u).lock = d.lock := rfl

/-! ### Ends of commands and the code flash -/

theorem Dev.peerAccept_lock (p : Nat) (pkt : Packet) : (d.peerAccept p pkt).lock = d.lock := by
  simp [Dev.peerAccept, Dev.peerRefuse]

theorem Dev.flrCmd_lock (c : Command) : (d.flrCmd c).lock = d.lock := by
  simp [Dev.flrCmd, Dev.stopRefresh]

theorem Dev.settleDogs_lock : d.settleDogs.lock = d.lock := Dev.each_lock (fun d n => by simp) _ _

theorem Dev.readTag_lock (p : Nat) : (d.readTag p).lock = d.lock := by
  unfold Dev.readTag
  split
  · simp
  · dsimp only
    simp

theorem Dev.noteErase_lock (p n : Nat) : (d.noteErase p n).lock = d.lock := by simp [Dev.noteErase]

theorem Dev.startMark_lock (l : FlashLine) : (d.startMark l).lock = d.lock := by
  unfold Dev.startMark
  dsimp only
  split <;> simp
end

/-! ### Packets, slot writes and completions in Deadbolt -/

section
variable {d : Dev} (dead : d.lock.1 = .deadbolt)
include dead

theorem Dev.commandPacket_lock (p q : Nat) (u : Queue) (pkt : Packet) : (d.commandPacket p q u pkt).lock = d.lock := by
  simp [Dev.commandPacket, dead]

theorem Dev.ingress_lock (p q off len : Nat) (be poisoned : Bool) (pkt : Packet) : (d.ingress p q off len be poisoned pkt).lock = d.lock := by
  unfold Dev.ingress
  dsimp only
  generalize reported : (if poisoned = true then d.aerError p .poisonedTlp else d) = e
  have same : e.lock = d.lock := by simp [← reported]
  have still : e.lock.1 = .deadbolt := by rw [same, dead]
  cases e.queue p q with
  | none => simp [same]
  | some u =>
    dsimp only
    cases packetFault off len be poisoned u.pcheck pkt <;> simp [same, Dev.commandPacket_lock still]

theorem Dev.settleGrant_lock (p gid : Nat) : (d.settleGrant p gid).lock = d.lock := by
  unfold Dev.settleGrant
  split
  · rfl
  · simp [dead]

theorem Dev.slotWrite_lock (p bar off len : Nat) (be poisoned : Bool) (lines : List Line) :
    (d.slotWrite p bar off len be poisoned lines).lock = d.lock := by
  unfold Dev.slotWrite
  dsimp only
  generalize reported : (if poisoned = true then d.aerError p .poisonedTlp else d) = e
  have same : e.lock = d.lock := by simp [← reported]
  have still : ∀ f, (e.modQe f).lock.1 = .deadbolt := fun f => by rw [Dev.modQe_lock, same, dead]
  cases e.grantAt p bar off len with
  | none => simp [same]
  | some g => simp [same, Dev.arrive, Dev.settleGrant_lock (still _)]

theorem Dev.requestTimeout_lock (r : Request) : (d.requestTimeout r).lock = d.lock := by
  unfold Dev.requestTimeout
  dsimp only
  split <;> simp [dead]

/-- No running command takes the data of a completion: QE ended them all. -/
theorem Dev.matched_lock (r : Request) (st : CplStatus) (poisoned malformed : Bool) (data : List Dword) :
    (d.matched r st poisoned malformed data).lock = d.lock := by
  have idle : ∀ e : Dev, e.lock = d.lock → e.runningCmd r.acc = none := fun e same => Dev.runningCmd_dead (same ▸ dead) _
  have bad := Dev.requestTimeout_lock (d := d.aerError r.port .malformedTlp) (by simpa using dead) r
  unfold Dev.matched
  dsimp only
  simp [idle, bad]

theorem Dev.serve_dead (a : Nat) : d.serve a = d := by rw [Dev.serve, Dev.runningCmd_dead dead]

theorem Dev.peerPush_dead (a : Nat) : d.peerPush a = d := by rw [Dev.peerPush, Dev.runningCmd_dead dead]

theorem Dev.peerReady_lock (p w : Nat) (pkt : Rec256) : (d.peerReady p w pkt).lock = d.lock := by
  have pushed : ∀ a f, ((d.modCmd a f).peerPush a).lock = d.lock := fun a f => by
    rw [Dev.peerPush_dead (by simpa using dead), Dev.modCmd_lock]
  unfold Dev.peerReady
  split
  · split
    · exact pushed _ _
    · simp
  · simp

theorem Dev.peerFailed_lock (c : Command) (st : Nat) : (d.peerFailed c st).lock = d.lock := by simp [Dev.peerFailed, dead]

theorem Dev.peerCompleted_lock (p w : Nat) (pkt : Rec256) : (d.peerCompleted p w pkt).lock = d.lock := by
  have served : ∀ a f, ((d.modCmd a f).serve a).lock = d.lock := fun a f => by
    rw [Dev.serve_dead (by simpa using dead), Dev.modCmd_lock]
  unfold Dev.peerCompleted
  split
  · simp [Dev.peerFailed_lock dead, served, dead]
  · simp

/-! ### Starts -/

theorem Dev.readDeficits_lock : d.readDeficits.lock = d.lock := by simp [Dev.readDeficits, dead]

theorem Dev.startCmd_lock (c : Command) (reserved : Bool) : (d.startCmd c reserved).lock = d.lock := by
  unfold Dev.startCmd
  dsimp only
  cases d.startStatus c <;> simp [dead]

/-! ### Bus Master Enable, FLR, PERST_N -/

theorem Dev.busOff_lock (p : Nat) : (d.busOff p).lock = d.lock := by
  have withdrawn : ∀ (e : Dev) (l : List Command), (e.each l (fun d c => d.withdraw c)).lock = e.lock := fun e l =>
    Dev.each_lock (fun d c => d.withdraw_lock c) e l
  simp [Dev.busOff, withdrawn, dead]

theorem Dev.busOn_lock (p : Nat) : (d.busOn p).lock = d.lock := by simp [Dev.busOn, dead]

theorem Dev.setBus_lock (p : Nat) (b : Bool) : (d.setBus p b).lock = d.lock := by
  simp [Dev.setBus, Dev.busOn_lock dead, Dev.busOff_lock dead]

theorem Dev.flrStop_dead (p : Nat) : d.flrStop p = d := by
  unfold Dev.flrStop
  split
  · exact if_neg (by simp [show d.pw.phase = .deadbolt from dead])
  · rfl

theorem Dev.functionReset_lock (p : Nat) : (d.functionReset p).lock = d.lock := by
  have stopped : ((d.flrTags p).flrStop p).lock = d.lock := by rw [Dev.flrStop_dead (by simpa using dead), Dev.flrTags_lock]
  have ended : ∀ (e : Dev) (l : List Command), (e.each l (fun d c => d.flrCmd c)).lock = e.lock := fun e l =>
    Dev.each_lock (fun d c => d.flrCmd_lock c) e l
  simp [Dev.functionReset, stopped, ended, dead]

theorem Dev.perstAssert_lock : d.perstAssert.lock = d.lock := by
  rw [Dev.perstAssert, if_pos (d.isDead_iff.mpr dead), Dev.ite_lock, Dev.perstDead_lock]
  exact ite_self _

/-! ### The code flash ends what runs in its array -/

theorem Dev.serveWindow_lock (w : Who) (fetch : Bool) (a size : Nat) : (d.serveWindow w fetch a size).lock = d.lock := by
  unfold Dev.serveWindow
  dsimp only
  split <;> simp [Dev.served, dead]

theorem Dev.each_lock_dead {α : Type} {f : Dev → α → Dev} (h : ∀ e a, e.lock.1 = .deadbolt → (f e a).lock = e.lock) (l : List α) :
    (d.each l f).lock = d.lock := by
  induction l generalizing d with
  | nil => rfl
  | cons a l ih =>
    have same := h d a dead
    rw [Dev.each_cons, ih (same ▸ dead), same]

theorem Dev.unstall_lock : d.unstall.lock = d.lock := by
  unfold Dev.unstall
  dsimp only
  rw [Dev.ite_lock, Dev.each_lock_dead (by simpa using dead) (fun e x h => Dev.serveWindow_lock h _ _ _ _)]
  simp

theorem Dev.cfOpEnded_lock (us : Nat) : (d.cfOpEnded us).lock = d.lock := by
  rw [Dev.cfOpEnded]
  refine (Dev.unstall_lock ?_ ).trans ?_ <;> simp [Dev.settleDogs_lock, dead]
end

/-! ### Registers and the host's windows (R319, R426) -/

section
variable (d : Dev)

theorem Dev.writeField_lock (base v mask : Nat) (f : FieldDef) : (d.writeField base v mask f).lock = d.lock := by
  unfold Dev.writeField
  dsimp only
  cases f.kind <;> simp

theorem Dev.writeFields_lock (r : RegDef) (base off : Nat) (v : Dword) : (d.writeFields r base off v).lock = d.lock :=
  Dev.each_lock (fun d f => d.writeField_lock _ _ _ f) _ _

theorem Dev.noteRun_lock (old : Nat) : (d.noteRun old).lock = d.lock := Dev.each_lock (fun d n => by simp) _ _

theorem Dev.setLatch_lock (w : Who) (a : Nat) (v : Option Dword) : (d.setLatch w a v).lock = d.lock := rfl

theorem Dev.readWord_lock (w : Who) (a : Nat) : (d.readWord w a).2.lock = d.lock := by
  unfold Dev.readWord
  split
  · split
    · split
      · exact d.setLatch_lock _ _ _
      · split
        · exact d.setLatch_lock _ _ _
        · rfl
    · rfl
  · rfl

theorem Dev.readWords_lock (w : Who) (a size : Nat) : (d.readWords w a size).2.lock = d.lock := by
  unfold Dev.readWords
  split
  · exact d.readWord_lock w a
  · split <;> rfl

@[simp] theorem Dev.readBytes_lock (p n : Nat) (f : Nat → Nat) : (d.readBytes p n f).lock = d.lock := d.emit_lock _

theorem Dev.warn_lock (i : Nat) : (d.warn i).lock = d.lock := by simp [Dev.warn]

theorem Dev.setCeiling_lock (n : Nat) : (d.setCeiling n).lock = d.lock := by simp [Dev.setCeiling]

theorem Dev.endHold_lock : d.endHold.lock = d.lock := by
  unfold Dev.endHold
  split <;> rfl

@[simp] theorem Dev.uartReply_lock (lines : List (List Byte)) (err : Nat) : (d.uartReply lines err).lock = d.lock := d.emit_lock _
end

section
variable {d : Dev} (dead : d.lock.1 = .deadbolt)
include dead

theorem Dev.noteDrift_lock : d.noteDrift.lock = d.lock := by
  have quiet : ∀ e : Dev, e.lock = d.lock → e.inRun = false := fun e same => Dev.inRun_dead (same ▸ dead)
  simp [Dev.noteDrift, quiet]

theorem Dev.plainWrite_lock (r : RegDef) (base off : Nat) (v : Dword) : (d.plainWrite r base off v).lock = d.lock := by
  unfold Dev.plainWrite
  dsimp only
  generalize written : Dev.writeFields _ r base off v = e
  have same : e.lock = d.lock := by simp [← written, Dev.writeFields_lock, Dev.settleDogs_lock]
  have still : e.lock.1 = .deadbolt := by rw [same, dead]
  have drifts : e.noteDrift.lock = d.lock := (Dev.noteDrift_lock still).trans same
  have stirs : e.noteDrift.stir.lock = d.lock := (Dev.stir_lock (drifts ▸ dead)).trans drifts
  simp [same, Dev.noteRun_lock, stirs]

theorem Dev.hostWord_lock (p a : Nat) (v : Dword) : (d.hostWord p a v).lock = d.lock := by
  unfold Dev.hostWord
  dsimp only
  split
  · exact d.writeAq_lock p v
  · split
    · split
      · exact Dev.plainWrite_lock dead _ _ _ _
      · rfl
    · split
      · simp
      · rfl

theorem Dev.readRegWindow_lock (p a len : Nat) (b : Bool) : (d.readRegWindow p a len b).lock = d.lock := by
  have same := d.readWords_lock (.host p) a len
  unfold Dev.readRegWindow
  split
  · dsimp only
    split
    · exact (Dev.readBytes_lock ..).trans same
    · rw [Dev.emit_lock, Dev.contained_lock (same ▸ dead), same]
  · exact d.emit_lock _

theorem Dev.readBar_lock (p bar off len : Nat) (b : Bool) : (d.readBar p bar off len b).lock = d.lock := by
  unfold Dev.readBar
  dsimp only
  split <;> simp [Dev.readRegWindow_lock dead]

/-! ### The UART -/

theorem Dev.onlyRun_dead : onlyRun d.uartPlace = false := by
  rw [onlyRun, Dev.uartPlace, Dev.inRun_dead dead, Bool.false_and, if_neg Bool.false_ne_true]
  split
  · rfl
  · split <;> rfl

/-- Out of Run a line is answered where it is served, and refused elsewhere. -/
theorem Dev.uartCmd_lock {served : UartPlace → Bool} {f : Dev → Dev} (keeps : served d.uartPlace = true → (f d).lock = d.lock) :
    (d.uartCmd served f).lock = d.lock := by
  have elsewhere : (d.uartPlace == .run) = false := Dev.onlyRun_dead dead
  unfold Dev.uartCmd
  dsimp only
  rw [elsewhere, if_neg Bool.false_ne_true]
  split
  · rfl
  · split
    · next serves => exact keeps serves
    · exact d.uartReply_lock _ _

theorem Dev.answerLine_lock (line : List Byte) : (d.answerLine line).lock = d.lock := by
  have refused : (d.uartCmd (fun _ => false) (fun d => d)).lock = d.lock := Dev.uartCmd_lock dead (fun _ => rfl)
  have malformed : (d.uartCmd everywhere (fun d => d.uartReply [] 2)).lock = d.lock :=
    Dev.uartCmd_lock dead (fun _ => d.uartReply_lock _ _)
  simp [Dev.answerLine, refused, malformed]
end

/-! ### What a command's answer keeps -/

/-- Where the answer is a next state, its phase, FAULT_N and NAND are those of the state before. -/
def KeepsLock (s : State) (r : Res) : Prop := ∀ t, r = .next t → t.dev.lock = s.dev.lock

section
variable {s : State}

theorem KeepsLock.run {f : Dev → Dev} (h : (f s.dev).lock = s.dev.lock) : KeepsLock s (run s f) := by
  rintro _ ⟨⟩
  exact h

theorem KeepsLock.act {c : Dev → Bool} {f : Dev → Dev} (h : c s.dev = true → (f s.dev).lock = s.dev.lock) : KeepsLock s (act s c f) := by
  intro t next
  rw [(act_next next).2]
  split
  · next holds => exact h holds
  · rfl

theorem KeepsLock.disabled {c : Dev → Bool} {f : Dev → Dev} (h : c s.dev = false) : KeepsLock s (Machine.act s c f) :=
  .act (fun holds => absurd (h.symm.trans holds) Bool.false_ne_true)

theorem KeepsLock.actOn {α : Type} {o : Dev → Option α} {f : Dev → α → Dev} (h : ∀ a, o s.dev = some a → (f s.dev a).lock = s.dev.lock) :
    KeepsLock s (actOn s o f) := by
  intro t next
  obtain ⟨_, ⟨_, same⟩ | ⟨a, found, effect⟩⟩ := actOn_next next
  · rw [same]
  · rw [effect, h a found]

theorem KeepsLock.absent {α : Type} {o : Dev → Option α} {f : Dev → α → Dev} (h : o s.dev = none) : KeepsLock s (Machine.actOn s o f) :=
  .actOn (fun _ found => nomatch h.symm.trans found)

/-- No unit takes a descriptor. -/
theorem KeepsLock.desc {u : Unit4} {op : Nat} {f : Dev → Nat → Line → Dev} (dead : s.dev.lock.1 = .deadbolt) :
    KeepsLock s (onDesc s u op f) := .absent (Dev.entryReady_dead dead _ _)
end

/-! ### Commands that go through several of these operations -/

section
variable {s : State} (dead : s.dev.lock.1 = .deadbolt)
include dead

theorem execCommandStart_keepsLock : KeepsLock s (execCommandStart s) := by
  refine .run ?_
  dsimp only
  have read : s.dev.readDeficits.zeroDeficits.lock = s.dev.lock := by rw [Dev.zeroDeficits_lock, Dev.readDeficits_lock dead]
  generalize s.dev.readDeficits.zeroDeficits = d at *
  split
  · exact read
  · rw [Dev.zeroDeficits_lock, Dev.startCmd_lock (by rw [Dev.modQe_lock, read, dead]), Dev.modQe_lock, read]
  · rw [Dev.zeroDeficits_lock, Dev.readUnits_lock, Dev.startUnit_lock, Dev.modQe_lock, read]

theorem execCompletionTlp_keepsLock (p tag : Nat) (st : CplStatus) (poisoned malformed : Bool) (data : List Dword) :
    KeepsLock s (execCompletionTlp p tag st poisoned malformed data s) := by
  refine .run ?_
  split
  · exact Dev.matched_lock dead _ _ _ _ _
  · split <;> simp

theorem execPerstNRelease_keepsLock : KeepsLock s (execPerstNRelease s) := by
  have ordered : ∀ (e : Dev) n, e.lock = s.dev.lock → e.wakeAt n = false := fun e n same => Dev.wakeAt_dead (same ▸ dead) n
  exact .act (fun _ => by simp [ordered])

theorem execPwrFailNAssert_keepsLock (ns : Nat) : KeepsLock s (execPwrFailNAssert ns s) := by
  have idle : ∀ e : Dev, e.lock = s.dev.lock → e.pwrFailActs = false := fun e same => Dev.pwrFailActs_dead (same ▸ dead)
  exact .act (fun _ => by simp [idle])

theorem execPwrFailNRelease_keepsLock : KeepsLock s (execPwrFailNRelease s) := by
  have idle : ∀ e : Dev, e.lock = s.dev.lock → e.pwrFailActs = false := fun e same => Dev.pwrFailActs_dead (same ▸ dead)
  exact .act (fun _ => by simp [idle])

theorem execCfOperationDone_keepsLock (us : Nat) : KeepsLock s (execCfOperationDone us s) := by
  have stored : ∀ (e : Dev) p x, (e.putSector p x).lock = e.lock := fun e p x => e.modCf_lock _
  refine .act (fun _ => ?_)
  dsimp only
  split
  · rfl
  · next p i l _ =>
    have ended : ((if i = 255 then (s.dev.putSector p ((s.dev.sector p).program i l)).readTag p
        else s.dev.putSector p ((s.dev.sector p).program i l)).cfOpEnded us).lock = s.dev.lock := by
      refine (Dev.cfOpEnded_lock ?_ us).trans ?_ <;> simp [Dev.readTag_lock, stored, dead]
    split
    · split
      · exact (Dev.startMark_lock _ _).trans ended
      · exact ended
    · rfl
  · split
    · refine (Dev.cfOpEnded_lock ?_ us).trans ?_ <;> simp [stored, dead]
    · rfl
  · refine (Dev.cfOpEnded_lock ?_ us).trans ?_ <;> simp [Dev.noteErase_lock, stored, dead]
end

/-! ### The commands (R429, R430; log 49, log 50) -/

/-- No command but a loss of VDD_AON changes the phase, FAULT_N or the NAND of a device in Deadbolt. -/
theorem exec_keepsLock {s : State} (dead : s.dev.lock.1 = .deadbolt) (c : Instr) (powered : c ≠ .vddAonLoss) : KeepsLock s (exec c s) := by
  have phase : s.dev.pw.phase = .deadbolt := dead
  have isDead : s.dev.isDead = true := s.dev.isDead_iff.mpr dead
  have awake : s.dev.awake = false := Dev.awake_dead dead
  have inRun : s.dev.inRun = false := Dev.inRun_dead dead
  have wardenWrites : s.dev.wardenWrites = false := Dev.wardenWrites_dead dead
  have wardenRuns : s.dev.wardenRuns = false := Dev.wardenRuns_dead dead
  have coreRuns : ∀ n, s.dev.coreRuns n = false := Dev.coreRuns_dead dead
  have wakeAt : ∀ n, s.dev.wakeAt n = false := Dev.wakeAt_dead dead
  have bootAt : ∀ n, s.dev.bootAt n = false := Dev.bootAt_dead dead
  have optRuns : s.dev.optRuns = false := Dev.optRuns_dead dead
  cases c
  all_goals dsimp only [exec]
  case vddAonLoss => exact absurd rfl powered
  -- no command is started, running or taken from a descriptor ring
  case write | read | flush | deallocate | verify | writeZeroes | peerCopyOut | refresh | identify | getLog | setFeature | getFeature |
      queueCreate | queueDelete | abort | eventLogClear | setWallTime =>
    exact .absent (Dev.startedOp_dead dead _ _)
  case queueRestartResume | queueRestartDiscard | firmwareDownloadPiece | domainJoin | domainLeave =>
    exact .absent (by simp [Dev.startedOp_dead dead])
  case stop => exact .absent (by simp [Dev.mayPrepare, phase])
  case firmwareDownloadCommit | firmwareActivateBolt | firmwareActivateWarden | namespaceCreate | namespaceDelete | generate | wrapIn |
      enrolOperatorKey | revokeOperatorKey | enrolMaintenanceKey =>
    exact .absent (Dev.serialCmd_dead dead _ _ _)
  case bufferReservation | pullReadRequest | commitPoint | peerWaitTimeout => exact .absent (by simp [Dev.runningCmd_dead dead])
  case ladderStep | referenceQuery | lookup | validateSet | hold | release | writeBack | checkpoint | lunQuery | rawRead | retireBlock |
      stripeQuery | reclaim | refreshLun | markSuspect =>
    exact .desc dead
  case sample => exact .absent (by simp [Dev.entryReady_dead dead])
  case witnessSweep counts =>
    by_cases counted : counts.length = 16 * s.dev.thresholds
    · rw [execWitnessSweep, if_pos counted]
      exact .desc dead
    · rw [execWitnessSweep, if_neg counted]
      rintro _ ⟨⟩
      rfl
  case descriptorDone => exact .absent (by simp [awake])
  -- what works only awake, in boot, in a phase of Run or out of Deadbolt
  case eventRecord | wardenWatchdogKick | wardenWatchdogExpiry | boltWatchdogKick | icClaim | icComplete | icRaise | icRoute =>
    exact .disabled (by simp [awake])
  case witnessInterval => exact .disabled (by simp [inRun])
  case programLine | sectorErase | cfEraseSuspend | cfEraseResume | cfReset => exact .disabled (by simp [Dev.cfOpen, awake])
  case temperatureBin => exact .absent (by simp [awake])
  case spClear | march | dcTestMask | patrolScrub | dramTemperaturePoll | ftAck | ftInject | trngDataRead | mtLock =>
    exact .disabled (by simp [wardenWrites])
  case marchDone | rawWrite | rawReadTest => exact .absent (by simp [wardenWrites])
  case timebaseTick | optTick | tcMonitorUpdate => exact .disabled (by simp [Dev.ticks, optRuns, phase])
  case codeflashScan | configurationLoad | wakeN => exact .disabled (by simp [phase])
  case imageAuthentication | ddr5Training | pwCmdReleaseFphy | flashBringUp | wakeAuditMeasurement | checkpointLoad | verdictPhase |
      bankSampling | portsRunning =>
    exact .disabled (by simp [bootAt])
  case replay | format => exact .absent (by simp [bootAt])
  case powerOn straps =>
    rw [execPowerOn]
    split
    · exact fun _ next => nomatch next
    · exact .disabled (by simp [Dev.mayPowerOn, phase, wakeAt])
  case pwrGood => exact .absent (by simp [wakeAt])
  case clkReady | memReady | sequencingFault => exact .disabled (by simp [Dev.awaits, wakeAt])
  case haspPrepareTimeout | haspReadyAnswer | pwCmdCommitStep7 | haspCommitOverrun => exact .absent (by simp [phase])
  case pwrFailResume => exact .absent (by simp [Dev.pwrFailActs_dead dead])
  case dataTimeout | reclaimUnitDone | lunReady | dataTransferEnd | opLimitExpiry | eraseSuspend =>
    exact .absent (by simp [isDead])
  case decodeResult | ladderFallback | checkpointDurable | victimErase | fallbackVictim | logClear | keyBusyCleared | tokenClaim | tailReturn |
      eraseResume | progAge | idlePad =>
    exact .absent (by simp [isDead, Dev.cxOpen])
  case reclaimUnitOffer | checkpointTrigger | evFlush | healthSnapshot | cxKeyLoad | cxKeyClear | nextOperation =>
    exact .disabled (by simp [isDead, Dev.evWorks, Dev.cxOpen, Dev.msWorks])
  -- Warden and the Bolt cores stand
  case prepare | mailboxRelease => exact .disabled (Dev.owes_dead dead _ _)
  case haltNotice => exact .absent (by simp [Dev.owes_dead dead])
  case prepareAnswer | imageReady | eventRequest | boltWatchdogExpiry | machineTimerInterrupt =>
    exact .disabled (by simp [Dev.dogRuns, coreRuns])
  case pwCmdBeginPrepare | pwCmdRelease => exact .disabled (by simp [wardenRuns])
  case activationPrepareTimeout | imageReadyTimeout => exact .absent (by simp [wardenRuns])
  case haltWaitExpiry =>
    refine .absent (Option.filter_eq_none_iff.mpr fun a _ => ?_)
    cases a.step <;> simp [wardenRuns]
  case internalAccess w _ _ _ _ _ => exact .disabled (by cases w <;> simp [Dev.accessComes, wardenWrites, coreRuns])
  -- what acts in Deadbolt too: packets, completions, rings and the endpoint
  case ingressPacket | ringRelease => exact .act (fun _ => Dev.ingress_lock dead _ _ _ _ _ _ _)
  case slotWrite => exact .actOn (fun _ _ => Dev.slotWrite_lock dead _ _ _ _ _ _ _)
  case commandStart => exact execCommandStart_keepsLock dead
  case promotionAge | hardAge => exact .actOn (fun _ _ => by simp)
  case slotQuarantineExpiry | tagQuarantineExpiry => exact .run (Dev.modQe_lock _ _)
  case completionTlp => exact execCompletionTlp_keepsLock dead _ _ _ _ _ _
  case completionTimeout => exact .actOn (fun r _ => by simp [Dev.requestTimeout_lock, dead])
  case ringPacketPost =>
    refine .actOn (fun x _ => ?_)
    cases x.2.dest <;> simp
  case coalesceTimeout => exact .actOn (fun _ _ => by simp)
  case adminQueueEnable | adminQueueDisable | unsupportedRequest | flrComplete | msixUnmask | linkStateChange | unmappedBarWrite =>
    exact .act (fun _ => by simp)
  case busMasterEnableCleared => exact .act (fun _ => Dev.busOff_lock dead _)
  case busMasterEnableSet => exact .act (fun _ => Dev.busOn_lock dead _)
  case configurationRequest => exact .act (fun _ => by simp [Dev.setBus_lock dead, Dev.noteCto])
  case flr => exact .act (fun _ => Dev.functionReset_lock dead _)
  case peerWriteRequest => exact .act (fun _ => by simp [Dev.peerAccept_lock])
  case peerTransferReady => exact .act (fun _ => Dev.peerReady_lock dead _ _ _)
  case peerCompletion => exact .act (fun _ => Dev.peerCompleted_lock dead _ _ _)
  case barRead => exact .act (fun _ => by simp [Dev.readBar_lock dead])
  case registerWrite w _ _ _ =>
    cases w with
    | warden => exact .disabled (by simp [Dev.mayWrite, wardenWrites])
    | bolt n => exact .disabled (by simp [Dev.mayWrite, coreRuns])
    | host p => exact .act (fun _ => by simp [Dev.each_lock_dead dead (fun e (x : Nat × Dword) h => Dev.hostWord_lock h p x.1 x.2)])
  -- pins, clocks, sensors and faults
  case perstNAssert =>
    have drawn : s.dev.draw.2.perstAssert.lock = s.dev.lock := Dev.perstAssert_lock (d := s.dev.draw.2) dead
    refine .act (fun _ => ?_)
    split
    · exact Dev.perstAssert_lock dead
    · dsimp only
      split
      · exact drawn
      · rfl
  case perstNRelease => exact execPerstNRelease_keepsLock dead
  case pwrFailNAssert => exact execPwrFailNAssert_keepsLock dead _
  case pwrFailNRelease => exact execPwrFailNRelease_keepsLock dead
  case activationHoldEnd => exact .act (fun _ => Dev.endHold_lock _)
  case rampDelay | rampTick => exact .actOn (fun _ _ => by simp [Dev.setCeiling_lock])
  case zqShortCalibration => exact .actOn (fun _ _ => by simp [Dev.msWorks, isDead])
  case temperatureUpdate => exact .act (fun _ => by simp [Dev.warn_lock])
  case thermalTrip => exact .act (fun _ => by simp [dead])
  case faultMessage => exact .act (fun _ => by simp [dead])
  case privilegedFault => exact .act (fun _ => by simp [dead])
  case cfSequenceTimeout => exact .act (fun _ => Dev.flag_lock _ _ _)
  case cfOperationDone => exact execCfOperationDone_keepsLock dead _
  -- the maintenance port
  case id | fault | log => exact .run (Dev.uartCmd_lock dead (fun _ => Dev.uartReply_lock _ _ _))
  case clear | chal | resp | pass | lock => exact .run (Dev.uartCmd_lock dead (fun serves => by simp [Dev.onlyRun_dead dead] at serves))
  case unknownCommand => exact .run (Dev.answerLine_lock dead _)
  case nonceExpiry | unlockDelayExpiry => exact .act (fun _ => Dev.modMt_lock _ _)
  case bypass | idcode | samplePreload | extest | tapReset => exact .act (fun _ => by simp [Dev.tapBypass])
  case debugAccess => exact .act (fun _ => by simp [isDead, Dev.tapBypass])
  -- what remains is Seal, which no device in Deadbolt starts
  exact .absent (Dev.startedOp_dead dead _ _)

/-! ### The statement -/

/-- Settles O3: the front command keeps the lock, and the commands that wait after it waited before. -/
theorem deadboltIsLeftOnlyByPowerLoss : Obligations.DeadboltIsLeftOnlyByPowerLoss := by
  rintro n ⟨d, _ | ⟨c, rest⟩⟩ t ⟨phase, faultN, nand, powered⟩ next
  · cases next
    exact ⟨phase, faultN, nand, powered⟩
  · obtain ⟨other, later⟩ := List.ne_and_not_mem_of_not_mem_cons powered
    have same := exec_keepsLock (s := ⟨d, rest⟩) phase c other.symm t next
    obtain ⟨samePhase, sameFault, sameNand⟩ := Dev.lock_eq_iff.mp same
    exact ⟨samePhase.trans phase, sameFault.trans faultN, sameNand.trans nand, step_next_pending next ▸ later⟩

end Sys2Proof.Machine
end

section
/-! SUPPORT. The maintenance port: the UART's lines (O58), unlock attempts (O59) and the TAP (O60). -/

namespace Sys2Proof.Machine

/-! ### Lines of the UART (R465) -/

section
variable {d : Dev} {served : UartPlace → Bool} {f : Dev → Dev}

/-- A line that its place serves has its effect on the device that heard it. -/
theorem Dev.uartCmd_served (speaks : d.uartPlace ≠ .silent) (serves : served d.uartPlace = true) : d.uartCmd served f = f d.heard := by
  unfold Dev.uartCmd
  dsimp only
  rw [if_neg (by simpa using speaks), if_pos serves]
  rfl

/-- A line that its place does not serve is answered with error 1. -/
theorem Dev.uartCmd_unserved (speaks : d.uartPlace ≠ .silent) (unserved : served d.uartPlace = false) :
    d.uartCmd served f = d.heard.uartReply [] 1 := by
  unfold Dev.uartCmd
  dsimp only
  rw [if_neg (by simpa using speaks), if_neg (by simp [unserved])]
  rfl

theorem everywhere_of_speaks (speaks : d.uartPlace ≠ .silent) : everywhere d.uartPlace = true := by simpa [everywhere] using speaks

theorem onlyRun_of_run (run : d.uartPlace = .run) : onlyRun d.uartPlace = true := by simp [onlyRun, run]

@[simp] theorem Dev.heard_mt : d.heard.mt = d.mt := by
  unfold Dev.heard
  split <;> simp

@[simp] theorem Dev.drbg_mt : d.drbg.2.mt = d.mt := by
  unfold Dev.drbg
  dsimp only
  split
  · exact Dev.addSat_mt ..
  · rfl

/-- A reseed counts in a register of its own. -/
theorem Dev.drbg_now (d : Dev) : d.drbg.2.now = d.now := by
  unfold Dev.drbg
  dsimp only
  split
  · exact Dev.get_put_other _ _ _ _ (by decide)
  · rfl

@[simp] theorem Dev.uartReply_mt (lines : List (List Byte)) (err : Nat) : (d.uartReply lines err).mt = d.mt := rfl

@[simp] theorem Dev.uartReply_now (lines : List (List Byte)) (err : Nat) : (d.uartReply lines err).now = d.now := rfl

@[simp] theorem Dev.modMt_now (f : Mt → Mt) : (d.modMt f).now = d.now := rfl

/-- A line of which no served command has the first word is answered with error 1. -/
theorem Dev.answerLine_unknown {line : List Byte} (speaks : d.uartPlace ≠ .silent)
    (unknown : ∀ x ∈ d.servedWords, textBytes x ≠ line.takeWhile (fun b => b != 32)) : d.answerLine line = d.heard.uartReply [] 1 := by
  have absent : (d.servedWords.map textBytes).contains (line.takeWhile (fun b => b != 32)) = false := by
    simpa using unknown
  unfold Dev.answerLine
  dsimp only
  rw [if_pos (by rw [absent]; rfl)]
  exact Dev.uartCmd_unserved speaks rfl
end

theorem exec_id (s : State) : exec .id s = execId s := rfl
theorem exec_fault (s : State) : exec .fault s = execFault s := rfl
theorem exec_log (s : State) : exec .log s = execLog s := rfl
theorem exec_clear (s : State) : exec .clear s = execClear s := rfl
theorem exec_chal (s : State) : exec .chal s = execChal s := rfl
theorem exec_resp (sig : BitVec 768) (s : State) : exec (.resp sig) s = execResp sig s := rfl
theorem exec_pass (text : List Byte) (s : State) : exec (.pass text) s = execPass text s := rfl
theorem exec_lock (s : State) : exec .lock s = execLock s := rfl
theorem exec_mtLock (v : Dword) (s : State) : exec (.mtLock v) s = execMtLock v s := rfl
theorem exec_nonceExpiry (s : State) : exec .nonceExpiry s = execNonceExpiry s := rfl
theorem exec_unlockDelayExpiry (s : State) : exec .unlockDelayExpiry s = execUnlockDelayExpiry s := rfl
theorem exec_unknownCommand (line : List Byte) (s : State) : exec (.unknownCommand line) s = execUnknownCommand line s := rfl

section
variable {c : Instr} {s : State} {served : UartPlace → Bool} {f : Dev → Dev}

/-- A command that is one line of the UART gives what its line does, where its place serves it. -/
theorem Gives.of_line (arm : exec c s = .next { s with dev := s.dev.uartCmd served f }) (speaks : s.dev.uartPlace ≠ .silent)
    (serves : served s.dev.uartPlace = true) : Gives c s (f s.dev.heard) := by
  rw [Gives, arm, Dev.uartCmd_served speaks serves]
end

section
variable {s : State}

theorem id_gives (speaks : s.dev.uartPlace ≠ .silent) :
    Gives .id s (s.dev.heard.uartReply [hexBytes Config.deviceId.toNat 8, hexBytes Config.agreementKey.toNat 96,
      hexBytes (s.dev.heard.get Reg.PW_BOOT_CAUSE.cause) 1] 0) := .of_line (exec_id s) speaks (everywhere_of_speaks speaks)

theorem fault_gives (speaks : s.dev.uartPlace ≠ .silent) : Gives .fault s (s.dev.heard.uartReply [hexBytes s.dev.heard.faultWindow 256] 0) :=
  .of_line (exec_fault s) speaks (everywhere_of_speaks speaks)

theorem log_gives (speaks : s.dev.uartPlace ≠ .silent) :
    Gives .log s (s.dev.heard.uartReply ((if s.dev.heard.uartPlace == .run then s.dev.heard.heldRecords else s.dev.heard.ev.ring).map
      (fun e => hexBytes (eventBytes e) 32)) 0) := .of_line (exec_log s) speaks (everywhere_of_speaks speaks)

variable (run : s.dev.uartPlace = .run)
include run

theorem clear_gives : Gives .clear s (s.dev.heard.modEv (fun e => { e with asked := e.asked ++ [(2, none)] })) :=
  .of_line (exec_clear s) (by simp [run]) (onlyRun_of_run run)

theorem lock_gives : Gives .lock s (s.dev.heard.lockMt.uartReply [] 0) := .of_line (exec_lock s) (by simp [run]) (onlyRun_of_run run)

theorem resp_gives (sig : BitVec 768) (offered : s.dev.bit Reg.MT_AUTH_CFG.challenge = true) :
    Gives (.resp sig) s ((s.dev.heard.modMt (fun m => { m with nonce := none })).attempt 1 (s.dev.heard.respOk sig)) :=
  .of_line (exec_resp sig s) (by simp [run]) (by simp [onlyRun_of_run run, offered])

theorem pass_gives (text : List Byte) (offered : s.dev.bit Reg.MT_AUTH_CFG.password = true) :
    Gives (.pass text) s (s.dev.heard.attempt 2 (s.dev.heard.passOk text)) :=
  .of_line (exec_pass text s) (by simp [run]) (by simp [onlyRun_of_run run, offered])

/-- A challenge is a nonce that counts from now, and leaves the port locked or unlocked as it was. -/
theorem chal_gives (offered : s.dev.bit Reg.MT_AUTH_CFG.challenge = true) :
    GivesSome .chal s (fun e => ∃ n, e.mt.nonce = some (n, e.now) ∧ e.mt.unlocked = s.dev.mt.unlocked) := by
  refine ⟨_, .of_line (exec_chal s) (by simp [run]) (by simp [onlyRun_of_run run, offered]),
    BitVec.ofNat 256 (fld s.dev.heard.drbg.1 0 256), ?_, ?_⟩
  · dsimp only
    rw [Dev.uartReply_mt, Dev.uartReply_now, Dev.modMt_mt, Dev.modMt_now, Dev.drbg_now]
  · simp
end

/-! ### Unlock attempts (R467, R468) -/

section
variable (d : Dev) (method : Nat)

/-- What an attempt makes of the port: it is right and not delayed, or it counts as a failure. -/
theorem Dev.attempt_mt (ok : Bool) : (d.attempt method ok).mt =
    if ok = true ∧ d.mt.delay = none then
      { d.mt with attempts := d.mt.attempts + 1, unlocked := true, mode := method, failures := 0, nonce := none, delay := none }
    else
      { d.mt with
        attempts := d.mt.attempts + 1
        failures := d.mt.failures + 1
        delay := if d.mt.delay.isSome then d.mt.delay else some (d.now, min (2 ^ d.mt.failures) 64) } := by
  unfold Dev.attempt
  dsimp only
  rw [Dev.uartReply_mt, Dev.raise_mt, Dev.event_mt]
  cases ok <;> cases h : d.mt.delay <;> simp [h]

theorem Dev.attempt_unlocks (free : d.mt.delay = none) : (d.attempt method true).mt =
    { d.mt with attempts := d.mt.attempts + 1, unlocked := true, mode := method, failures := 0, nonce := none, delay := none } := by
  rw [Dev.attempt_mt, if_pos ⟨rfl, free⟩]

theorem Dev.attempt_fails {ok : Bool} (wrong : ok = false ∨ d.mt.delay ≠ none) : (d.attempt method ok).mt =
    { d.mt with
      attempts := d.mt.attempts + 1
      failures := d.mt.failures + 1
      delay := if d.mt.delay.isSome then d.mt.delay else some (d.now, min (2 ^ d.mt.failures) 64) } := by
  rw [Dev.attempt_mt, if_neg (by rintro ⟨right, free⟩; simp [right, free] at wrong)]
end

/-! ### The TAP (R463, R464, R505, R506) -/

theorem exec_bypass (s : State) : exec .bypass s = execBypass s := rfl
theorem exec_idcode (s : State) : exec .idcode s = execIdcode s := rfl
theorem exec_extest (s : State) : exec .extest s = execExtest s := rfl
theorem exec_tapReset (s : State) : exec .tapReset s = execTapReset s := rfl
theorem exec_samplePreload (p : BitVec 3169) (s : State) : exec (.samplePreload p) s = execSamplePreload p s := rfl
theorem exec_debugAccess (op : DebugOp) (s : State) : exec (.debugAccess op) s = execDebugAccess op s := rfl

section
variable {s : State} (on : s.dev.tapOn = true)
include on

theorem bypass_gives : Gives .bypass s ((s.dev.tapInstr 0).emit (.tdo 1 0)) := .of_act (exec_bypass s) on

theorem idcode_gives : Gives .idcode s ((s.dev.tapInstr 1).emit (.tdo 32 0x14096d75)) := .of_act (exec_idcode s) on

theorem samplePreload_gives (p : BitVec 3169) :
    Gives (.samplePreload p) s (((s.dev.tapInstr 2).tapSample).modMt (fun m => { m with boundary := p })) := .of_act (exec_samplePreload p s) on

theorem extest_gives : Gives .extest s (s.dev.tapInstr 3).tapSample := .of_act (exec_extest s) on

theorem tapReset_gives : Gives .tapReset s (s.dev.tapInstr 1) := .of_act (exec_tapReset s) on

theorem debugAccess_gives (op : DebugOp) :
    Gives (.debugAccess op) s (if (s.dev.mt.unlocked && !s.dev.isDead) = true then s.dev.debug op else s.dev.tapBypass) :=
      .of_act (exec_debugAccess op s) on
end

/-! ### The statements -/

/-- Settles O58: each line is served where uartCmd serves it, and the timers and MT_LOCK are enabled by what the statement names. -/
theorem uartCommandsComplete : Obligations.UartCommandsComplete := by
  refine ⟨?anywhere, ?inRun, ?unknown, ?locks, ?nonce, ?delay⟩
  case anywhere => exact fun s speaks => ⟨id_gives speaks, fault_gives speaks, log_gives speaks⟩
  case inRun =>
    exact fun s run => ⟨clear_gives run, lock_gives run, chal_gives run, fun offered sig => resp_gives run sig offered,
      fun offered text => pass_gives run text offered⟩
  case unknown =>
    intro s line speaks unknown
    rw [← Dev.answerLine_unknown speaks unknown]
    exact exec_unknownCommand line s
  case locks =>
    intro s v writes set
    refine ⟨_, .of_act (exec_mtLock v s) writes, ?_⟩
    dsimp only
    rw [if_pos set]
    rfl
  case nonce =>
    intro s n t nonce due
    exact ⟨_, .of_act (exec_nonceExpiry s) (by simpa [nonce] using due), rfl⟩
  case delay =>
    intro s t n delay due
    exact ⟨_, .of_act (exec_unlockDelayExpiry s) (by simpa [delay] using due), rfl⟩

/-- Settles O59: both ends of an attempt are read off what it makes of the port. -/
theorem unlockAttempts : Obligations.UnlockAttempts := by
  intro d method ok
  refine ⟨?counted, ?right, ?wrong, ?delayed, ?kept⟩
  case counted =>
    rw [Dev.attempt_mt]
    split <;> rfl
  case right =>
    rintro rfl free
    rw [Dev.attempt_unlocks d method free]
    exact ⟨rfl, rfl, rfl⟩
  case wrong =>
    intro wrong
    rw [Dev.attempt_fails d method wrong]
    exact ⟨rfl, rfl⟩
  case delayed =>
    intro wrong free
    rw [Dev.attempt_fails d method (.inl wrong)]
    simp [free]
  case kept =>
    intro running
    rw [Dev.attempt_fails d method (.inr running)]
    exact if_pos (Option.isSome_iff_ne_none.mpr running)

/-- Settles O60: each TAP command is enabled by tapOn alone, and what it shifts out is read off its effect. -/
theorem tapCommandsComplete : Obligations.TapCommandsComplete := by
  intro s on
  refine ⟨bypass_gives on, ⟨_, idcode_gives on, rfl, rfl⟩, fun p => ⟨_, samplePreload_gives on p, rfl, rfl, rfl⟩,
    ⟨_, extest_gives on, rfl, rfl, rfl⟩, ⟨_, tapReset_gives on, rfl⟩, ?unlocked, ?locked⟩
  case unlocked =>
    intro op unlocked alive
    have gives := debugAccess_gives on op
    rwa [if_pos (by simp [unlocked, alive])] at gives
  case locked =>
    intro op locked
    have gives := debugAccess_gives on op
    rwa [if_neg (by simp [locked])] at gives

end Sys2Proof.Machine
end

section
/-! SUPPORT. The fault collector: its commands (O48), how it classes a message (O49) and injected fatal errors (O50). -/

namespace Sys2Proof.Machine

/-! ### What Deadbolt entry leaves of PW: all but the phase, FAULT_N and Hasp (R427) -/

section
variable (d : Dev)

theorem Dev.startMark_pw (l : FlashLine) : (d.startMark l).pw = d.pw := by
  unfold Dev.startMark
  dsimp only
  split <;> simp

theorem Dev.deadboltMark_pw (source kind : Nat) : (d.deadboltMark source kind).pw = d.pw := by
  unfold Dev.deadboltMark
  split
  · dsimp only
    split
    · rfl
    · exact (Dev.startMark_pw _ _).trans (by simp)
    · exact d.startMark_pw _
  · rfl

theorem Dev.flashOff_pw : d.flashOff.pw = d.pw := by
  rw [Dev.flashOff, Dev.cutFlash_pw, Dev.modMs_pw, Dev.each_keeps Dev.pw _ (fun d _ => d.flag_pw _ _)]

theorem Dev.deadCores_pw : d.deadCores.pw = d.pw := by
  rw [Dev.deadCores, Dev.modCores_pw, Dev.each_keeps Dev.pw _ (fun d _ => d.put_pw _ _)]
  rfl

theorem Dev.deadStop_pw : d.deadStop.pw = d.pw := by
  unfold Dev.deadStop
  split
  · split
    · split <;> simp
    · rfl
  · rfl

theorem Dev.finishWaiting_pw (a : Nat) : (d.finishWaiting a).pw = d.pw := by
  unfold Dev.finishWaiting
  split
  · split
    · exact congrArg (·.1) (Dev.queueCompletion_inner _ _ _ _)
    · rfl
  · rfl

theorem Dev.deadCmd_pw (a : Nat) : (d.deadCmd a).pw = d.pw := by
  unfold Dev.deadCmd
  split
  · rw [Dev.commitWith_pw]
    exact congrArg (·.1) ((Dev.releaseParts_inner (d.endGrants a) _).trans (d.endGrants_inner a))
  · rfl

theorem Dev.settleDeadPort_pw (p : Nat) : (d.settleDeadPort p).pw = d.pw := by
  unfold Dev.settleDeadPort
  split <;> simp

theorem Dev.deadQe_pw : d.deadQe.pw = d.pw := by
  unfold Dev.deadQe
  dsimp only
  rw [Dev.each_keeps Dev.pw _ (fun d p => d.settleDeadPort_pw p), Dev.each_keeps Dev.pw _ (fun d a => d.deadCmd_pw a),
    Dev.inCommitOrder, Dev.modQe_pw, Dev.each_keeps Dev.pw _ (fun d a => d.finishWaiting_pw a),
    Dev.each_keeps Dev.pw _ (fun d p => d.modPort_pw p _), Dev.modQe_pw]

theorem Dev.deadDram_pw : d.deadDram.pw = d.pw := by
  unfold Dev.deadDram
  split <;> simp

theorem Dev.deadPorts_pw : d.deadPorts.pw = d.pw :=
  Dev.each_keeps Dev.pw _ (fun d p => by simp) _ _

theorem Dev.deadWarden_pw (kind : Nat) : (d.deadWarden kind).pw = d.pw := by simp [Dev.deadWarden, Dev.lockMt]

theorem Dev.deadUnits_pw (source kind : Nat) : (d.deadUnits source kind).pw = d.pw := by
  rw [Dev.deadUnits, Dev.deadWarden_pw, Dev.deadPorts_pw, Dev.deadDram_pw, Dev.deadQe_pw, Dev.deadStop_pw, Dev.deadCores_pw,
    Dev.flashOff_pw, Dev.deadboltMark_pw]

theorem Dev.latchDead_pw (source kind : Nat) (p : Bool) : (d.latchDead source kind p).pw = d.pw := by
  have noted : ∀ e : Dev, e.noteDeadOpt.pw = e.pw := fun _ => rfl
  rw [Dev.latchDead, noted, Dev.flag_pw, Dev.put_pw, Dev.put_pw, Dev.flag_pw, Dev.put_pw]

theorem Dev.enterDeadbolt_pw (source kind : Nat) (p : Bool) : (d.enterDeadbolt source kind p).pw =
    if d.isDead = true then d.pw else { d.pw with phase := .deadbolt, faultN := true, hasp := none } := by
  have units : ∀ e : Dev, (if e.logicOn = true then e.deadUnits source kind else e).pw = e.pw := fun e => by
    split
    · exact e.deadUnits_pw _ _
    · rfl
  unfold Dev.enterDeadbolt
  split
  · rfl
  · dsimp only
    rw [Dev.modPw_pw, units, Dev.latchDead_pw]

theorem Dev.recordFault_inner (m : FaultMsg) (final : Nat) (escalated : Bool) : (d.recordFault m final escalated).inner = d.inner :=
  d.record_inner _ _ _ _ _ _ _

theorem Dev.countFault_inner (cls : Nat) : (d.countFault cls).inner = d.inner := d.addSat_inner _ _

/-! ### How FT classes a message (R412, R417 to R420) -/

/-- The message in its record and its count, before Deadbolt. -/
def Dev.classed (m : FaultMsg) (raised final : Nat) : Dev :=
  let escalated := raised < 2 && (d.capture raised).valid
  (((if escalated then (d.follow raised).raise Irq.escalation else d).countFault final).recordFault m final escalated).captureMsg m final
    escalated false

/-- Outside Deadbolt a message is raised by its kind, escalated where its record is held, and starts Deadbolt where that makes it fatal. -/
theorem Dev.faultMsg_alive {m : FaultMsg} {raised final : Nat} (alive : d.isDead = false)
    (byKind : raised = if m.cls < 2 ∧ m.kind < 32 ∧ (d.get Reg.FT_KIND_RAISE.raise).testBit m.kind = true then m.cls + 1 else m.cls)
    (escalates : final = if raised < 2 ∧ (d.capture raised).valid = true then raised + 1 else raised) :
    d.faultMsg m = if final = 2 then (d.classed m raised final).enterDeadbolt m.source m.kind false else d.classed m raised final := by
  have kindTest : raised = if (decide (m.cls < 2) && decide (m.kind < 0x20) && decide (d.get Reg.FT_KIND_RAISE.raise / 2 ^ m.kind % 2 = 1)) = true
      then m.cls + 1 else m.cls := by
    simpa [Nat.testBit_eq_decide_div_mod_eq, and_assoc] using byKind
  have heldTest : final = if (decide (raised < 2) && (d.capture raised).valid) = true then raised + 1 else raised := by
    simpa using escalates
  rw [Dev.faultMsg, if_neg (by simp [alive])]
  dsimp only
  rw [← kindTest, ← heldTest]
  rfl

/-! ### The capture records (R418, R432) -/

theorem Dev.setCapture_ft (n : Nat) (c : Capture) : (d.setCapture n c).ft =
    if n = 0 then { d.ft with corrected := c } else if n = 1 then { d.ft with contained := c } else { d.ft with fatal := c } := by
  rw [Dev.setCapture, Dev.put_ft]

theorem Dev.capture_of_ft {d e : Dev} (h : e.ft = d.ft) (n : Nat) : e.capture n = d.capture n := by rw [Dev.capture, Dev.capture, h]

theorem Dev.setCapture_capture {n k : Nat} (c : Capture) (n3 : n < 3) (k3 : k < 3) :
    (d.setCapture n c).capture k = if k = n then c else d.capture k := by
  rw [Dev.capture, Dev.capture, Dev.setCapture_ft]
  interval_cases n <;> interval_cases k <;> rfl

theorem Dev.follow_capture {n k : Nat} (n3 : n < 3) (k3 : k < 3) : (d.follow n).capture k =
    if k = n then { d.capture n with followers := min ((d.capture n).followers + 1) 0xffffffff } else d.capture k :=
  d.setCapture_capture _ n3 k3

/-- The record that a message fills. -/
def Dev.filled (m : FaultMsg) (final : Nat) (escalated privileged : Bool) : Capture :=
  { valid := true, source := m.source, kind := m.kind, cls := final, injected := m.injected, escalated := escalated
    sent := m.cls, privileged := privileged, master := m.master, access := m.access, addr := BitVec.ofNat 48 m.addr
    opt := d.opt, pcc := d.pcc, followers := 0 }

theorem Dev.captureMsg_held {m : FaultMsg} {final : Nat} (held : (d.capture final).valid = true) (escalated p : Bool) :
    d.captureMsg m final escalated p = d.follow final := if_pos held

theorem Dev.captureMsg_free_ft {m : FaultMsg} {final : Nat} (free : (d.capture final).valid = false) (escalated p : Bool) :
    (d.captureMsg m final escalated p).ft = (d.setCapture final (d.filled m final escalated p)).ft := by
  rw [Dev.captureMsg, if_neg (by simp [free])]
  dsimp only
  split
  · exact Dev.raise_ft _ _
  · split
    · exact Dev.raise_ft _ _
    · rfl

theorem Dev.captureMsg_capture_other {m : FaultMsg} {final k : Nat} (final3 : final < 3) (k3 : k < 3) (other : k ≠ final) (escalated p : Bool) :
    (d.captureMsg m final escalated p).capture k = d.capture k := by
  cases held : (d.capture final).valid with
  | true => rw [d.captureMsg_held held, d.follow_capture final3 k3, if_neg other]
  | false => rw [Dev.capture_of_ft (d.captureMsg_free_ft held escalated p), d.setCapture_capture _ final3 k3, if_neg other]

theorem Dev.captureMsg_capture_free {m : FaultMsg} {final : Nat} (final3 : final < 3) (free : (d.capture final).valid = false) (escalated p : Bool) :
    (d.captureMsg m final escalated p).capture final = d.filled m final escalated p := by
  rw [Dev.capture_of_ft (d.captureMsg_free_ft free escalated p), d.setCapture_capture _ final3 final3, if_pos rfl]

/-! ### A message outside Deadbolt leaves PW, the commands and the NAND alone -/

/-- Phase and pins, commands and NAND. -/
def Dev.bystanders (d : Dev) : Pw × List Command × Nand := (d.pw, d.qe.cmds, d.nand)

theorem Dev.bystanders_of_inner {d e : Dev} (inner : e.inner = d.inner) (cmds : e.qe.cmds = d.qe.cmds) : e.bystanders = d.bystanders := by
  obtain ⟨pw, _, _, _, _, _, _, _, _, _, _, _, _, nand⟩ := Dev.inner_eq inner
  rw [Dev.bystanders, Dev.bystanders, pw, cmds, nand]

@[simp] theorem Dev.raise_bystanders (n : Nat) : (d.raise n).bystanders = d.bystanders :=
  Dev.bystanders_of_inner (d.raise_inner n) (by simp)

@[simp] theorem Dev.setCapture_bystanders (n : Nat) (c : Capture) : (d.setCapture n c).bystanders = d.bystanders := by
  rw [Dev.bystanders, Dev.setCapture, Dev.put_pw, Dev.put_qe, Dev.put_nand]
  rfl

@[simp] theorem Dev.follow_bystanders (n : Nat) : (d.follow n).bystanders = d.bystanders := d.setCapture_bystanders n _

@[simp] theorem Dev.countFault_bystanders (n : Nat) : (d.countFault n).bystanders = d.bystanders :=
  Dev.bystanders_of_inner (d.addSat_inner _ _) (by rw [Dev.countFault, Dev.addSat_qe])

theorem Dev.noticeOn_cmds (p code p0 p1 p2 : Nat) : (d.noticeOn p code p0 p1 p2).qe.cmds = d.qe.cmds := by
  unfold Dev.noticeOn
  split
  · rfl
  · split
    · simp
    · split
      · rfl
      · simp

@[simp] theorem Dev.record_bystanders (code src cls : Nat) (r : Bool) (x y z : Nat) : (d.record code src cls r x y z).bystanders = d.bystanders := by
  refine Dev.bystanders_of_inner (d.record_inner code src cls r x y z) ?_
  unfold Dev.record
  dsimp only
  split
  · rw [Dev.notice, Dev.each_keeps (fun e => e.qe.cmds) _ (fun e p => e.noticeOn_cmds p _ _ _ _), Dev.raise_qe]
    exact congrArg (·.cmds) (d.letIn_qe code src cls r x y z)
  · rw [Dev.letIn_qe]

@[simp] theorem Dev.captureMsg_bystanders (m : FaultMsg) (final : Nat) (escalated p : Bool) :
    (d.captureMsg m final escalated p).bystanders = d.bystanders := by
  unfold Dev.captureMsg
  split
  · exact d.follow_bystanders final
  · dsimp only
    split
    · simp
    · split <;> simp

theorem Dev.classed_bystanders (m : FaultMsg) (raised final : Nat) : (d.classed m raised final).bystanders = d.bystanders := by
  have escalation : ∀ b : Bool, (if b = true then (d.follow raised).raise Irq.escalation else d).bystanders = d.bystanders := by
    intro b
    split <;> simp
  rw [Dev.classed, Dev.captureMsg_bystanders, Dev.recordFault, Dev.record_bystanders, Dev.countFault_bystanders]
  exact escalation _

/-! ### What a message leaves in the records -/

theorem Dev.reported_ft (m : FaultMsg) (final : Nat) (escalated : Bool) : ((d.countFault final).recordFault m final escalated).ft = d.ft := by
  rw [Dev.recordFault, Dev.record_ft, Dev.countFault, Dev.addSat_ft]

section
variable {d} (m : FaultMsg) {raised final : Nat}

/-- A message whose record is free. -/
theorem Dev.classed_free (free : (d.capture raised).valid = false) :
    d.classed m raised final = ((d.countFault final).recordFault m final false).captureMsg m final false false := by
  simp [Dev.classed, free]

/-- A message that finds the record of its class held: one more follower there, and it goes to the next class. -/
theorem Dev.classed_held (lt : raised < 2) (held : (d.capture raised).valid = true) :
    d.classed m raised final =
      ((((d.follow raised).raise Irq.escalation).countFault final).recordFault m final true).captureMsg m final true false := by
  simp [Dev.classed, lt, held]

/-- Where the final class's record is free, it holds the message. -/
theorem Dev.classed_fills (lt : final < 2) (escalates : final = if raised < 2 ∧ (d.capture raised).valid = true then raised + 1 else raised)
    (free : (d.capture final).valid = false) :
    ∃ (e : Dev) (escalated : Bool), (d.classed m raised final).capture final = e.filled m final escalated false := by
  by_cases held : raised < 2 ∧ (d.capture raised).valid = true
  · rw [if_pos held] at escalates
    have ft := ((d.follow raised).raise Irq.escalation).reported_ft m final true
    have same := (Dev.capture_of_ft (ft.trans (Dev.raise_ft _ _)) final).trans (d.follow_capture (k := final) (by omega) (by omega))
    rw [if_neg (by omega)] at same
    rw [Dev.classed_held m held.1 held.2]
    exact ⟨_, _, Dev.captureMsg_capture_free _ (by omega) (by rw [same, free]) _ _⟩
  · rw [if_neg held] at escalates
    subst escalates
    rw [Dev.classed_free m free]
    exact ⟨_, _, Dev.captureMsg_capture_free _ (by omega) (by rw [Dev.capture_of_ft (d.reported_ft m _ false), free]) _ _⟩

/-- An escalated message is counted in the record that it found held. -/
theorem Dev.classed_follows (lt : final < 2) (escalates : final = if raised < 2 ∧ (d.capture raised).valid = true then raised + 1 else raised)
    (escalated : raised < final) :
    (d.classed m raised final).capture raised = { d.capture raised with followers := min ((d.capture raised).followers + 1) 0xffffffff } := by
  by_cases held : raised < 2 ∧ (d.capture raised).valid = true
  · have ft := ((d.follow raised).raise Irq.escalation).reported_ft m final true
    rw [Dev.classed_held m held.1 held.2, Dev.captureMsg_capture_other _ (by omega) (by omega) (by omega),
      Dev.capture_of_ft (ft.trans (Dev.raise_ft _ _)), d.follow_capture (by omega) (by omega), if_pos rfl]
  · rw [if_neg held] at escalates
    omega
end

/-! ### The commands (R411, R415, R418, R422 to R424) -/

/-- A message of class fatal ends in Deadbolt and changes nothing else of PW. -/
theorem Dev.faultMsg_fatal_pw {m : FaultMsg} (cls : m.cls = 2) : (d.faultMsg m).pw =
    if d.isDead = true then d.pw else { d.pw with phase := .deadbolt, faultN := true, hasp := none } := by
  cases alive : d.isDead with
  | true =>
    rw [Dev.faultMsg, if_pos alive]
    simp [cls]
  | false =>
    have same : (d.classed m 2 2).pw = d.pw := congrArg (·.1) (d.classed_bystanders m 2 2)
    have still : (d.classed m 2 2).isDead = false := by rw [Dev.isDead, same]; exact alive
    rw [d.faultMsg_alive (raised := 2) (final := 2) alive (by simp [cls]) rfl, if_pos rfl, Dev.enterDeadbolt_pw, still, same]

theorem Dev.faultMsg_fatal_phase {m : FaultMsg} (cls : m.cls = 2) : (d.faultMsg m).pw.phase = .deadbolt := by
  rw [d.faultMsg_fatal_pw cls]
  split
  · next dead => exact eq_of_beq dead
  · rfl

@[simp] theorem Dev.injectAt_pw (src : Nat) : (d.injectAt src).2.pw = d.pw := by
  unfold Dev.injectAt
  split
  · simp [Dev.disarm]
  · rfl
end

theorem exec_faultMessage (msg : BitVec 78) (s : State) : exec (.faultMessage msg) s = execFaultMessage msg s := rfl
theorem exec_privilegedFault (source kind : Nat) (a : BitVec 48) (s : State) :
    exec (.privilegedFault source kind a) s = execPrivilegedFault source kind a s := rfl
theorem exec_ftAck (w : Who) (v : Dword) (s : State) : exec (.ftAck w v) s = execFtAck w v s := rfl
theorem exec_ftInject (w : Who) (v : Dword) (s : State) : exec (.ftInject w v) s = execFtInject w v s := rfl
theorem exec_thermalTrip (n : Nat) (s : State) : exec (.thermalTrip n) s = execThermalTrip n s := rfl

section
variable (d : Dev)

/-- Both ends of a privileged signal: Deadbolt is entered, or was before. -/
theorem Dev.privileged_ends (m : FaultMsg) :
    (d.privileged m).pw.phase = .deadbolt ∧ (d.isDead = false → (d.privileged m).pw.faultN = true) := by
  cases alive : d.isDead with
  | true =>
    refine ⟨?_, fun h => nomatch h⟩
    rw [Dev.privileged, if_pos alive]
    split <;> simpa using eq_of_beq alive
  | false => exact ⟨(Dev.privileged_deadbolt alive m).1, fun _ => (Dev.privileged_deadbolt alive m).2⟩

/-- An acknowledged record is free; the others are as they were. -/
theorem Dev.ackCapture_ft {n : Nat} (lt : n < 2) : (d.ackCapture n).ft =
    if (d.capture n).valid = true then (if n = 0 then { d.ft with corrected := {} } else { d.ft with contained := {} }) else d.ft := by
  unfold Dev.ackCapture
  split
  · rw [Dev.setCapture_ft]
    interval_cases n <;> rfl
  · rfl

theorem Dev.ackCapture_corrected : (d.ackCapture 0).ft.corrected.valid = false ∧ (d.ackCapture 0).ft.contained = d.ft.contained ∧
    (d.ackCapture 0).ft.fatal = d.ft.fatal := by
  rw [d.ackCapture_ft (by decide)]
  split
  · exact ⟨rfl, rfl, rfl⟩
  · next free => exact ⟨Bool.eq_false_iff.mpr free, rfl, rfl⟩

theorem Dev.ackCapture_contained : (d.ackCapture 1).ft.contained.valid = false ∧ (d.ackCapture 1).ft.corrected = d.ft.corrected ∧
    (d.ackCapture 1).ft.fatal = d.ft.fatal := by
  rw [d.ackCapture_ft (by decide)]
  split
  · exact ⟨rfl, rfl, rfl⟩
  · next free => exact ⟨Bool.eq_false_iff.mpr free, rfl, rfl⟩

/-- What a write of FT_ACK frees. -/
def Dev.acked (v : Dword) : Dev :=
  let d := if v.getLsbD 0 then d.ackCapture 0 else d
  if v.getLsbD 1 then d.ackCapture 1 else d

theorem Dev.acked_ft (v : Dword) : (d.acked v).ft.fatal = d.ft.fatal ∧ (v.getLsbD 0 = true → (d.acked v).ft.corrected.valid = false) ∧
    (v.getLsbD 1 = true → (d.acked v).ft.contained.valid = false) ∧ (v.getLsbD 0 = false → (d.acked v).ft.corrected = d.ft.corrected) ∧
    (v.getLsbD 1 = false → (d.acked v).ft.contained = d.ft.contained) := by
  obtain ⟨freed, contained, fatal⟩ := d.ackCapture_corrected
  unfold Dev.acked
  generalize v.getLsbD 0 = first, v.getLsbD 1 = second
  cases first <;> cases second <;> simp [freed, contained, fatal, Dev.ackCapture_contained]

/-- What a write of FT_INJECT leaves while no control is armed. -/
def Dev.injectArmed (v : Dword) : Dev :=
  let d := if Src.listed (fld v 0 10) then d.put Reg.FT_INJECT.source (fld v 0 10) else d
  (d.flag Reg.FT_INJECT.arm (v.getLsbD 31)).flag Reg.FT_STATUS.armed (v.getLsbD 31)

theorem Dev.injectArmed_source (v : Dword) : (d.injectArmed v).get Reg.FT_INJECT.source =
    if Src.listed (fld v 0 10) = true then fld v 0 10 else d.get Reg.FT_INJECT.source := by
  have lt : fld v 0 10 < 2 ^ 10 := Nat.mod_lt _ (by decide)
  rw [Dev.injectArmed, Dev.flag, Dev.get_put_other _ _ _ _ (by decide), Dev.flag, Dev.get_put_apart _ _ _ _ (by decide) (by decide)]
  split
  · rw [Dev.get_put_same _ _ _ (by decide)]
    exact Nat.mod_eq_of_lt lt
  · rfl

theorem Dev.injectArmed_arms (v : Dword) :
    (d.injectArmed v).bit Reg.FT_INJECT.arm = v.getLsbD 31 ∧ (d.injectArmed v).bit Reg.FT_STATUS.armed = v.getLsbD 31 := by
  refine ⟨?_, Dev.bit_flag_same _ _ rfl (by decide)⟩
  rw [Dev.injectArmed, Dev.bit, Dev.flag, Dev.get_put_other _ _ _ _ (by decide)]
  exact Dev.bit_flag_same _ _ rfl (by decide)

/-- A bus answer is an output. -/
theorem Dev.served_regs (w : Who) (v : Nat) : (d.served w v).regs = d.regs := rfl

theorem Dev.served_ft (w : Who) (v : Nat) : (d.served w v).ft = d.ft := rfl

theorem Dev.served_pw (w : Who) (v : Nat) : (d.served w v).pw = d.pw := rfl

theorem Dev.injectArmed_inner (v : Dword) : (d.injectArmed v).inner = d.inner := by
  rw [Dev.injectArmed, Dev.flag_inner, Dev.flag_inner]
  split
  · exact d.put_inner _ _
  · rfl
end

/-! ### Injected fatal errors (R389, R424, R425) -/

theorem Dev.commandPacket_armed {d : Dev} {p q : Nat} {u : Queue} (pkt : Packet) (room : (d.cmdsOf p q).length < u.depth)
    (armed : d.armedFor Src.qeTags = true) : d.commandPacket p q u pkt = d.unitLine Src.qeTags 2 0x30 := by
  rw [Dev.commandPacket, if_neg (by omega), if_pos armed]

/-- A packet that meets the tag array's armed control. -/
theorem Dev.ingress_armed {d : Dev} {p q off len : Nat} {be poisoned : Bool} {pkt : Packet} {u : Queue} (found : d.queue p q = some u)
    (kept : u.state ≠ .deleting) (op : Pkt.opcode pkt ≠ 0) (up : (d.port p).state ≠ .booting) (alive : (d.port p).state ≠ .deadbolt)
    (open_ : d.qe.haspDrop = false) (running : d.qe.dead = false) (proper : packetFault off len be poisoned u.pcheck pkt = none)
    (room : (d.cmdsOf p q).length < u.depth) (armed : d.armedFor Src.qeTags = true) :
    d.ingress p q off len be poisoned pkt = d.unitLine Src.qeTags 2 0x30 := by
  have clean : poisoned = false := by
    cases poisoned with
    | false => rfl
    | true => simp [packetFault] at proper
  subst clean
  simp [Dev.ingress, found, up, alive, open_, proper, op, kept, running, Dev.commandPacket_armed pkt room armed]

theorem Dev.unitLine_fatal (d : Dev) (src master : Nat) : (d.unitLine src 2 master).pw.phase = .deadbolt :=
  Dev.faultMsg_fatal_phase _ rfl

/-- A comparator that trips. -/
def Dev.tripped (d : Dev) (n : Nat) : Dev :=
  let i := d.injectAt (Src.sensor n)
  let d := i.2.modPw (fun w => { w with thermTrip := true })
  if d.logicOn then d.faultMsg { source := Src.sensor n, kind := Kind.thermalTrip, cls := 2, addr := n, access := 11, injected := i.1 }
  else d.enterDeadbolt (Src.sensor n) Kind.thermalTrip false

theorem Dev.tripped_pw (d : Dev) (n : Nat) : (d.tripped n).pw.phase = .deadbolt ∧ (d.tripped n).pw.thermTrip = true := by
  have entered : (d.tripped n).pw = if d.isDead = true then { d.pw with thermTrip := true }
      else { d.pw with thermTrip := true, phase := .deadbolt, faultN := true, hasp := none } := by
    have same : ((d.injectAt (Src.sensor n)).2.modPw (fun w => { w with thermTrip := true })).pw = { d.pw with thermTrip := true } := by simp
    have still : ((d.injectAt (Src.sensor n)).2.modPw (fun w => { w with thermTrip := true })).isDead = d.isDead := by
      rw [Dev.isDead, same, Dev.isDead]
    unfold Dev.tripped
    dsimp only
    split
    · rw [Dev.faultMsg_fatal_pw _ rfl, still, same]
    · rw [Dev.enterDeadbolt_pw, still, same]
  rw [entered]
  split
  · next dead => exact ⟨eq_of_beq dead, rfl⟩
  · exact ⟨rfl, rfl⟩

theorem thermalTrip_gives {s : State} {n : Nat} (runs : s.dev.sensorsRun = true) (lt : n < 24) (cool : s.dev.pw.thermTrip = false)
    (trips : s.dev.armedFor (Src.sensor n) = true ∨ s.dev.bit (Reg.TS_TEMP.valid.at (4 * n)) = true ∧ 2000 ≤ s.dev.reading n) :
    Gives (.thermalTrip n) s (s.dev.tripped n) :=
  .of_act (exec_thermalTrip n s) (by simpa [runs, lt, cool] using trips)

/-! ### The statements -/

/-- Settles O48: each clause is its command's effect; acknowledging and arming are read off what they leave in FT. -/
theorem faultCommandsComplete : Obligations.FaultCommandsComplete := by
  refine ⟨?message, ?privileged, ?acknowledge, ?inject⟩
  case message =>
    intro s msg on listed known ordinary ok
    exact .of_act (exec_faultMessage msg s) (by simp [on, listed, known, ordinary, ok])
  case privileged =>
    intro s src kind a powered running listed kindOk
    refine ⟨_, .of_act (exec_privilegedFault src kind a s) (by simp [powered, running, listed, kindOk]), ?_⟩
    have same : (s.dev.injectAt src).2.isDead = s.dev.isDead := by rw [Dev.isDead, Dev.injectAt_pw, Dev.isDead]
    rw [← same]
    exact Dev.privileged_ends _ _
  case acknowledge =>
    intro s w v writes core
    exact ⟨_, .of_act (exec_ftAck w v s) (by simp [writes, core]), s.dev.acked_ft v⟩
  case inject =>
    intro s v writes unarmed
    refine ⟨(s.dev.injectArmed v).served .warden 0, ?_, ?_⟩
    · rw [Gives, exec_ftInject, execFtInject, act_true (by simp [writes, isCore])]
      simp [unarmed, Dev.injectArmed]
    · obtain ⟨pw, _, _, _, _, _, _, _, _, _, _, ft, _, _⟩ := Dev.inner_eq (s.dev.injectArmed_inner v)
      have read := Dev.get_eq_of_regs ((s.dev.injectArmed v).served_regs .warden 0)
      rw [Dev.bit, Dev.bit, read, read, read, Dev.served_ft, Dev.served_pw]
      exact ⟨s.dev.injectArmed_source v, (s.dev.injectArmed_arms v).1, (s.dev.injectArmed_arms v).2, ft, pw⟩

/-- Settles O49: outside Deadbolt a message is classed, and Deadbolt follows where the final class is fatal. -/
theorem faultClasses : Obligations.FaultClasses := by
  intro d m raised final alive _ byKind escalates
  have classes := d.faultMsg_alive alive byKind escalates
  have kept := d.classed_bystanders m raised final
  refine ⟨?fatal, ?leaves, ?captured, ?followed⟩
  case fatal =>
    rintro rfl
    have pw : (d.classed m raised 2).pw = d.pw := congrArg (·.1) kept
    have still : (d.classed m raised 2).isDead = false := by rw [Dev.isDead, pw]; exact alive
    rw [classes, if_pos rfl]
    exact ⟨Dev.enterDeadbolt_phase _ _ _ _, Dev.enterDeadbolt_faultN still _ _ _⟩
  case leaves =>
    intro lt
    rw [classes, if_neg (by omega)]
    exact ⟨congrArg (·.1) kept, congrArg (·.2.1) kept, congrArg (·.2.2) kept⟩
  case captured =>
    intro lt free
    rw [classes, if_neg (by omega)]
    obtain ⟨e, escalated, fills⟩ := Dev.classed_fills m lt escalates free
    rw [fills]
    exact ⟨rfl, rfl, rfl, rfl, rfl, rfl⟩
  case followed =>
    intro lt escalated below
    rw [classes, if_neg (by omega), Dev.classed_follows m lt escalates escalated]
    exact Nat.min_eq_left below

/-- Settles O50: at each of the three checks the armed control makes a message of class fatal. -/
theorem injectedFatalErrors : Obligations.InjectedFatalErrors := by
  refine ⟨?tags, ?watchdog, ?sensor⟩
  case tags =>
    intro s p q off len be poisoned pkt u mem lt found kept op up alive open_ running proper room armed
    refine ⟨_, ingressPacket_gives off len be poisoned pkt mem lt, ?_⟩
    rw [Dev.ingress_armed found kept op up alive open_ running proper room armed]
    exact Dev.unitLine_fatal _ _ _
  case watchdog =>
    intro s awake armed
    exact ⟨_, .of_act (exec_wardenWatchdogExpiry s) (by simp [awake, armed]), Dev.faultMsg_fatal_phase _ rfl⟩
  case sensor =>
    intro s n runs lt cool armed
    exact ⟨_, thermalTrip_gives runs lt cool (.inl armed), s.dev.tripped_pw n⟩

end Sys2Proof.Machine
end

section
/-! SUPPORT. On-chip memory commands. -/

namespace Sys2Proof

/-- Entries kept or dropped by their index alone. -/
theorem Tbl.find_filter_index {α : Type} (t : Tbl α) (keep : Nat → Bool) (k : Nat) :
    Tbl.find (t.filter (fun e => keep e.1)) k = if keep k = true then Tbl.find t k else none := by
  induction t with
  | nil => simp
  | cons e r ih =>
    obtain ⟨i, v⟩ := e
    rw [List.filter_cons]
    by_cases same : i = k
    · subst same
      cases kept : keep i
      · simpa [kept] using ih
      · simp [Tbl.find_cons]
    · cases kept : keep i
      · simpa [Tbl.find_cons, same] using ih
      · simpa [Tbl.find_cons, same] using ih

end Sys2Proof

namespace Sys2Proof.Machine

/-! ### Lines of words -/

/-- Words of 32 bits, the first lowest. -/
def packed (l : List Nat) : Nat := l.foldr (fun w x => w + 2 ^ 32 * x) 0

theorem packed_lt {l : List Nat} (words : ∀ w ∈ l, w < 2 ^ 32) : packed l < 2 ^ (32 * l.length) := by
  induction l with
  | nil => exact Nat.one_pos
  | cons w l ih =>
    have rest := ih (fun v mem => words v (List.mem_cons_of_mem w mem))
    have first := words w List.mem_cons_self
    have wide : 2 ^ (32 * (w :: l).length) = 2 ^ 32 * 2 ^ (32 * l.length) := by rw [List.length_cons, ← pow_add]; congr 1; omega
    rw [wide]
    exact calc w + 2 ^ 32 * packed l < 2 ^ 32 * (packed l + 1) := by omega
      _ ≤ 2 ^ 32 * 2 ^ (32 * l.length) := Nat.mul_le_mul_left _ rest

theorem bitsOf_packed {l : List Nat} (words : ∀ w ∈ l, w < 2 ^ 32) {k w : Nat} (at_ : l[k]? = some w) : bitsOf (packed l) (32 * k) 32 = w := by
  induction l generalizing k with
  | nil => simp at at_
  | cons v l ih =>
    have first := words v List.mem_cons_self
    cases k with
    | zero =>
      obtain rfl : v = w := by simpa using at_
      rw [bitsOf_eq_div_mod, packed, List.foldr_cons, Nat.mul_zero, pow_zero, Nat.div_one, Nat.add_mul_mod_self_left,
        Nat.mod_eq_of_lt first]
    | succ k =>
      rw [← ih (fun v mem => words v (List.mem_cons_of_mem _ mem)) (k := k) (by simpa using at_), bitsOf_eq_div_mod, bitsOf_eq_div_mod, Nat.mul_succ,
        Nat.add_comm (32 * k), pow_add, ← Nat.div_div_eq_div_mul, packed, List.foldr_cons, Nat.add_mul_div_left _ _ (by positivity), Nat.div_eq_of_lt first,
        Nat.zero_add]
      rfl

/-- A word of a line that is made of words. -/
theorem fld_packed {n : Nat} {l : List Nat} (words : ∀ w ∈ l, w < 2 ^ 32) (fits : 32 * l.length ≤ n) {k w : Nat} (at_ : l[k]? = some w) :
    fld (BitVec.ofNat n (packed l)) (32 * k) 32 = w := by
  rw [fld, BitVec.toNat_ofNat, Nat.mod_eq_of_lt ((packed_lt words).trans_le (Nat.pow_le_pow_right (by decide) fits)), bitsOf_packed words at_]

/-! ### The commands -/

theorem exec_spClear (v : Dword) (s : State) : exec (.spClear v) s = execSpClear v s := rfl
theorem exec_march (v : Dword) (s : State) : exec (.march v) s = execMarch v s := rfl
theorem exec_marchDone (k : Option Nat) (s : State) : exec (.marchDone k) s = execMarchDone k s := rfl
theorem exec_rawWrite (s : State) : exec .rawWrite s = execRawWrite s := rfl
theorem exec_rawReadTest (s : State) : exec .rawReadTest s = execRawReadTest s := rfl
theorem exec_trngDataRead (s : State) : exec .trngDataRead s = execTrngDataRead s := rfl

section
variable (d : Dev)

/-- The address map depends on the DRAM's size alone. -/
theorem Dev.region_put {f : Fld} (v a : Nat) (h : Reg.DC_TOPOLOGY.size_gib.addr ≠ f.addr) : (d.put f v).region a = d.region a := by
  have size : (d.put f v).dramSize = d.dramSize := congrArg (· * 2 ^ 30) (Dev.get_put_other _ _ _ _ h)
  unfold Dev.region
  rw [size]

theorem Dev.endReservations_mem (hit : Nat → Bool) : (d.endReservations hit).mem = d.mem := rfl

theorem Dev.endReservations_regs (hit : Nat → Bool) : (d.endReservations hit).regs = d.regs := rfl

/-- Which lines SP_CLEAR takes. -/
def Dev.clears (first n k : Nat) : Bool := first ≤ k && k < first + n && d.region (k * 64) == d.region (first * 64)

theorem Dev.clearSpLines_find (first n k : Nat) :
    (d.clearSpLines first n).mem.lines.find k = if d.clears first n k = true then none else d.mem.lines.find k := by
  have kept := Tbl.find_filter_index d.mem.lines (fun k => !d.clears first n k) k
  rw [Dev.clearSpLines, Dev.endReservations_mem]
  refine kept.trans ?_
  cases d.clears first n k <;> rfl

theorem Dev.clears_iff (first n k : Nat) :
    d.clears first n k = true ↔ (first ≤ k ∧ k < first + n) ∧ d.region (k * 64) = d.region (first * 64) := by
  simp [Dev.clears]


/-- SP_CLEAR of a legal number of lines. -/
theorem spClear_gives {s : State} {v : Dword} (writes : s.dev.wardenWrites = true) (go : v.getLsbD 31 = true) (one : 1 ≤ fld v 0 19)
    (most : fld v 0 19 ≤ 262144) (chip : (s.dev.region (s.dev.get Reg.SP_CLEAR_BASE.line * 64)).onChip = true) :
    Gives (.spClear v) s ((s.dev.put Reg.SP_CLEAR_CMD.lines (fld v 0 19)).clearSpLines (s.dev.get Reg.SP_CLEAR_BASE.line) (fld v 0 19)) := by
  have base : (s.dev.put Reg.SP_CLEAR_CMD.lines (fld v 0 19)).get Reg.SP_CLEAR_BASE.line = s.dev.get Reg.SP_CLEAR_BASE.line :=
    Dev.get_put_other _ _ _ _ (by decide)
  have lines : (s.dev.put Reg.SP_CLEAR_CMD.lines (fld v 0 19)).get Reg.SP_CLEAR_CMD.lines = fld v 0 19 := by
    rw [Dev.get_put_same _ _ _ (by decide)]
    exact Nat.mod_eq_of_lt (most.trans_lt (by decide))
  have legal : (decide (1 ≤ fld v 0 19) && decide (fld v 0 19 ≤ 262144)) = true := by simp [one, most]
  rw [Gives, exec_spClear, execSpClear, act_true writes]
  dsimp only
  rw [if_pos legal, base, lines, Dev.region_put _ _ _ (by decide), go, chip, Bool.and_self, if_pos rfl]

/-- MARCH of a legal region while no march runs. -/
def Dev.marching (v : Dword) : Dev :=
  (((((d.put Reg.SP_MARCH_CMD.region (fld v 0 8)).flag Reg.SP_MARCH_CMD.preserving (v.getLsbD 8)).modMem
    (fun m => { m with march := some (fld v 0 8, v.getLsbD 8) })).put Reg.SP_STATUS.march_busy 1).put Reg.SP_MARCH_STATUS.region (fld v 0 8)).put
    Reg.SP_MARCH_STATUS.tested 0

theorem march_gives {s : State} {v : Dword} (writes : s.dev.wardenWrites = true) (go : v.getLsbD 31 = true) (idle : s.dev.mem.march = none)
    (legal : fld v 0 8 ≤ 81) (allowed : fld v 0 8 ≠ 81 ∨ v.getLsbD 8 = true) : Gives (.march v) s (s.dev.marching v) := by
  have region : ((s.dev.put Reg.SP_MARCH_CMD.region (fld v 0 8)).flag Reg.SP_MARCH_CMD.preserving (v.getLsbD 8)).get Reg.SP_MARCH_CMD.region =
      fld v 0 8 := by
    rw [Dev.flag, Dev.get_put_apart _ _ _ _ (by decide) (by decide), Dev.get_put_same _ _ _ (by decide)]
    exact Nat.mod_eq_of_lt (legal.trans_lt (by decide))
  have starts : (v.getLsbD 31 && s.dev.mem.march.isNone && (fld v 0 8 != 81 || v.getLsbD 8)) = true := by
    rw [go, idle]
    simpa using allowed
  rw [Gives, exec_march, execMarch, act_true writes]
  dsimp only
  rw [if_pos legal, region, Dev.flag_mem, Dev.put_mem, if_pos starts, Dev.marching]

theorem Dev.marching_busy (v : Dword) : (d.marching v).bit Reg.SP_STATUS.march_busy = true := by
  refine Dev.bit_of_get ?_
  rw [Dev.marching, Dev.get_put_other _ _ _ _ (by decide), Dev.get_put_other _ _ _ _ (by decide)]
  exact Dev.get_put_same _ _ _ (by decide)

theorem Dev.marching_mem (v : Dword) : (d.marching v).mem = { d.mem with march := some (fld v 0 8, v.getLsbD 8) } := by
  simp [Dev.marching, Dev.modMem]

/-- The end of a march that found a failing line. -/
theorem Dev.marchEnded_fails (r k : Nat) (preserving : Bool) : (d.marchEnded r preserving (some k)).pw.phase = .deadbolt :=
  Dev.faultMsg_fatal_phase _ rfl

theorem marchDone_gives {s : State} {r : Nat} {p : Bool} {failLine : Option Nat} (writes : s.dev.wardenWrites = true)
    (runs : s.dev.mem.march = some (r, p)) (within : failLine.all (fun k => k < (marchRegion r).2) = true) :
    Gives (.marchDone failLine) s (s.dev.marchEnded r p failLine) := by
  rw [Gives, exec_marchDone, execMarchDone, actOn_some (by rw [writes, if_pos rfl, runs]), if_pos within]

/-- The words of the test registers. -/
def Dev.testWords : List Nat := (List.range 16).map (fun k => d.get (Reg.SP_TEST_DATA.data.at (4 * k)))

theorem Dev.testWords_lt : ∀ w ∈ d.testWords, w < 2 ^ 32 := by
  intro w mem
  obtain ⟨k, -, rfl⟩ := List.mem_map.mp mem
  exact d.get_lt _

/-- The line that RAW_WRITE stores. -/
def Dev.testContent : MemLine :=
  { data := BitVec.ofNat 512 (packed d.testWords), crc := BitVec.ofNat 32 (d.get Reg.SP_TEST_CRC.crc) }

theorem Dev.testContent_words {k : Nat} (lt : k < 16) : fld d.testContent.data (32 * k) 32 = d.get (Reg.SP_TEST_DATA.data.at (4 * k)) :=
  fld_packed d.testWords_lt (by simp [Dev.testWords]) (by simp [Dev.testWords, lt])

theorem rawWrite_gives {s : State} {a : Nat} (writes : s.dev.wardenWrites = true) (line : s.dev.testLine = some a) :
    Gives .rawWrite s ((s.dev.put Reg.SP_TEST_CMD.op 0).putChip a (some s.dev.testContent)) := by
  rw [Gives, exec_rawWrite, execRawWrite, actOn_some (by rw [writes, if_pos rfl, line]), Dev.testContent, Dev.testWords, packed, List.foldr_map]

theorem Dev.chip_putChip (a : Nat) (l : MemLine) : (d.putChip a (some l)).chip a = some l := by
  rw [Dev.chip, Dev.putChip, Dev.endReservations_mem]
  exact Tbl.find_put_same _ _ _

/-- Registers written one after the other, each with its value. -/
theorem Dev.get_each_put (f : Fld) (v : Nat → Nat) (fits : f.lsb + f.width ≤ 64) {n k : Nat} (lt : k < n) :
    (d.each (List.range n) (fun d k => d.put (f.at (4 * k)) (v k))).get (f.at (4 * k)) = v k % 2 ^ f.width := by
  induction n with
  | zero => omega
  | succ n ih =>
    rw [List.range_succ, Dev.each_append, Dev.each_cons, Dev.each_nil]
    by_cases last : k = n
    · subst last
      exact Dev.get_put_same _ _ _ fits
    · rw [Dev.get_put_other _ _ _ _ (by simp only [Fld.at]; omega)]
      exact ih (by omega)

/-- A raw read of a line that holds its valid bit. -/
theorem Dev.rawReadLine_reads {a : Nat} {l : MemLine} (there : d.chip a = some l) :
    (d.rawReadLine a).get Reg.SP_TEST_CRC.crc = l.crc.toNat ∧ (d.rawReadLine a).mem = d.mem ∧
    ∀ k, k < 16 → (d.rawReadLine a).get (Reg.SP_TEST_DATA.data.at (4 * k)) = fld l.data (32 * k) 32 := by
  have reads : d.rawReadLine a = ((d.each (List.range 16) (fun d k => d.put (Reg.SP_TEST_DATA.data.at (4 * k)) (bitsOf l.data.toNat (32 * k) 32))).put
      Reg.SP_TEST_CMD.op 1).put Reg.SP_TEST_CRC.crc l.crc.toNat := by
    simp only [Dev.rawReadLine, there, Option.isSome_some, if_true, Option.map_some, Option.getD_some]
  rw [reads]
  refine ⟨?_, ?_, fun k lt => ?_⟩
  · rw [Dev.get_put_same _ _ _ (by decide)]
    exact Nat.mod_eq_of_lt l.crc.isLt
  · rw [Dev.put_mem, Dev.put_mem]
    exact Dev.each_keeps Dev.mem (fun e k => e.put _ _) (fun e k => e.put_mem _ _) _ _
  · have crc : (Reg.SP_TEST_DATA.data.at (4 * k)).addr ≠ Reg.SP_TEST_CRC.crc.addr := by
      simp only [Fld.at, Reg.SP_TEST_DATA.data, Reg.SP_TEST_CRC.crc]; omega
    have cmd : (Reg.SP_TEST_DATA.data.at (4 * k)).addr ≠ Reg.SP_TEST_CMD.op.addr := by
      simp only [Fld.at, Reg.SP_TEST_DATA.data, Reg.SP_TEST_CMD.op]; omega
    rw [Dev.get_put_other _ _ _ _ crc, Dev.get_put_other _ _ _ _ cmd, Dev.get_each_put _ _ _ (by decide) lt]
    exact Nat.mod_eq_of_lt (bitsOf_lt _ _ _)

end

/-- Settles O54: a line is taken by its index and its memory alone, the march's registers are read back, and the words of a line are the test
registers'. -/
theorem onChipCommandsComplete : Obligations.OnChipCommandsComplete := by
  refine ⟨?clear, ?march, ?marchDone, ?rawWrite, ?rawRead, ?trng⟩
  case clear =>
    intro s v writes go one most chip
    set first := s.dev.get Reg.SP_CLEAR_BASE.line with first_eq
    have found (k : Nat) := (s.dev.put Reg.SP_CLEAR_CMD.lines (fld v 0 19)).clearSpLines_find first (fld v 0 19) k
    have taken (k : Nat) : (s.dev.put Reg.SP_CLEAR_CMD.lines (fld v 0 19)).clears first (fld v 0 19) k = s.dev.clears first (fld v 0 19) k := by
      simp only [Dev.clears, Dev.region_put _ _ _ (f := Reg.SP_CLEAR_CMD.lines) (by decide)]
    refine ⟨_, spClear_gives writes go one most chip, fun k above below same => ?_, fun k out => ?_⟩
    · rw [← first_eq, found, taken, if_pos ((s.dev.clears_iff _ _ _).mpr ⟨⟨above, below⟩, same⟩)]
    · have spared : ¬ s.dev.clears first (fld v 0 19) k = true := by
        rw [Dev.clears_iff]
        rintro ⟨⟨above, below⟩, same⟩
        rcases out with low | high | other
        · omega
        · omega
        · exact other same
      rw [← first_eq, found, taken, if_neg spared, Dev.put_mem]
  case march =>
    intro s v writes go idle legal allowed
    have mem := s.dev.marching_mem v
    exact ⟨_, march_gives writes go idle legal allowed, by rw [mem], by rw [mem], s.dev.marching_busy v⟩
  case marchDone =>
    intro s r p writes runs
    refine ⟨marchDone_gives writes runs rfl, fun k lt => ⟨_, marchDone_gives writes runs (by simpa using lt), ?_, rfl⟩⟩
    exact Dev.marchEnded_fails _ _ _ _
  case rawWrite =>
    intro s a writes line
    exact ⟨_, rawWrite_gives writes line, s.dev.testContent, Dev.chip_putChip _ _ _, Nat.mod_eq_of_lt (s.dev.get_lt _), rfl,
      fun k lt => s.dev.testContent_words lt⟩
  case rawRead =>
    intro s a l writes line there
    exact ⟨_, .of_actOn (exec_rawReadTest s) (by rw [writes, if_pos rfl, line]), s.dev.rawReadLine_reads there⟩
  case trng =>
    intro s writes
    refine ⟨fun seeded => ?_, fun unseeded => ?_⟩
    · rw [Gives, exec_trngDataRead, execTrngDataRead, act_true writes, if_pos seeded, Dev.trngRead]
    · rw [Gives, exec_trngDataRead, execTrngDataRead, act_true writes, if_neg (by simp [unseeded])]

end Sys2Proof.Machine
end

section
/-! SUPPORT. DRAM and temperature (O55). -/

namespace Sys2Proof.Machine

theorem exec_dcTestMask (v : Dword) (s : State) : exec (.dcTestMask v) s = execDcTestMask v s := rfl
theorem exec_patrolScrub (s : State) : exec .patrolScrub s = execPatrolScrub s := rfl
theorem exec_dramTemperaturePoll (ch : Nat) (hot : Bool) (s : State) :
    exec (.dramTemperaturePoll ch hot) s = execDramTemperaturePoll ch hot s := rfl
theorem exec_temperatureUpdate (i : Nat) (t : BitVec 16) (s : State) : exec (.temperatureUpdate i t) s = execTemperatureUpdate i t s := rfl
theorem exec_temperatureBin (s : State) : exec .temperatureBin s = execTemperatureBin s := rfl
theorem exec_tcMonitorUpdate (s : State) : exec .tcMonitorUpdate s = execTcMonitorUpdate s := rfl

section
variable (d : Dev)

/-! ### The test mask (R397) and the refresh rate of a channel (R402) -/

/-- The test mask as a write sets it. -/
def Dev.masked (v : Dword) : Dev := (d.put Reg.DC_TEST_MASK.mask (fld v 0 16)).flag Reg.DC_TEST_MASK.armed (v.getLsbD 31)

theorem Dev.masked_mask (v : Dword) : (d.masked v).get Reg.DC_TEST_MASK.mask = fld v 0 16 := by
  rw [Dev.masked, Dev.flag, Dev.get_put_apart _ _ _ _ (by decide) (by decide), Dev.get_put_same _ _ _ (by decide)]
  exact Nat.mod_eq_of_lt (bitsOf_lt _ _ _)

theorem Dev.masked_armed (v : Dword) : (d.masked v).bit Reg.DC_TEST_MASK.armed = v.getLsbD 31 := Dev.bit_flag_same _ _ rfl (by decide)

theorem Dev.masked_mem (v : Dword) : (d.masked v).mem = d.mem := by rw [Dev.masked, Dev.flag_mem, Dev.put_mem]

theorem dcTestMask_gives {s : State} (v : Dword) (writes : s.dev.wardenWrites = true) : Gives (.dcTestMask v) s (s.dev.masked v) :=
  .of_act (exec_dcTestMask v s) writes

/-- The channels whose refresh rate is doubled, after a poll of one. -/
def polled (l : List Nat) (ch : Nat) (hot : Bool) : List Nat :=
  if hot then l.filter (fun c => c != ch) ++ [ch] else l.filter (fun c => c != ch)

theorem mem_polled_same (l : List Nat) (ch : Nat) (hot : Bool) : ch ∈ polled l ch hot ↔ hot = true := by
  cases hot <;> simp [polled]

theorem mem_polled_other (l : List Nat) {ch k : Nat} (hot : Bool) (other : k ≠ ch) : k ∈ polled l ch hot ↔ k ∈ l := by
  cases hot <;> simp [polled, other]

theorem dramTemperaturePoll_gives {s : State} {ch : Nat} (hot : Bool) (writes : s.dev.wardenWrites = true)
    (trained : s.dev.get Reg.DC_STATUS.state = 2) (lt : ch < 6) :
    Gives (.dramTemperaturePoll ch hot) s (s.dev.modMem (fun m => { m with hotChannels := polled m.hotChannels ch hot })) :=
  .of_act (exec_dramTemperaturePoll ch hot s) (by simp [writes, trained, lt])

/-! ### A sensor's reading (R426) -/

/-- The reading enters the sensor's register and the maximum's. -/
def Dev.measured (i : Nat) (t : BitVec 16) : Dev :=
  let d := (d.put (Reg.TS_TEMP.temp.at (4 * i)) t.toNat).put (Reg.TS_TEMP.valid.at (4 * i)) 1
  (d.put Reg.TS_MAX.sensor d.hottestSensor).put Reg.TS_MAX.temp (d.get (Reg.TS_TEMP.temp.at (4 * d.hottestSensor)))

/-- The fields of the sensors' registers. -/
def OfSensor (f : Fld) : Prop := f.addr = 0x213000100

theorem OfSensor.temp : OfSensor Reg.TS_TEMP.temp := rfl
theorem OfSensor.valid : OfSensor Reg.TS_TEMP.valid := rfl
theorem OfSensor.warned : OfSensor Reg.TS_TEMP.warned := rfl

theorem OfSensor.addr {f : Fld} (h : OfSensor f) (k : Nat) : (f.at (4 * k)).addr = 0x213000100 + 4 * k := congrArg (· + 4 * k) h

theorem Dev.get_put_sensor_other {f g : Fld} (hf : OfSensor f) (hg : OfSensor g) {i k : Nat} (v : Nat) (other : k ≠ i) :
    (d.put (g.at (4 * i)) v).get (f.at (4 * k)) = d.get (f.at (4 * k)) :=
  Dev.get_put_other _ _ _ _ (by rw [hf.addr, hg.addr]; omega)

theorem Dev.measured_inner (i : Nat) (t : BitVec 16) : (d.measured i t).inner = d.inner := by
  rw [Dev.measured, Dev.put_inner, Dev.put_inner, Dev.put_inner, Dev.put_inner]

theorem Dev.measured_get {f : Fld} (i k : Nat) (t : BitVec 16) (h : OfSensor f) : (d.measured i t).get (f.at (4 * k)) =
    ((d.put (Reg.TS_TEMP.temp.at (4 * i)) t.toNat).put (Reg.TS_TEMP.valid.at (4 * i)) 1).get (f.at (4 * k)) := by
  have temp : (f.at (4 * k)).addr ≠ Reg.TS_MAX.temp.addr := by
    simp only [h.addr, Reg.TS_MAX.temp]; omega
  have sensor : (f.at (4 * k)).addr ≠ Reg.TS_MAX.sensor.addr := temp
  rw [Dev.measured, Dev.get_put_other _ _ _ _ temp, Dev.get_put_other _ _ _ _ sensor]

theorem Dev.measured_temp (i : Nat) (t : BitVec 16) : (d.measured i t).get (Reg.TS_TEMP.temp.at (4 * i)) = t.toNat := by
  rw [Dev.measured_get _ _ _ _ .temp, Dev.get_put_apart _ _ _ _ (show 31 + 1 ≤ 64 by decide) (.inr (show 0 + 16 ≤ 31 by decide)),
    Dev.get_put_same _ _ _ (show 0 + 16 ≤ 64 by decide)]
  exact Nat.mod_eq_of_lt t.isLt

theorem Dev.measured_valid (i : Nat) (t : BitVec 16) : (d.measured i t).get (Reg.TS_TEMP.valid.at (4 * i)) = 1 := by
  rw [Dev.measured_get _ _ _ _ .valid]
  exact Dev.get_put_same _ _ _ (show 31 + 1 ≤ 64 by decide)

theorem Dev.measured_other {i k : Nat} (t : BitVec 16) (other : k ≠ i) :
    (d.measured i t).get (Reg.TS_TEMP.temp.at (4 * k)) = d.get (Reg.TS_TEMP.temp.at (4 * k)) := by
  rw [Dev.measured_get _ _ _ _ .temp, Dev.get_put_sensor_other _ .temp .valid _ other, Dev.get_put_sensor_other _ .temp .temp _ other]

theorem OfSensor.unrecorded {f : Fld} (h : OfSensor f) (k : Nat) : Unrecorded (f.at (4 * k)) := by
  simp only [Unrecorded, h.addr, Reg.EV_DROPPED.dropped, Reg.EV_DROP_CAUSE.ring_full, Reg.EV_NEXT_SEQ.seq]
  omega

/-- A field that a write of a sensor's mark of a given warning leaves. -/
theorem Dev.put_warned_get {f : Fld} (h : OfSensor f) (fits : 18 ≤ f.lsb ∨ f.lsb + f.width ≤ 17) (i k v : Nat) :
    (d.put (Reg.TS_TEMP.warned.at (4 * i)) v).get (f.at (4 * k)) = d.get (f.at (4 * k)) := by
  by_cases same : k = i
  · subst same
    exact Dev.get_put_apart _ _ _ _ (show 17 + 1 ≤ 64 by decide) fits
  · exact Dev.get_put_sensor_other _ h .warned _ same

theorem Dev.warn_get {f : Fld} (h : OfSensor f) (fits : 18 ≤ f.lsb ∨ f.lsb + f.width ≤ 17) (i k : Nat) :
    (d.warn i).get (f.at (4 * k)) = d.get (f.at (4 * k)) := by
  unfold Dev.warn
  dsimp only
  split
  · split
    · rw [Dev.event, Dev.record_get _ (h.unrecorded k), Dev.raise_get, Dev.put_warned_get _ h fits]
    · exact Dev.put_warned_get _ h fits _ _ _
  · split
    · exact Dev.put_warned_get _ h fits _ _ _
    · rfl

theorem Dev.warn_inner (i : Nat) : (d.warn i).inner = d.inner := by
  unfold Dev.warn
  dsimp only
  split
  · split <;> simp
  · split <;> simp

theorem temperatureUpdate_gives {s : State} {i : Nat} (t : BitVec 16) (runs : s.dev.sensorsRun = true) (lt : i < 24) :
    Gives (.temperatureUpdate i t) s ((s.dev.measured i t).warn i) :=
  .of_act (exec_temperatureUpdate i t s) (by simp [runs, lt])

/-! ### The temperature bins and the timing monitor (R447, R16) -/

theorem tempBin_fits (t : Int) : (Reg.EV_TEMP_BIN.seconds.at (4 * tempBin t)).lsb + (Reg.EV_TEMP_BIN.seconds.at (4 * tempBin t)).width ≤ 64 :=
  show 0 + 32 ≤ 64 by decide

/-- A second counted in its bin. -/
def Dev.binned (t : Int) : Dev :=
  (d.addSat (Reg.EV_TEMP_BIN.seconds.at (4 * tempBin t)) 1).modEv (fun e => { e with binSecond := e.binSecond + 1 })

theorem Dev.binned_regs (t : Int) : (d.binned t).regs = (d.addSat (Reg.EV_TEMP_BIN.seconds.at (4 * tempBin t)) 1).regs := rfl

theorem Dev.binned_ev (t : Int) : (d.binned t).ev = { d.ev with binSecond := d.ev.binSecond + 1 } := by
  rw [Dev.binned, Dev.modEv, Dev.addSat_ev]

theorem Dev.binned_seconds (t : Int) : (d.binned t).get (Reg.EV_TEMP_BIN.seconds.at (4 * tempBin t)) =
    min (d.get (Reg.EV_TEMP_BIN.seconds.at (4 * tempBin t)) + 1) (2 ^ 32 - 1) := by
  rw [Dev.get_eq_of_regs (d.binned_regs t), Dev.get_addSat _ _ _ (tempBin_fits t)]
  rfl

theorem temperatureBin_gives {s : State} {t : Int} (awake : s.dev.awake = true) (alive : s.dev.isDead = false)
    (due : s.dev.ev.binSecond < s.dev.opt.toNat / 1000) (hottest : s.dev.hottest = some t) :
    Gives .temperatureBin s (s.dev.binned t) :=
  .of_actOn (exec_temperatureBin s) (by simp [awake, alive, due, hottest])

/-- The monitor's registers after a measurement of the given period. -/
def Dev.monitored (ps : Nat) : Dev :=
  ((d.put Reg.TS_TC_MONITOR.tc_ps ps).put Reg.TS_TC_MONITOR.sensor 22).put Reg.TS_TC_MONITOR.valid 1

theorem Dev.monitored_fields {ps : Nat} (lt : ps < 1024) : (d.monitored ps).get Reg.TS_TC_MONITOR.tc_ps = ps ∧
    (d.monitored ps).bit Reg.TS_TC_MONITOR.valid = true ∧ (d.monitored ps).get Reg.TS_TC_MONITOR.sensor = 22 := by
  refine ⟨?_, Dev.bit_of_get (Dev.get_put_same _ _ _ (by decide)), ?_⟩
  · rw [Dev.monitored, Dev.get_put_apart _ _ _ _ (by decide) (by decide), Dev.get_put_apart _ _ _ _ (by decide) (by decide),
      Dev.get_put_same _ _ _ (by decide)]
    exact Nat.mod_eq_of_lt lt
  · rw [Dev.monitored, Dev.get_put_apart _ _ _ _ (by decide) (by decide)]
    exact Dev.get_put_same _ _ _ (by decide)

theorem tcMonitorUpdate_gives {s : State} (runs : s.dev.optRuns = true) (high : s.dev.pw.perstLow = false) :
    Gives .tcMonitorUpdate s (s.dev.draw.2.monitored (300 + (Config.freeWord s.dev.draw.1).toNat % 111)) :=
  .of_act (exec_tcMonitorUpdate s) (by simp [runs, high])

end

/-- Settles O55: each command's effect, read back from the registers it writes. -/
theorem dramAndTemperatureComplete : Obligations.DramAndTemperatureComplete := by
  refine ⟨?testMask, ?patrol, ?poll, ?reading, ?trip, ?bins, ?monitor⟩
  case testMask =>
    intro s v writes
    exact ⟨_, dcTestMask_gives v writes, s.dev.masked_mask v, s.dev.masked_armed v, s.dev.masked_mem v⟩
  case patrol =>
    intro s writes trained due
    exact .of_act (exec_patrolScrub s) (by simp [writes, trained, due])
  case poll =>
    intro s ch hot writes trained lt
    exact ⟨_, dramTemperaturePoll_gives hot writes trained lt, mem_polled_same _ ch hot, fun k other => mem_polled_other _ hot other⟩
  case reading =>
    intro s i t runs lt
    obtain ⟨pw, _, _, _, _, _, _, _, _, _, _, _, _, nand⟩ := Dev.inner_eq (((s.dev.measured i t).warn_inner i).trans (s.dev.measured_inner i t))
    refine ⟨_, temperatureUpdate_gives t runs lt, ?_, Dev.bit_of_get ?_, pw, nand, fun k _ other => ?_⟩
    · rw [Dev.warn_get _ .temp (.inr (by decide)), Dev.measured_temp]
    · rw [Dev.warn_get _ .valid (.inl (by decide)), Dev.measured_valid]
    · rw [Dev.warn_get _ .temp (.inr (by decide)), Dev.measured_other _ _ other]
  case trip =>
    intro s i runs lt cool valid hot
    exact ⟨_, thermalTrip_gives runs lt cool (.inr ⟨valid, hot⟩), s.dev.tripped_pw i⟩
  case bins =>
    intro s t awake alive due hottest
    exact ⟨_, temperatureBin_gives awake alive due hottest, s.dev.binned_ev t, s.dev.binned_seconds t⟩
  case monitor =>
    intro s runs high
    obtain ⟨ps, valid, sensor⟩ := s.dev.draw.2.monitored_fields (ps := 300 + (Config.freeWord s.dev.draw.1).toNat % 111) (by omega)
    refine ⟨_, tcMonitorUpdate_gives runs high, ?_, ?_, valid, sensor⟩
    · rw [ps]; omega
    · rw [ps]; omega

end Sys2Proof.Machine
end

section
/-! SUPPORT. The code flash's command sequences and operations (O56). -/

namespace Sys2Proof.Machine

theorem exec_programLine (off : Nat) (words : List Dword) (s : State) : exec (.programLine off words) s = execProgramLine off words s := rfl
theorem exec_sectorErase (off : Nat) (s : State) : exec (.sectorErase off) s = execSectorErase off s := rfl
theorem exec_cfEraseSuspend (off : Nat) (s : State) : exec (.cfEraseSuspend off) s = execCfEraseSuspend off s := rfl
theorem exec_cfEraseResume (off : Nat) (s : State) : exec (.cfEraseResume off) s = execCfEraseResume off s := rfl
theorem exec_cfReset (off : Nat) (s : State) : exec (.cfReset off) s = execCfReset off s := rfl
theorem exec_cfSequenceTimeout (s : State) : exec .cfSequenceTimeout s = execCfSequenceTimeout s := rfl
theorem exec_cfOperationDone (us : Nat) (s : State) : exec (.cfOperationDone us) s = execCfOperationDone us s := rfl

section
variable (d : Dev)

/-! ### Sectors and lines -/

theorem Dev.sector_putSector_same (p : Nat) (x : Sector) : (d.putSector p x).sector p = x := by
  simp only [Dev.sector, Dev.putSector, Dev.modCf]
  split
  · next blank => simpa [Tbl.set] using blank.symm
  · simp [Tbl.set]

theorem Dev.sector_putSector_other {p q : Nat} (x : Sector) (other : q ≠ p) : (d.putSector p x).sector q = d.sector q := by
  simp only [Dev.sector, Dev.putSector, Dev.modCf]
  split
  · rw [Tbl.set, Tbl.find_erase_other _ _ _ other]
  · rw [Tbl.set, Tbl.find_put_other _ _ _ _ other]

theorem Sector.line_program_same (x : Sector) {i : Nat} (data : i ≠ 255) (l : FlashLine) : (x.program i l).line i = x.line i &&& l := by
  simp only [Sector.program, if_neg data]
  split
  · next erased => rw [erased]; simp [Sector.line, Tbl.set]
  · simp [Sector.line, Tbl.set]

theorem Sector.line_program_other (x : Sector) {i j : Nat} (l : FlashLine) (other : j ≠ i) : (x.program i l).line j = x.line j := by
  simp only [Sector.program, Sector.line]
  split
  · split
    · rw [Tbl.set, Tbl.find_erase_other _ _ _ other]
    · rw [Tbl.set, Tbl.find_put_other _ _ _ _ other]
  · split
    · rw [Tbl.set, Tbl.find_erase_other _ _ _ other]
    · rw [Tbl.set, Tbl.find_put_other _ _ _ _ other]

/-- The array's content is what CF holds of it. -/
theorem Dev.sector_of_sectors {d e : Dev} (same : e.cf.sectors = d.cf.sectors) (p : Nat) : e.sector p = d.sector p := by
  rw [Dev.sector, same, Dev.sector]

/-! ### Sequences (R372, R373) -/

theorem Dev.settleDogs_cf : d.settleDogs.cf = d.cf := by
  unfold Dev.settleDogs
  refine Dev.each_keeps Dev.cf _ (fun e n => ?_) _ _
  split <;> rfl

theorem Dev.settleDogs_regs : d.settleDogs.regs = d.regs := by
  unfold Dev.settleDogs
  refine Dev.each_keeps Dev.regs _ (fun e n => ?_) _ _
  split <;> rfl

/-- The device with the given writes of a sequence recognised. -/
def Dev.sequenced (q : List (Nat × Dword)) (t : Nat) : Dev := d.modCf (fun c => { c with seq := q, seqTick := t })

theorem Dev.sequenced_cf (q : List (Nat × Dword)) (t : Nat) : (d.sequenced q t).cf = { d.cf with seq := q, seqTick := t } := rfl

theorem Dev.sequenced_regs (q : List (Nat × Dword)) (t : Nat) : (d.sequenced q t).regs = d.regs := rfl

theorem Dev.sequenced_self : d.sequenced d.cf.seq d.cf.seqTick = d := rfl

theorem Dev.continueSeq_sequenced (q : List (Nat × Dword)) (t : Nat) (w : Nat × Dword) :
    (d.sequenced q t).continueSeq w = d.sequenced (q ++ [w]) d.now := rfl

variable {d} (idle : d.cf.op = .none)
include idle

theorem Dev.cfWrite_idle (off : Nat) (v : Dword) : d.cfWrite off v = d.idleWrite off v := by
  rw [Dev.cfWrite, idle]

/-- A write that a recognised sequence begins with. -/
theorem Dev.cfWrite_continues {q : List (Nat × Dword)} (t off : Nat) {v : Dword} (unlocking : (q.take 3 == programStart) = false)
    (notReset : v ≠ 0xf0) (notLast : (q == eraseStart) = false)
    (begins : ((q ++ [(off, v)]).isPrefixOf programStart || (q ++ [(off, v)]).isPrefixOf eraseStart) = true) :
    (d.sequenced q t).cfWrite off v = d.sequenced (q ++ [(off, v)]) d.now := by
  rw [Dev.cfWrite_idle (by exact idle), Dev.idleWrite, Dev.sequenced_cf]
  dsimp only
  rw [unlocking, notLast, if_neg (by decide), if_neg notReset, if_neg (by decide), if_pos begins, Dev.continueSeq_sequenced]

/-- A write of a program's data. -/
theorem Dev.cfWrite_data (got : List (Nat × Dword)) (t off : Nat) (v : Dword) :
    (d.sequenced (programStart ++ got) t).cfWrite off v = (d.sequenced (programStart ++ got) t).dataWord off v := by
  have unlocked : ((programStart ++ got).take 3 == programStart) = true := by simp [programStart]
  rw [Dev.cfWrite_idle (by exact idle), Dev.idleWrite, Dev.sequenced_cf]
  dsimp only
  rw [if_pos unlocked]

omit idle in
/-- The data word at the offset that follows: the 64th begins the program. -/
theorem Dev.dataWord_follows {got : List (Nat × Dword)} (t : Nat) {off : Nat} (v : Dword) (line : off % 256 = 0) (few : got.length < 64)
    (first : ∀ w, got.head? = some w → w.1 = off) : (d.sequenced (programStart ++ got) t).dataWord (off + 4 * got.length) v =
      if got.length = 63 then (d.sequenced (programStart ++ got) t).beginProgram (off % 65536) (got.map (fun w => w.2) ++ [v])
      else d.sequenced (programStart ++ (got ++ [(off + 4 * got.length, v)])) d.now := by
  have dropped : (programStart ++ got).drop 3 = got := by simp [programStart]
  have follows : (decide (off % 65536 % 256 = 0) && decide ((off + 4 * got.length) % 65536 = off % 65536 + 4 * got.length)) = true := by
    simp only [Bool.and_eq_true, decide_eq_true_eq]
    omega
  rw [Dev.dataWord, Dev.sequenced_cf]
  dsimp only
  rw [dropped]
  cases got with
  | nil => exact if_pos follows
  | cons w got =>
    obtain ⟨base, x⟩ := w
    obtain rfl : base = off := first _ rfl
    refine (if_pos follows).trans ?_
    rw [Dev.continueSeq_sequenced, List.append_assoc]
    rfl

/-- The data words after the unlock writes are taken one by one; the 64th begins the program. -/
theorem Dev.data_writes {off : Nat} (line : off % 256 = 0) (rest : List Dword) : ∀ (got : List (Nat × Dword)) (t : Nat),
    (∀ w, got.head? = some w → w.1 = off) → rest ≠ [] → got.length + rest.length = 64 → ∃ q t',
      (d.sequenced (programStart ++ got) t).each (rest.mapIdx (fun k w => (off + 4 * (got.length + k), w))) (fun d w => d.cfWrite w.1 w.2) =
        (d.sequenced q t').beginProgram (off % 65536) (got.map (fun w => w.2) ++ rest) := by
  induction rest with
  | nil => exact fun _ _ _ some _ => absurd rfl some
  | cons v rest ih =>
    intro got t first _ length
    rw [List.length_cons] at length
    rw [List.mapIdx_cons, Dev.each_cons, Nat.add_zero, Dev.cfWrite_data idle, Dev.dataWord_follows t v line (by omega) first]
    cases rest with
    | nil =>
      rw [if_pos (by simpa using length)]
      exact ⟨_, _, rfl⟩
    | cons u rest =>
      rw [if_neg (by simp only [List.length_cons] at length; omega)]
      have head : ∀ w, (got ++ [(off + 4 * got.length, v)]).head? = some w → w.1 = off := by
        cases got with
        | nil => simp
        | cons x got => exact first
      have long : (got ++ [(off + 4 * got.length, v)]).length + (u :: rest).length = 64 := by
        rw [List.length_append, List.length_singleton]; omega
      obtain ⟨q, t', ends⟩ := ih (got ++ [(off + 4 * got.length, v)]) d.now head (by simp) long
      refine ⟨q, t', ?_⟩
      simpa [Nat.add_assoc, Nat.add_comm 1] using ends

theorem Dev.program_unlocks (t : Nat) :
    (d.sequenced [] t).each programStart (fun d w => d.cfWrite w.1 w.2) = d.sequenced programStart d.now := by
  simp only [programStart, Dev.each_cons, Dev.each_nil]
  rw [Dev.cfWrite_continues idle _ _ (by decide) (by decide) (by decide) (by decide),
    Dev.cfWrite_continues idle _ _ (by decide) (by decide) (by decide) (by decide),
    Dev.cfWrite_continues idle _ _ (by decide) (by decide) (by decide) (by decide)]
  rfl

theorem Dev.erase_unlocks (t : Nat) :
    (d.sequenced [] t).each eraseStart (fun d w => d.cfWrite w.1 w.2) = d.sequenced eraseStart d.now := by
  simp only [eraseStart, Dev.each_cons, Dev.each_nil]
  rw [Dev.cfWrite_continues idle _ _ (by decide) (by decide) (by decide) (by decide),
    Dev.cfWrite_continues idle _ _ (by decide) (by decide) (by decide) (by decide),
    Dev.cfWrite_continues idle _ _ (by decide) (by decide) (by decide) (by decide),
    Dev.cfWrite_continues idle _ _ (by decide) (by decide) (by decide) (by decide),
    Dev.cfWrite_continues idle _ _ (by decide) (by decide) (by decide) (by decide)]
  rfl

/-- The sixth write. -/
theorem Dev.cfWrite_erase (t off : Nat) : (d.sequenced eraseStart t).cfWrite off 0x30 = (d.sequenced eraseStart t).beginErase := by
  rw [Dev.cfWrite_idle (by exact idle), Dev.idleWrite, Dev.sequenced_cf]
  dsimp only
  rw [if_neg (by decide), if_neg (by decide), if_pos (by decide), if_pos rfl]

end

/-! ### Operations that begin (R371, R374) -/

section
variable (d : Dev) (op : CfOp) (code : Nat)

theorem Dev.beginCfOp_cf : (d.beginCfOp op code).cf = { d.cf with seq := [], op := op, resumedAt := none, suspendAsked := false } := by
  rw [Dev.beginCfOp, Dev.flag_cf, Dev.put_cf, Dev.endSequence, Dev.modCf, Dev.modCf, Dev.settleDogs_cf]

theorem Dev.beginCfOp_sector (q : Nat) : (d.beginCfOp op code).sector q = d.sector q :=
  Dev.sector_of_sectors (by rw [Dev.beginCfOp_cf]) q

theorem Dev.beginCfOp_status (lt : code < 4) : (d.beginCfOp op code).get Reg.CF_STATUS.op = code ∧
    (d.beginCfOp op code).bit Reg.CF_STATUS.busy = true := by
  refine ⟨?_, Dev.bit_flag_same _ _ rfl (by decide)⟩
  rw [Dev.beginCfOp, Dev.flag, Dev.get_put_apart _ _ _ _ (by decide) (by decide), Dev.get_put_same _ _ _ (by decide)]
  exact Nat.mod_eq_of_lt lt

/-- A program that its sector does not refuse. -/
theorem Dev.beginProgram_begins {base : Nat} (words : List Dword)
    (may : d.isMapped (d.get Reg.CF_SECTOR_SEL.sector) = false ∨ base / 256 % 256 ≠ 255) : d.beginProgram base words =
      d.beginCfOp (.program (d.get Reg.CF_SECTOR_SEL.sector) (base / 256 % 256) (BitVec.ofNat 2048 (packed (words.map BitVec.toNat)))) 1 := by
  have refused : ¬ (d.isMapped (d.get Reg.CF_SECTOR_SEL.sector) && decide (base / 256 % 256 = 255)) = true := by
    rcases may with unmapped | data
    · simp [unmapped]
    · simp [data]
  rw [Dev.beginProgram, if_neg refused, packed, List.foldr_map]

/-- An erase that its sector does not refuse. -/
theorem Dev.beginErase_begins (unmapped : d.isMapped (d.get Reg.CF_SECTOR_SEL.sector) = false)
    (fresh : (d.sector (d.get Reg.CF_SECTOR_SEL.sector)).erases < 20000) : d.beginErase =
      (d.putSector (d.get Reg.CF_SECTOR_SEL.sector) tornSector).beginCfOp
        (.erase (d.get Reg.CF_SECTOR_SEL.sector) (d.nextErases (d.get Reg.CF_SECTOR_SEL.sector))) 2 := by
  rw [Dev.beginErase]
  dsimp only
  rw [unmapped, if_neg (by simpa using fresh)]

end

section
variable {s : State} (opened : s.dev.cfOpen = true) (idle : s.dev.cf.op = .none) (fresh : s.dev.cf.seq = [])
include opened idle fresh

/-- PROGRAM_LINE of 64 words at a line's offset. -/
theorem programLine_gives {off : Nat} {words : List Dword} (whole : words.length = 64) (line : off % 256 = 0) :
    ∃ q t, Gives (.programLine off words) s ((s.dev.sequenced q t).beginProgram (off % 65536) words) := by
  obtain ⟨q, t, ends⟩ := Dev.data_writes idle line words [] s.dev.now (by simp) (by rintro rfl; simp at whole) (by simpa using whole)
  refine ⟨q, t, ?_⟩
  rw [Gives, exec_programLine, execProgramLine, act_true opened, Dev.each_append]
  have unlocked := Dev.program_unlocks idle s.dev.cf.seqTick
  rw [← fresh, Dev.sequenced_self] at unlocked
  rw [unlocked]
  simp only [List.append_nil, List.length_nil, Nat.zero_add, List.map_nil, List.nil_append] at ends
  rw [ends]

/-- SECTOR_ERASE. -/
theorem sectorErase_gives (off : Nat) : Gives (.sectorErase off) s (s.dev.sequenced eraseStart s.dev.now).beginErase := by
  have unlocked := Dev.erase_unlocks idle s.dev.cf.seqTick
  rw [← fresh, Dev.sequenced_self] at unlocked
  rw [Gives, exec_sectorErase, execSectorErase, act_true opened, Dev.each_append, unlocked, Dev.each_cons, Dev.each_nil, Dev.cfWrite_erase idle]

end

/-! ### Erases that are suspended and resumed (R375) -/

theorem Dev.cfWrite_suspends {d : Dev} {p n : Nat} (off : Nat) (erases : d.cf.op = .erase p n) (runs : d.cf.suspended = false)
    (first : d.cf.resumedAt = none) : d.cfWrite off 0xb0 = d.suspendErase := by
  rw [Dev.cfWrite, erases]
  dsimp only
  rw [runs, if_neg (by decide), if_pos rfl, Dev.askSuspend, first]

theorem Dev.cfWrite_resumes {d : Dev} {p n : Nat} (off : Nat) (erases : d.cf.op = .erase p n) (suspended : d.cf.suspended = true) :
    d.cfWrite off 0x30 = d.resumeErase := by
  rw [Dev.cfWrite, erases]
  dsimp only
  rw [suspended, if_pos rfl, if_pos rfl]

theorem Dev.cfWrite_resets {d : Dev} (off : Nat) (idle : d.cf.op = .none) (noData : d.cf.seq.take 3 ≠ programStart) :
    d.cfWrite off 0xf0 = d.endSequence := by
  rw [Dev.cfWrite_idle idle, Dev.idleWrite, if_neg (by simpa using noData), if_pos rfl]

/-! ### Operations that end (R366, R371, R374) -/

section
variable {d : Dev} (quiet : d.cf.stalled = [])
include quiet

theorem Dev.unstall_cf : d.unstall.cf = d.cf := by
  unfold Dev.unstall
  split
  · rfl
  · simp only [quiet, Dev.each_nil, Dev.flag_cf, Dev.modCf]
    rw [← quiet]

theorem Dev.unstall_get {f : Fld} (apart : f.addr ≠ Reg.CF_STATUS.waiting.addr) : d.unstall.get f = d.get f := by
  unfold Dev.unstall
  split
  · rfl
  · simp only [quiet, Dev.each_nil]
    exact Dev.get_put_other _ _ _ _ apart

omit quiet in
/-- What an operation's end does before the stalled accesses are served. -/
theorem Dev.cfOpEnded_eq (us : Nat) : ∃ e : Dev, d.cfOpEnded us = e.unstall ∧
    e.cf = { d.cf with op := .none, suspendAsked := false, resumedAt := none } ∧ e.get Reg.CF_OP_TIME.us = us % 2 ^ 32 := by
  refine ⟨_, rfl, ?_, ?_⟩
  · rw [Dev.raise_cf, Dev.flag_cf, Dev.put_cf, Dev.flag_cf, Dev.put_cf, Dev.modCf, Dev.settleDogs_cf]
  · rw [Dev.raise_get, Dev.flag, Dev.get_put_other _ _ _ _ (by decide)]
    exact Dev.get_put_same _ _ _ (by decide)

theorem Dev.cfOpEnded_cf (us : Nat) : (d.cfOpEnded us).cf = { d.cf with op := .none, suspendAsked := false, resumedAt := none } := by
  obtain ⟨e, ends, cf, _⟩ := Dev.cfOpEnded_eq (d := d) us
  rw [ends, Dev.unstall_cf (by rw [cf]; exact quiet), cf]

theorem Dev.cfOpEnded_sector (us q : Nat) : (d.cfOpEnded us).sector q = d.sector q :=
  Dev.sector_of_sectors (by rw [Dev.cfOpEnded_cf quiet]) q

theorem Dev.cfOpEnded_time {us : Nat} (lt : us < 2 ^ 32) : (d.cfOpEnded us).get Reg.CF_OP_TIME.us = us := by
  obtain ⟨e, ends, cf, time⟩ := Dev.cfOpEnded_eq (d := d) us
  rw [ends, Dev.unstall_get (by rw [cf]; exact quiet) (by decide), time, Nat.mod_eq_of_lt lt]

end

theorem Dev.putSector_quiet {d : Dev} (quiet : d.cf.stalled = []) (p : Nat) (x : Sector) : (d.putSector p x).cf.stalled = [] := quiet

theorem Dev.noteErase_cf (d : Dev) (p n : Nat) : (d.noteErase p n).cf = d.cf := by
  unfold Dev.noteErase
  dsimp only
  split
  · rw [Dev.event_cf, Dev.put_cf]
  · rw [Dev.put_cf]

theorem programDone_gives {s : State} {p i us : Nat} {l : FlashLine} (programs : s.dev.cf.op = .program p i l) (runs : s.dev.cf.suspended = false)
    (short : us ≤ 600) (data : i < 255) (noMark : s.dev.cf.markWaits = none) (quiet : s.dev.cf.stalled = []) :
    Gives (.cfOperationDone us) s ((s.dev.putSector p ((s.dev.sector p).program i l)).cfOpEnded us) := by
  have mark : ((s.dev.putSector p ((s.dev.sector p).program i l)).cfOpEnded us).cf.markWaits = none := by
    rw [Dev.cfOpEnded_cf (Dev.putSector_quiet quiet _ _)]
    exact noMark
  rw [Gives, exec_cfOperationDone, execCfOperationDone, act_true (by simp [Dev.cfRuns, programs, runs]; omega)]
  dsimp only
  rw [programs]
  dsimp only
  rw [if_pos short, if_neg (by omega), mark]

theorem eraseDone_gives {s : State} {p n us : Nat} (erases : s.dev.cf.op = .erase p n) (runs : s.dev.cf.suspended = false) (short : us ≤ 200000) :
    Gives (.cfOperationDone us) s (((s.dev.putSector p { sealed := true, erases := n }).noteErase p n).cfOpEnded us) := by
  rw [Gives, exec_cfOperationDone, execCfOperationDone, act_true (by simp [Dev.cfRuns, erases, runs, short])]
  dsimp only
  rw [erases]

/-- Settles O56: a sequence's writes are followed to the operation they begin, and an operation's end to what it leaves in the array. -/
theorem codeFlashCommandsComplete : Obligations.CodeFlashCommandsComplete := by
  refine ⟨?program, ?erase, ?suspend, ?reset, ?timeout, ?programDone, ?eraseDone⟩
  case program =>
    intro s off words opened idle fresh whole line may
    obtain ⟨q, t, gives⟩ := programLine_gives opened idle fresh whole line
    have place : off % 65536 / 256 % 256 = off / 256 % 256 := by omega
    have sector : (s.dev.sequenced q t).get Reg.CF_SECTOR_SEL.sector = s.dev.get Reg.CF_SECTOR_SEL.sector :=
      Dev.get_eq_of_regs (s.dev.sequenced_regs q t) _
    have begins := (s.dev.sequenced q t).beginProgram_begins (base := off % 65536) words (by rw [sector, place]; exact may)
    rw [sector, place] at begins
    rw [begins] at gives
    obtain ⟨code, busy⟩ := Dev.beginCfOp_status _ _ 1 (by decide)
    have narrow : ∀ x ∈ words.map BitVec.toNat, x < 2 ^ 32 := List.forall_mem_map.mpr (fun w _ => w.isLt)
    exact ⟨_, gives, ⟨_, by rw [Dev.beginCfOp_cf], fun k w at_ => fld_packed narrow (by simp [whole]) (by simp [at_])⟩,
      by rw [Dev.beginCfOp_cf]; rfl, by rw [Dev.beginCfOp_cf], code, busy⟩
  case erase =>
    intro s off opened idle fresh unmapped few
    have gives := sectorErase_gives opened idle fresh off
    have sector : (s.dev.sequenced eraseStart s.dev.now).get Reg.CF_SECTOR_SEL.sector = s.dev.get Reg.CF_SECTOR_SEL.sector :=
      Dev.get_eq_of_regs (s.dev.sequenced_regs _ _) _
    have begins := (s.dev.sequenced eraseStart s.dev.now).beginErase_begins (by rw [sector]; exact unmapped) (by rw [sector]; exact few)
    rw [sector] at begins
    rw [begins] at gives
    obtain ⟨code, busy⟩ := Dev.beginCfOp_status _ _ 2 (by decide)
    refine ⟨_, gives, by rw [Dev.beginCfOp_cf]; rfl, ?_, code, busy⟩
    rw [Dev.beginCfOp_sector, Dev.sector_putSector_same]
    rfl
  case suspend =>
    intro s off p n opened erases
    refine ⟨fun runs first => ?_, fun suspended => ?_⟩
    · rw [Gives, exec_cfEraseSuspend, execCfEraseSuspend, act_true opened, Dev.cfWrite_suspends off erases runs first]
    · rw [Gives, exec_cfEraseResume, execCfEraseResume, act_true opened, Dev.cfWrite_resumes off erases suspended]
  case reset =>
    intro s off opened idle noData
    refine ⟨_, ?_, rfl⟩
    rw [Gives, exec_cfReset, execCfReset, act_true opened, Dev.cfWrite_resets off idle noData, Dev.endSequence, Dev.modCf]
  case timeout =>
    intro s begun late
    have cf : s.dev.seqError.cf = { s.dev.cf with seq := [] } := by rw [Dev.seqError, Dev.flag_cf, Dev.endSequence, Dev.modCf]
    exact ⟨s.dev.seqError, .of_act (exec_cfSequenceTimeout s) (by simp [begun, late]), by rw [cf], Dev.bit_flag_same _ _ rfl (by decide),
      by rw [cf], by rw [cf]⟩
  case programDone =>
    intro s p i us l programs runs short data noMark quiet
    have quiet' := Dev.putSector_quiet quiet p ((s.dev.sector p).program i l)
    refine ⟨_, programDone_gives programs runs short data noMark quiet, by rw [Dev.cfOpEnded_cf quiet'], Dev.cfOpEnded_time quiet' (by omega),
      ?_, fun q other => ?_, fun j other => ?_⟩
    · rw [Dev.cfOpEnded_sector quiet', Dev.sector_putSector_same, Sector.line_program_same _ (by omega)]
    · rw [Dev.cfOpEnded_sector quiet', Dev.sector_putSector_other _ _ other]
    · rw [Dev.cfOpEnded_sector quiet', Dev.sector_putSector_same, Sector.line_program_other _ _ other]
  case eraseDone =>
    intro s p n us erases runs quiet short
    have quiet' : ((s.dev.putSector p { sealed := true, erases := n }).noteErase p n).cf.stalled = [] := by
      rw [Dev.noteErase_cf]; exact quiet
    refine ⟨_, eraseDone_gives erases runs short, by rw [Dev.cfOpEnded_cf quiet'], ?_, fun q other => ?_⟩
    · rw [Dev.cfOpEnded_sector quiet', Dev.sector_of_sectors (congrArg Cf.sectors (Dev.noteErase_cf _ p n)), Dev.sector_putSector_same]
    · rw [Dev.cfOpEnded_sector quiet', Dev.sector_of_sectors (congrArg Cf.sectors (Dev.noteErase_cf _ p n)), Dev.sector_putSector_other _ _ other]

end Sys2Proof.Machine
end

section
/-! SUPPORT. The recorder's commands (O57). -/

namespace Sys2Proof.Machine

theorem exec_eventRecord (code src cls : Nat) (p0 p1 p2 : Dword) (s : State) :
    exec (.eventRecord code src cls p0 p1 p2) s = execEventRecord code src cls p0 p1 p2 s := rfl
theorem exec_evFlush (s : State) : exec .evFlush s = execEvFlush s := rfl
theorem exec_healthSnapshot (s : State) : exec .healthSnapshot s = execHealthSnapshot s := rfl
theorem exec_logClear (origin : Nat) (s : State) : exec (.logClear origin) s = execLogClear origin s := rfl

section
variable (d : Dev)

/-! ### Records (R437 to R439) -/

/-- The record of an event, with the next sequence, the time and its parameters. -/
def Dev.recordOf (code src cls : Nat) (requested : Bool) (p0 p1 p2 : Nat) : Event :=
  ⟨BitVec.ofNat 16 code, src, cls, requested, d.get Reg.EV_NEXT_SEQ.seq, d.pcc, d.opt, BitVec.ofNat 32 p0, BitVec.ofNat 32 p1, BitVec.ofNat 32 p2⟩

/-- A record at the end of the staging ring. -/
def Dev.admitted (r : Event) : Dev := (d.modEv (fun e => { e with ring := e.ring ++ [r] })).add Reg.EV_NEXT_SEQ.seq 1

theorem Dev.admitted_ring (r : Event) : (d.admitted r).ev.ring = d.ev.ring ++ [r] := by rw [Dev.admitted, Dev.add, Dev.put_ev, Dev.modEv_ev]

theorem Dev.admitted_seq (r : Event) : (d.admitted r).get Reg.EV_NEXT_SEQ.seq = (d.get Reg.EV_NEXT_SEQ.seq + 1) % 2 ^ 24 := by
  rw [Dev.admitted, Dev.add, Dev.get_put_same _ _ _ (by decide), Dev.modEv_get]
  rfl

theorem Dev.admitted_dropped (r : Event) : (d.admitted r).get Reg.EV_DROPPED.dropped = d.get Reg.EV_DROPPED.dropped := by
  rw [Dev.admitted, Dev.add, Dev.get_put_other _ _ _ _ (by decide), Dev.modEv_get]

/-- An admitted record, but for the interrupt of a ring that is three quarters full. -/
theorem Dev.letIn_admits (code src cls : Nat) (requested : Bool) (p0 p1 p2 : Nat) (room : d.logFull = false) (space : d.ev.ring.length < 4096) :
    d.letIn code src cls requested p0 p1 p2 = d.admitted (d.recordOf code src cls requested p0 p1 p2) ∨
    d.letIn code src cls requested p0 p1 p2 = (d.admitted (d.recordOf code src cls requested p0 p1 p2)).raise Irq.ringThreeQuarters := by
  unfold Dev.letIn
  rw [if_neg (by simp [room]), if_neg (by omega)]
  dsimp only
  split
  · exact .inr rfl
  · exact .inl rfl

/-- A record that is counted as dropped for the given cause. -/
def Dev.droppedFor (cause : Fld) : Dev := (d.addSat Reg.EV_DROPPED.dropped 1).addSat cause 1

theorem Dev.letIn_drops (code src cls : Nat) (requested : Bool) (p0 p1 p2 : Nat) (full : d.logFull = true ∨ 4096 ≤ d.ev.ring.length) :
    d.letIn code src cls requested p0 p1 p2 = d.droppedFor Reg.EV_DROP_CAUSE.log_full ∨
    d.letIn code src cls requested p0 p1 p2 = d.droppedFor Reg.EV_DROP_CAUSE.ring_full := by
  unfold Dev.letIn
  cases log : d.logFull with
  | true => exact .inl (if_pos rfl)
  | false =>
    rw [if_neg (by decide), if_pos (full.resolve_left (by simp [log]))]
    exact .inr rfl

theorem Dev.droppedFor_ev (cause : Fld) : (d.droppedFor cause).ev = d.ev := by rw [Dev.droppedFor, Dev.addSat_ev, Dev.addSat_ev]

theorem Dev.droppedFor_seq {cause : Fld} (other : Reg.EV_NEXT_SEQ.seq.addr ≠ cause.addr) :
    (d.droppedFor cause).get Reg.EV_NEXT_SEQ.seq = d.get Reg.EV_NEXT_SEQ.seq := by
  rw [Dev.droppedFor, Dev.get_addSat_other _ _ other, Dev.get_addSat_other _ _ (by decide)]

theorem Dev.droppedFor_dropped {cause : Fld} (other : Reg.EV_DROPPED.dropped.addr ≠ cause.addr) :
    (d.droppedFor cause).get Reg.EV_DROPPED.dropped = min (d.get Reg.EV_DROPPED.dropped + 1) (2 ^ 32 - 1) := by
  rw [Dev.droppedFor, Dev.get_addSat_other _ _ other, Dev.get_addSat _ _ _ (by decide)]
  rfl

/-! ### Clears (R445) -/

/-- The record of a clear. -/
def Dev.clearRecord (origin : Nat) : Event :=
  { code := 0x0e01, source := Src.ev, cls := 0, requested := false, seq := d.get Reg.EV_NEXT_SEQ.seq, pcc := d.pcc, opt := d.opt
    p0 := BitVec.ofNat 32 d.evHeld, p1 := BitVec.ofNat 32 (d.get Reg.EV_DROPPED.dropped), p2 := BitVec.ofNat 32 origin }

theorem Dev.grantClear_ev (origin : Nat) (acc : Option Nat) : (d.grantClear origin acc).ev =
    { d.ev with
      ring := if d.ev.clears.isEmpty = true then [d.clearRecord origin] else d.ev.ring ++ [d.clearRecord origin]
      clears := d.ev.clears ++ [{ origin := origin, acc := acc, held := d.evHeld, record := d.clearRecord origin }]
      fullNoticed := false } := by
  rw [Dev.grantClear]
  dsimp only
  rw [Dev.add, Dev.put_ev, Dev.put_ev, Dev.modEv_ev]
  split <;> rfl

theorem Dev.grantClear_last (origin : Nat) (acc : Option Nat) : (d.grantClear origin acc).ev.ring.getLast? = some (d.clearRecord origin) := by
  rw [Dev.grantClear_ev]
  dsimp only
  split <;> simp

/-- All that a clear does to the registers. -/
theorem Dev.grantClear_eq (origin : Nat) (acc : Option Nat) :
    ∃ e : Dev, d.grantClear origin acc = (e.put Reg.EV_DROPPED.dropped 0).add Reg.EV_NEXT_SEQ.seq 1 ∧ e.regs = d.regs := by
  refine ⟨_, rfl, ?_⟩
  split <;> rfl

theorem Dev.grantClear_dropped (origin : Nat) (acc : Option Nat) : (d.grantClear origin acc).get Reg.EV_DROPPED.dropped = 0 := by
  obtain ⟨e, clears, _⟩ := d.grantClear_eq origin acc
  rw [clears, Dev.add, Dev.get_put_other _ _ _ _ (by decide), Dev.get_put_same _ _ _ (by decide), Nat.zero_mod]

theorem Dev.grantClear_seq (origin : Nat) (acc : Option Nat) :
    (d.grantClear origin acc).get Reg.EV_NEXT_SEQ.seq = (d.get Reg.EV_NEXT_SEQ.seq + 1) % 2 ^ 24 := by
  obtain ⟨e, clears, same⟩ := d.grantClear_eq origin acc
  rw [clears, Dev.add, Dev.get_put_same _ _ _ (by decide), Dev.get_put_other _ _ _ _ (by decide), Dev.get_eq_of_regs same]
  rfl

/-- A granted clear leaves the others that are asked for. -/
def Dev.granted (origin : Nat) (acc : Option Nat) : Dev :=
  (d.modEv (fun e => { e with asked := e.asked.erase (origin, acc) })).grantClear origin acc

theorem logClear_gives {s : State} {origin : Nat} {acc : Option Nat} (alive : s.dev.isDead = false)
    (asked : s.dev.ev.asked.find? (fun a => a.1 = origin) = some (origin, acc)) : Gives (.logClear origin) s (s.dev.granted origin acc) :=
  .of_actOn (exec_logClear origin s) (by simp [alive, asked])

end

/-- Settles O57: each command's effect where it is due, and a record either enters the ring or is counted. -/
theorem eventCommandsComplete : Obligations.EventCommandsComplete := by
  refine ⟨?event, ?flush, ?flushClear, ?snapshot, ?clear, fun d code src cls p0 p1 p2 req => ⟨fun room space => ?_, fun full => ?_⟩⟩
  case event =>
    intro s code src cls p0 p1 p2 awake listed
    exact .of_act (exec_eventRecord code src cls p0 p1 p2 s) (by simp [awake, listed])
  case flush =>
    intro s works free noClear due room
    rw [Gives, exec_evFlush, execEvFlush, act_true (by simp [works, free]), if_neg (by simp [noClear]), if_pos (by simp [due, room])]
  case flushClear =>
    intro s works free clear erased
    rw [Gives, exec_evFlush, execEvFlush, act_true (by simp [works, free]), if_pos (by simpa using clear), if_neg (by simp [erased])]
  case snapshot =>
    intro s works free due
    rw [Gives, exec_healthSnapshot, execHealthSnapshot, act_true (by simp [works, free]), if_pos (by simp [due])]
  case clear =>
    intro s origin acc alive asked
    set e := s.dev.modEv (fun e => { e with asked := e.asked.erase (origin, acc) })
    have ev := e.grantClear_ev origin acc
    refine ⟨_, logClear_gives alive asked, e.grantClear_dropped origin acc, e.grantClear_seq origin acc, congrArg Ev.asked ev,
      _, congrArg Ev.clears ev, rfl, rfl, rfl, rfl, rfl, e.grantClear_last origin acc⟩
  · rcases d.letIn_admits code src cls req p0 p1 p2 room space with quiet | raised
    · rw [quiet]
      exact ⟨d.admitted_ring _, d.admitted_seq _, d.admitted_dropped _⟩
    · rw [raised, Dev.raise_ev, Dev.raise_get, Dev.raise_get]
      exact ⟨d.admitted_ring _, d.admitted_seq _, d.admitted_dropped _⟩
  · rcases d.letIn_drops code src cls req p0 p1 p2 full with log | ring
    · rw [log]
      exact ⟨d.droppedFor_ev _, d.droppedFor_seq (by decide), d.droppedFor_dropped (by decide)⟩
    · rw [ring]
      exact ⟨d.droppedFor_ev _, d.droppedFor_seq (by decide), d.droppedFor_dropped (by decide)⟩

end Sys2Proof.Machine
end
